-- ==== Sys2Proof/Word.lean ====
section
/-! DEFINITION. The word types of the block: 32-bit words, bytes and 24-bit block-local addresses
(00_scope.md, Numbers, units and data; R204: addresses are taken modulo 2^24). -/
namespace Sys2Proof

/-- A word: 32 bits (00_scope.md). -/
abbrev Word := BitVec 32
/-- A byte: 8 bits (00_scope.md). -/
abbrev Byte := BitVec 8
/-- A block-local byte address: 24 bits (R204, R550). -/
abbrev Addr := BitVec 24

end Sys2Proof
end

