-- ==== Sys2Proof/Machine/Bits.lean ====
section
/-! DEFINITION. Bit fields of words, sign extension, byte order (R5, R6). -/
namespace Sys2Proof
namespace Machine

/-- Bits [lo+n-1 : lo] of a word, as a number (R5). -/
def fld (w : Word) (lo n : Nat) : Nat := (w.toNat / 2 ^ lo) % 2 ^ n

/-- The mask of `n` ones from bit `lo` on: F(lo, n) of R243. -/
def fmask (lo n : Nat) : Word := BitVec.ofNat 32 ((2 ^ n - 1) * 2 ^ lo)

/-- The word with bits [lo+n-1 : lo] replaced by the low `n` bits of `v`. -/
def setFld (w : Word) (lo n v : Nat) : Word :=
  (w &&& ~~~ fmask lo n) ||| (BitVec.ofNat 32 ((v % 2 ^ n) * 2 ^ lo))

/-- The word with bit `k` set. -/
def setBit (w : Word) (k : Nat) : Word := w ||| BitVec.ofNat 32 (2 ^ k)
/-- The word with bit `k` cleared. -/
def clrBit (w : Word) (k : Nat) : Word := w &&& ~~~ BitVec.ofNat 32 (2 ^ k)
/-- The word with bit `k` made `b`. -/
def putBit (w : Word) (k : Nat) (b : Bool) : Word := if b then setBit w k else clrBit w k
/-- 1 or 0. -/
def b2n (b : Bool) : Nat := if b then 1 else 0
/-- The word 1 or 0: the result of a compare (R219). -/
def b2w (b : Bool) : Word := if b then 1#32 else 0#32

/-- A counter of `n` bits that stops at its largest value (R545). -/
def satAdd (n a b : Nat) : Nat := min (2 ^ n - 1) (a + b)

/-- Field [lo+n-1 : lo] of a word counted up by `k`, saturating (R545). -/
def satFld (w : Word) (lo n k : Nat) : Word := setFld w lo n (satAdd n (fld w lo n) k)

/-- The little-endian number that a list of bytes holds (R6). -/
def leNat : List Byte → Nat
  | [] => 0
  | b :: r => b.toNat + 256 * leNat r

/-- The `n` little-endian bytes of a number (R6). -/
def leBytes : Nat → Nat → List Byte
  | 0, _ => []
  | n + 1, v => BitVec.ofNat 8 v :: leBytes n (v / 256)

/-- Sign extension of an `n`-bit number to a word. -/
def sext (n v : Nat) : Word :=
  if v % 2 ^ n < 2 ^ (n - 1) then BitVec.ofNat 32 (v % 2 ^ n)
  else BitVec.ofInt 32 ((v % 2 ^ n : Nat) - (2 ^ n : Nat) : Int)

/-- The bits of a word in reverse order (R243, BREV). -/
def revBits (w : Word) : Word := w.reverse

/-- The bytes of a word in reverse order (R215, BSWAP). -/
def swapBytes (w : Word) : Word :=
  ((w &&& 0xFF#32) <<< 24) ||| ((w &&& 0xFF00#32) <<< 8) |||
  ((w >>> 8) &&& 0xFF00#32) ||| (w >>> 24)

/-- The number of 1 bits among the low `n` bits. -/
def popCount (w : Word) : Nat → Nat
  | 0 => 0
  | n + 1 => popCount w n + b2n (w.getLsbD n)

/-- Leading zero bits below bit `n` (R215, CLZ: `n = 32`). -/
def leadZeros (w : Word) : Nat → Nat
  | 0 => 0
  | n + 1 => if w.getLsbD n then 0 else leadZeros w n + 1

/-- The bits of the low `w` bits of `v` in reverse order: rev(v, w) of R205. -/
def revLow (v : Nat) : Nat → Nat
  | 0 => 0
  | w + 1 => (v / 2 ^ w) % 2 + 2 * revLow v w

/-- The position of the highest 1 bit of a number below 2^n, 0 where there is none. -/
def msbPos (v : Nat) : Nat → Nat
  | 0 => 0
  | n + 1 => if (v / 2 ^ n) % 2 = 1 then n else msbPos v n

/-- The first `n` numbers that satisfy `p`, in rising order from 0: the members of a set of instances. -/
def members (n : Nat) (p : Nat → Bool) : List Nat := (List.range n).filter p

end Machine
end Sys2Proof
end

