-- ==== Sys2Proof/Syntax.lean ====
section
/-! DEFINITION. The commands of the block: one constructor per row of spec/opcode_table.json, with the row's
operands. What a tool or the chip outside supplies (a pin level, a read word, a result status) is an operand. -/
namespace Sys2Proof

/-- Thread number T0–T127. -/
abbrev Tid := Fin 128
/-- A g register field g0–g15 (R194). -/
abbrev Reg := Fin 16
/-- An index unit x0–x3 (R188). -/
abbrev Xn := Fin 4
/-- A channel port p0–p7 (R194). -/
abbrev Port := Fin 8
/-- A stand ST0–ST15. -/
abbrev Sid := Fin 16

/-- What the issue of one thread instruction carries beside its operands: the thread, the instruction's length in bytes
(R191: 1 to 12), the CHK mark (R196), whether the issue takes a donated slot (R157, R159), and the donated slots that the thread was
given since its last issue besides: further opportunities of a multi-slot instruction (R160) and issues killed behind a branch (R166);
`upset`: a 16-byte word of the program memories, counted from 0x0040_0000, that has become uncorrectable before it is read (R168, R221). -/
structure Iss where
  t : Tid
  len : Fin 13
  chk : Bool
  donated : Bool
  more : Fin 16 := 0
  upset : Option (Fin 65536) := none
  deriving DecidableEq, Repr

/-- Arithmetic of the forms that allow SAT or W64 (R198: never both). -/
inductive Arith where
  | wrap | sat | wide
  deriving DecidableEq, Repr

/-- Access size: W8, W16, a word, W64 (R196). -/
inductive Size where
  | b8 | b16 | b32 | b64
  deriving DecidableEq, Repr

/-- Address forms of loads and stores (R204). -/
inductive AddrForm where
  /-- [xn] -/
  | idx (xn : Xn)
  /-- [xn]+ -/
  | idxPost (xn : Xn)
  /-- [xn + gb] -/
  | idxReg (xn : Xn) (gb : Reg)
  /-- [ga + d], the displacement after widening and extension -/
  | disp (ga : Reg) (d : Word)
  deriving DecidableEq, Repr

/-- An operation of a shift engine with its operand fields (R286). -/
inductive SeOp where
  | br (cond : Fin 8) (tgt : Fin 32)
  /-- `pc`: the POL or CLR bit; `src`: SRC; `arg`: PIN, or MASK below 16 -/
  | wait (pc src : Bool) (arg : Fin 32)
  | emit (dest : Fin 4) (n1 : Fin 32) (refill : Bool)
  | sample (src : Fin 4) (n1 : Fin 32) (send : Bool)
  | pull (nb : Bool)
  | push (nb keep : Bool)
  | drive (oe : Bool) (value : Fin 128)
  | loadl (l : Bool) (value : Fin 128)
  | copy (dst src : Fin 8) (inv rev : Bool)
  | signal (out : Fin 4)
  | idle (n : Fin 256)
  deriving DecidableEq, Repr


/-- Who makes a register access or gives a command through a register (R22, R102, R453, R465, R497): a thread; the host, with
HP_SEC and HP_PRIV; a link bridge, with the attributes of its request; the recovery link; the debugger. -/
inductive Master where
  | thread (t : Tid)
  | host (sec priv : Bool)
  | link (sec priv : Bool)
  | recov
  | debugger
  deriving DecidableEq, Repr

/-- What a read of a guarded word or row gives (R250, R358): clean, corrected, or uncorrectable; for a pool row the bad word is
named by channel and place among the channel's words. `upset`: the row is clean, and after the check that word takes an error that
the next read of its row corrects. -/
inductive RowCheck where
  | clean
  | corrected
  | bad (c : Fin 4096) (k : Nat)
  | upset (c : Fin 4096) (k : Nat)
  deriving DecidableEq, Repr

/-- How the word read from an array differs from the word as written: code position 0–22 of R358 and the value added to its
symbol. A wrong row shows at positions 20 and 21. -/
abbrev WordErr := List (Fin 23 × Byte)

/-- One response of an SDI-12 line (R429): its text with CR LF, and whether a character had a parity or framing error or came
too late. -/
structure SdiRsp where
  text : List Byte
  bad : Bool := false
  deriving DecidableEq, Repr

/-- A frame of a canopy link (R441), its TYPE being named by the command: `credit` holds CRCH, CRW and CRM where CV = 1;
`good`: CRC, length, reserved bits and line are right. With `enc` the payload is cipher text, and `tag` follows it. -/
structure LinkFrame where
  dst : Word
  src : Word
  ttl : Nat := 64
  seq : Nat := 0
  ack : Nat := 0
  chan : Nat := 0
  credit : Option (Nat × Nat × Nat) := none
  enc : Bool := false
  retx : Bool := false
  insec : Bool := false
  rwin : Nat := 64
  session : Word := 0#32
  txcnt : Nat := 0
  payload : List Byte := []
  tag : List Byte := []
  good : Bool := true
  deriving DecidableEq, Repr

/-- What the recorder controller reads of a sector (R481, R482, R488): a read that ended with FLERR, or the bytes from its start (the
first unit, or all that its commit covers) and its last 64 bytes. -/
inductive SectRead where
  | flerr
  | bytes (head tail : List Byte)
  deriving DecidableEq, Repr

/-- The read of a sector: what it gave, and how many INDET answers its last read met before (R58). -/
structure SectorRead where
  read : SectRead
  retries : Fin 9 := 0
  deriving DecidableEq, Repr
/-- A firing of a route (R338): pulses of `more` further producers are taken in the same cycle and make one firing with it. -/
structure RouteFiring where
  route : Fin 256
  more : Fin 272 := 0
  deriving DecidableEq, Repr
/-- What the cipher engine answers (R63, R65): CP_RSTAT with CP_RLAST, and the result beats. -/
structure CipherAnswer where
  stat : Fin 8
  rdata : List Byte := []
  deriving DecidableEq, Repr

/-- What the serial NVM shows (R69, R70, R562): whether its SFDP signature is there, whether its table declares 1-4-4 and 1-1-4,
the quad-enable bit that QER names, the dummy count of 0xEB, the bytes that it presents from NVADDR on, and whether QER names the
status register that 0x35 reads. -/
structure NvRead where
  sfdp : Bool
  q144 : Bool
  q114 : Bool
  qe : Bool
  dummy : Byte
  bytes : List Byte
  q35 : Bool := false
  deriving DecidableEq, Repr

/-- The commands of the block, one per row of the table. -/
inductive Instr where
  -- thread instructions, ALU register forms (R215)
  | add (i : Iss) (m : Arith) (rd ra rb : Reg)
  | sub (i : Iss) (m : Arith) (rd ra rb : Reg)
  | and (i : Iss) (wide : Bool) (rd ra rb : Reg)
  | or (i : Iss) (wide : Bool) (rd ra rb : Reg)
  | xor (i : Iss) (wide : Bool) (rd ra rb : Reg)
  | shl (i : Iss) (m : Arith) (rd ra rb : Reg)
  | shr (i : Iss) (wide : Bool) (rd ra rb : Reg)
  | sra (i : Iss) (wide : Bool) (rd ra rb : Reg)
  | ror (i : Iss) (rd ra rb : Reg)
  | mul (i : Iss) (sat : Bool) (rd ra rb : Reg)
  | mulh (i : Iss) (rd ra rb : Reg)
  | mulhu (i : Iss) (rd ra rb : Reg)
  | div (i : Iss) (rd ra rb : Reg)
  | divu (i : Iss) (rd ra rb : Reg)
  | rem (i : Iss) (rd ra rb : Reg)
  | remu (i : Iss) (rd ra rb : Reg)
  | min (i : Iss) (rd ra rb : Reg)
  | max (i : Iss) (rd ra rb : Reg)
  | minu (i : Iss) (rd ra rb : Reg)
  | maxu (i : Iss) (rd ra rb : Reg)
  | sel (i : Iss) (rd ra rb rc : Reg)
  | mov (i : Iss) (wide : Bool) (rd ra : Reg)
  | not (i : Iss) (rd ra : Reg)
  | neg (i : Iss) (sat : Bool) (rd ra : Reg)
  | abs (i : Iss) (sat : Bool) (rd ra : Reg)
  | clz (i : Iss) (rd ra : Reg)
  | popc (i : Iss) (rd ra : Reg)
  | bswap (i : Iss) (rd ra : Reg)
  | andn (i : Iss) (rd ra rb : Reg)
  -- ALU immediate forms (R218); imm is the immediate after IMX widening and extension to 32 bits (R195)
  | addi (i : Iss) (m : Arith) (rd ra : Reg) (imm : Word)
  | rsubi (i : Iss) (sat : Bool) (rd ra : Reg) (imm : Word)
  | andi (i : Iss) (rd ra : Reg) (imm : Word)
  | ori (i : Iss) (rd ra : Reg) (imm : Word)
  | xori (i : Iss) (rd ra : Reg) (imm : Word)
  | shli (i : Iss) (sat : Bool) (rd ra : Reg) (k : Byte)
  | shri (i : Iss) (rd ra : Reg) (k : Byte)
  | srai (i : Iss) (rd ra : Reg) (k : Byte)
  | rori (i : Iss) (rd ra : Reg) (k : Byte)
  | muli (i : Iss) (sat : Bool) (rd ra : Reg) (imm : Word)
  | movi (i : Iss) (wide : Bool) (rd : Reg) (imm : Word)
  | mini (i : Iss) (rd ra : Reg) (imm : Word)
  | maxi (i : Iss) (rd ra : Reg) (imm : Word)
  -- compares to register (R219)
  | seq (i : Iss) (wide : Bool) (rd ra rb : Reg)
  | sne (i : Iss) (wide : Bool) (rd ra rb : Reg)
  | slt (i : Iss) (wide : Bool) (rd ra rb : Reg)
  | sltu (i : Iss) (wide : Bool) (rd ra rb : Reg)
  | sle (i : Iss) (rd ra rb : Reg)
  | sleu (i : Iss) (rd ra rb : Reg)
  | stst (i : Iss) (rd ra rb : Reg)
  | seqi (i : Iss) (rd ra : Reg) (imm : Word)
  | snei (i : Iss) (rd ra : Reg) (imm : Word)
  | slti (i : Iss) (rd ra : Reg) (imm : Word)
  | sltui (i : Iss) (rd ra : Reg) (imm : Word)
  | slei (i : Iss) (rd ra : Reg) (imm : Word)
  | sleui (i : Iss) (rd ra : Reg) (imm : Word)
  | sgti (i : Iss) (rd ra : Reg) (imm : Word)
  | sgtui (i : Iss) (rd ra : Reg) (imm : Word)
  | ststi (i : Iss) (rd ra : Reg) (imm : Word)
  -- loads and stores (R220), ATOM (R223)
  | ld (i : Iss) (sz : Size) (sx : Bool) (rd : Reg) (form : AddrForm)
  | lea (i : Iss) (rd ga : Reg) (d : Word)
  | ldpc (i : Iss) (sz : Size) (sx : Bool) (rd : Reg) (d : Word)
  | st (i : Iss) (sz : Size) (nt : Bool) (rs : Reg) (form : AddrForm)
  | fence (i : Iss)
  | atomSwap (i : Iss) (rs rd : Reg) (form : AddrForm)
  | atomAdd (i : Iss) (rs rd : Reg) (form : AddrForm)
  | atomAnd (i : Iss) (rs rd : Reg) (form : AddrForm)
  | atomOr (i : Iss) (rs rd : Reg) (form : AddrForm)
  | atomXor (i : Iss) (rs rd : Reg) (form : AddrForm)
  | atomMinu (i : Iss) (rs rd : Reg) (form : AddrForm)
  | atomMaxu (i : Iss) (rs rd : Reg) (form : AddrForm)
  | atomCas (i : Iss) (rs rd : Reg) (form : AddrForm)
  -- branches, jumps and calls (R226)
  | bz (i : Iss) (ga : Reg) (off : Word)
  | bnz (i : Iss) (ga : Reg) (off : Word)
  | br (i : Iss) (off : Word)
  | call (i : Iss) (rd : Reg) (off : Word)
  | jmp (i : Iss) (ga : Reg)
  | jal (i : Iss) (rd ra : Reg)
  | rett (i : Iss)
  | bdec (i : Iss) (ga : Reg) (off : Word)
  -- events of the engines (R155, R163, R169, R178, R183)
  | impreciseTrap (t : Tid)
  | loadDataReturn (t : Tid)
  | storeGrant (t : Tid)
  | lateAccessMark (t : Tid)
  | engineHoldStall (t : Tid)
  | twinRecordMatch (pair : Fin 64)
  | twinTimeout (pair : Fin 64)
  -- `bad`: an uncorrectable word of the ROM
  | romFetchReturn (t : Tid) (bad : Bool)
  -- channel operations (R228)
  | put (i : Iss) (wide : Bool) (p : Port) (rd rv gt : Reg)
  | pute (i : Iss) (wide : Bool) (p : Port) (rd rv gt : Reg)
  | chEnd (i : Iss) (p : Port) (rd gt : Reg)
  | get (i : Iss) (wide : Bool) (p : Port) (rd rv gt : Reg)
  | getn (i : Iss) (p : Port) (rd rv gt : Reg)
  | drop (i : Iss) (p : Port) (rd : Reg)
  | abt (i : Iss) (p : Port) (rd : Reg)
  | tput (i : Iss) (wide : Bool) (p : Port) (rd rv : Reg)
  | tpute (i : Iss) (wide : Bool) (p : Port) (rd rv : Reg)
  | tend (i : Iss) (p : Port) (rd : Reg)
  | tget (i : Iss) (wide : Bool) (p : Port) (rd rv : Reg)
  | tgetn (i : Iss) (p : Port) (rd rv : Reg)
  | chs (i : Iss) (p : Port) (rd : Reg)
  | channelResponse (t : Tid)
  | parkedOpRedecide (t : Tid)
  | channelTimeout (t : Tid)
  -- MAC and index-unit forms (R235)
  | mac (i : Iss) (sat : Bool) (rd ra rb : Reg)
  | msu (i : Iss) (sat : Bool) (rd ra rb : Reg)
  | xadv (i : Iss) (xn : Xn)
  | xlea (i : Iss) (rd : Reg) (xn : Xn)
  | xset (i : Iss) (xn : Xn) (field : Fin 8) (reg : Reg)
  | xget (i : Iss) (xn : Xn) (field : Fin 8) (reg : Reg)
  -- waits, block time, signatures and thread registers (R236)
  | waitev (i : Iss) (rd : Reg) (mask : Byte)
  | waitt (i : Iss) (rd : Reg) (tm : Byte)
  | yield (i : Iss)
  | sleep (i : Iss) (ga : Reg)
  | waitRelease (t : Tid)
  | btrd (i : Iss) (rd : Reg)
  | evclr (i : Iss) (mask : Byte)
  | sig (i : Iss) (h : BitVec 16)
  | mft (i : Iss) (rd : Reg) (tr : Fin 4)
  | mtt (i : Iss) (tr : Fin 4) (rs : Reg)
  | nop (i : Iss)
  -- bit-field forms (R243, R244)
  | ext (i : Iss) (rd ra : Reg) (desc : BitVec 16)
  | exts (i : Iss) (rd ra : Reg) (desc : BitVec 16)
  | ins (i : Iss) (rd ra : Reg) (desc : BitVec 16)
  | clrf (i : Iss) (rd ra : Reg) (desc : BitVec 16)
  | setf (i : Iss) (rd ra : Reg) (desc : BitVec 16)
  | bset (i : Iss) (rd ra : Reg) (k : Byte)
  | bclr (i : Iss) (rd ra : Reg) (k : Byte)
  | binv (i : Iss) (rd ra : Reg) (k : Byte)
  | btst (i : Iss) (rd ra : Reg) (k : Byte)
  | extr (i : Iss) (rd ra rb : Reg)
  | insr (i : Iss) (rd ra rb : Reg)
  | brev (i : Iss) (rd ra : Reg)
  | pack (i : Iss) (rd ra rb : Reg)
  | deftrap (i : Iss)
  | illegalInstruction (i : Iss)
  -- escape page (R245)
  | mull (i : Iss) (rd ra rb : Reg)
  | mullu (i : Iss) (rd ra rb : Reg)
  | macl (i : Iss) (rd ra rb : Reg)
  | maclu (i : Iss) (rd ra rb : Reg)
  | crcb (i : Iss) (rd ra : Reg) (sel : Byte)
  | crcw (i : Iss) (rd ra : Reg) (sel : Byte)
  | par (i : Iss) (rd ra : Reg)
  | maddi (i : Iss) (sat : Bool) (rd ra rb : Reg) (imm : Word)
  -- shift-engine instructions (R286): engine, operand fields, the TIMING field (R284) and, where the instruction reads pins,
  -- the levels of the 32 group pins as the delay lines delivered them (R278)
  | seBr (n : Fin 32) (cond : Fin 8) (tgt : Fin 32) (tm : Fin 16) (pins : Word)
  | seWait (n : Fin 32) (pc src : Bool) (arg : Fin 32) (tm : Fin 16) (pins : Word)
  | seEmit (n : Fin 32) (dest : Fin 4) (n1 : Fin 32) (refill : Bool) (tm : Fin 16)
  | seSample (n : Fin 32) (src : Fin 4) (n1 : Fin 32) (send : Bool) (tm : Fin 16) (pins : Word)
  | sePull (n : Fin 32) (nb : Bool) (tm : Fin 16)
  | sePush (n : Fin 32) (nb keep : Bool) (tm : Fin 16)
  | seDrive (n : Fin 32) (oe : Bool) (value : Fin 128) (tm : Fin 16)
  | seLoadl (n : Fin 32) (l : Bool) (value : Fin 128) (tm : Fin 16)
  | seCopy (n : Fin 32) (dst src : Fin 8) (inv rev : Bool) (tm : Fin 16) (pins : Word)
  | seSignal (n : Fin 32) (out : Fin 4) (tm : Fin 16)
  | seIdle (n : Fin 32) (cycles : Fin 256) (tm : Fin 16)
  | seIllegal (n : Fin 32)
  -- `cycles`: the SEK cycles the stall lasted (R282); `pins`: the levels delivered for the completing cycle
  | seStallComplete (n : Fin 32) (cycles : Nat) (pins : Word)
  | seEventIn (n : Fin 32) (i : Fin 4)
  | senCtlEnWrite (n : Fin 32) (en : Bool)
  | senProgWrite (n i : Fin 32) (w : BitVec 16)
  | senPcWrite (n pc : Fin 32)
  | senLWrite (n : Fin 32) (l : Bool) (v : Word)
  -- an observation of engine n, group pin i: d = k − TAP; `full`: it found the crossing queue full (R305)
  | calObservation (n i : Fin 32) (d : Int) (full : Bool)
  | tapMoveApply (n i : Fin 32)
  -- timers and block time (10_timers_and_block_time.md). An event that a running timer's count brings about names the
  -- timer; `cycles`: TCLK cycles that BT has counted since the command before
  | ppsEdge (cycles : Nat)
  | btHoldover
  | timerMatch (n : Fin 64)
  | timerWrap (n : Fin 64)
  | timerCapture (n : Fin 64)
  | timerCountEvent (n : Fin 64)
  | timerCompareInput (n : Fin 64)
  | tmnCapRead (n : Fin 64) (m : Master) (wide : Bool)
  | tmnCmpWrite (n : Fin 64) (v : Word)
  | tmnCtlWrite (n : Fin 64) (v : Word)
  | tmGstart (m : Master) (key : BitVec 16)
  | btOfshiWrite (v : Word)
  | btAdjWrite (v : Word)
  | hostPairLowRead (a : Addr)
  | hostPairHighRead (a : Addr)
  -- event routes (11_event_routes.md); a consumer by its number K
  | routeFire (f : RouteFiring)
  | eventDelivery (k : Fin 1281)
  | busyViewClear (k : Fin 1281)
  | evFire (m : Master) (key : BitVec 16) (r : Fin 256)
  -- `attn`: the write goes to EV_HATTN; else to EVr_STAT
  | evStatWrite (m : Master) (attn : Bool) (r : Fin 256) (v : Word)
  -- the channel pool, host mailboxes and the deadlock detector (08_message_channels.md)
  | deadlockSnapshot
  | deadlockAnalysisEnd
  | poolScrub (row : Fin 4096) (r : RowCheck)
  -- `recv`: the receiving unit endpoint of channel `c`; else the sending one
  | unitEndpointTransfer (c : Fin 4096) (recv : Bool)
  | mcHput (m : Master) (k : Fin 16) (v : Word)
  | mcHpute (m : Master) (k : Fin 16) (v : Word)
  | mcHget (m : Master) (k : Fin 16)
  | mcHstatEnd (m : Master) (k : Fin 16)
  | mcHstatAbt (m : Master) (k : Fin 16)
  | mcHstatDrop (m : Master) (k : Fin 16)
  -- the scratchpad (12_scratchpad_memory.md). `err`: what the read row shows (R360); `wait`: FCLK since the request reached its
  -- lane (R356); `lrow`: the logical row that the physical row under the pointer holds
  | spAccessGrant (bank : Fin 36) (err : WordErr) (wait : Nat)
  | scrubGrant (bank : Fin 32) (lrow : Fin 8192) (err : WordErr)
  | scrubLapEnd (us : Word)
  | lapAlarm (us : Word)
  | ttStart (m : Master) (key : BitVec 16) (bank : Fin 32) (region : Fin 128)
  | ttStop (m : Master) (key : BitVec 16)
  -- rows that failed the march, with the logical row each holds; the words whose restore did not read clean
  | testRegionDone (march : List (Fin 64 × Fin 8192 × List (BitVec 160))) (errs : List (Fin 64 × Fin 8192 × WordErr))
  | spWclr (m : Master) (key : Byte) (w : Fin 262144)
  | wordClearDone
  | retire (m : Master) (key : BitVec 16) (cmd : Fin 16) (page : Fin 1024)
  -- the words of the page whose copy read did not read clean
  | retireCopyDone (errs : List (Fin 256 × WordErr))
  -- field pins and the governor (13_field_pins_and_energy_governor.md); `us`: the surge's length
  | padClampPulse (n : Fin 192)
  | surgeEnd (z : Fin 8) (us : Nat)
  | pgnOutWrite (m : Master) (n : Fin 192) (v : Word)
  | governorWindowStart
  | laneRecordApply (n : Fin 32)
  -- built-in services (14_built_in_services.md), by instance. `chars`: characters received in turn, the flags those of the
  -- last; `overrun`: LOST of se1 since the last message
  | serviceInit (i : Fin 64)
  | uartSend (i : Fin 64)
  | uartData (i : Fin 64) (chars : List Byte) (parity framing brk overrun : Bool)
  | uartIdleFlush (i : Fin 64)
  -- a frame ended by t3.5; `bad`: a gap above t1.5, or a character with a parity or framing error
  | modbusFrame (i : Fin 64) (frame : List Byte) (bad : Bool)
  -- `late`: an OPERATE in the frame comes more than SBOTMO after its SELECT
  | dnp3LinkFrame (i : Fin 64) (frame : List Byte) (late : Bool)
  | dnp3Control (i : Fin 64)
  | dnp3ControlReply (i : Fin 64)
  | dnp3ApprspTimeout (i : Fin 64)
  | dnp3Event (i : Fin 64)
  | dnp3UnsolHold (i : Fin 64)
  | dnp3ConfirmTimeout (i : Fin 64)
  | dnp3SessionKeyExpiry (i : Fin 64)
  | dnp3LinkConfirmTimeout (i : Fin 64)
  -- `rs`: what the line answers to the attempts, in turn
  | sdi12Raw (i : Fin 64) (rs : List SdiRsp)
  | sdi12Measure (i : Fin 64) (rs : List SdiRsp)
  | sdi12ResponseTimeout (i : Fin 64)
  | spiXfer (i : Fin 64) (miso : List Byte)
  -- `nack`: the index of the byte the device refused; `busy`: SDA read low while released
  | i2cXfer (i : Fin 64) (nack : Option Byte) (busy : Bool) (read : List Byte)
  | i2cStretchTimeout (i : Fin 64)
  -- the period's samples (pin 0, pin 1), oldest first; the sample words lost in it
  | pulseReport (i : Fin 64) (samples : List (Bool × Bool)) (lost : Nat)
  | bridgeRead (i : Fin 64)
  | bridgeWrite (i : Fin 64)
  | bridgePing (i : Fin 64)
  -- canopy links (15_canopy_links.md): a frame received on link n
  | helloFrame (n : Fin 4) (f : LinkFrame)
  | ackFrame (n : Fin 4) (f : LinkFrame)
  | cdataFrame (n : Fin 4) (f : LinkFrame)
  | creditFrame (n : Fin 4) (f : LinkFrame)
  | syncFrame (n : Fin 4) (f : LinkFrame)
  | grantFrame (n : Fin 4) (f : LinkFrame)
  | bdataFrame (n : Fin 4) (f : LinkFrame)
  | freezeFrame (n : Fin 4) (f : LinkFrame)
  | timeFrame (n : Fin 4) (f : LinkFrame)
  | recovRead (n : Fin 4) (f : LinkFrame)
  | recovWrite (n : Fin 4) (f : LinkFrame)
  | recovStream (n : Fin 4) (f : LinkFrame)
  | recovImage (n : Fin 4) (f : LinkFrame)
  | recovAbort (n : Fin 4) (f : LinkFrame)
  | recovResponse (n : Fin 4) (f : LinkFrame)
  | helloPeriod (n : Fin 4)
  | linkKeepalive (n : Fin 4)
  | linkSilenceTimeout (n : Fin 4)
  | retransmitTimeout (n : Fin 4)
  | ackDelay (n : Fin 4)
  | linkCreditReturn (c : Fin 4096)
  | creditTimeout (c : Fin 4096)
  | staleFrameDrop (n : Fin 4)
  | syncWaitTimeout (c : Fin 4096)
  | timePeriod (n : Fin 4)
  | freezeAckWait
  | sessionRenewal (n : Fin 4)
  | lkFrzcmd (m : Master) (key : BitVec 16)
  | rtxSend (m : Master) (n : Fin 4) (len : Fin 512)
  -- `inFrame`: the lock fell during a frame
  | linkLockFall (n : Fin 4) (inFrame : Bool)
  -- the recorder (16_tree_ring_recorder.md). `bad`: objects that the controller finds uncorrectable while it applies the update
  | recorderUpdateApply (bad : List (Fin 256))
  | erCursorLoad (index : Byte) (minsev : Fin 8)
  | erCursorNext (index : Byte) (minsev : Fin 8)
  | erClrctl (v : Word)
  | recorderClearPass
  | erCmctl (m : Master) (key : BitVec 16)
  | periodicCommit
  | commit
  | operatingSecond
  | recorderRestore (sects : List SectorRead)
  -- the flash port (02_ports_and_integration.md): what the chip's controller answers
  | flashReadResponse (stat : Fin 4) (data : List Byte)
  | flashIndetRetry
  | flashProgramErase
  | flashStatusPoll (st : Word)
  | flashPeTimeout (pulses : Byte)
  -- resets and start-up (03_clocks_resets_and_stands.md, 04_startup_and_configuration_image.md)
  | coldReset
  | pwrOkFall
  | aonOkFall
  | warmReset
  -- `fuses`: words that production has burned, ORed into the array before it is read
  | fuseLoad (fuses : List (Fin 512 × Word))
  -- `recBad`: on a warm reset, whether a recorder word was uncorrectable
  | memoryFill (recBad : Bool)
  | imageLoad (nv : NvRead)
  | imageCommit
  | delayLineLock
  | dlockTimeout
  -- `us`: microseconds since P1 began; `stopped`: shift engines whose clock is stopped
  | release (us : Word) (stopped : List (Fin 32))
  | testEntry
  | burngen (m : Master) (key : BitVec 16)
  | arbraise (m : Master) (key : BitVec 16)
  | lock1 (m : Master) (key : BitVec 16)
  | lock2 (m : Master) (key : BitVec 16)
  | zoneburn (m : Master) (key : BitVec 16) (zone : Fin 8)
  | testdis (m : Master) (key : BitVec 16)
  -- `missed`: bits of the step that did not burn
  | otpBurnStepDone (missed : Word)
  | reload (m : Master) (key : BitVec 16) (auto : Bool)
  | srcload (m : Master) (key : BitVec 16)
  | stream (m : Master) (key : BitVec 16)
  | imgAbort (m : Master) (key : BitVec 16)
  | bcImginWrite (m : Master) (v : Word)
  | streamIdleTimeout
  | imageAccept
  | threadRestart (t : Tid)
  | standRestart (n : Fin 16)
  | standRestore (n : Fin 16)
  | standRelease (n : Fin 16) (stopped : List (Fin 32))
  | restart (m : Master) (n : Fin 16) (key : BitVec 16)
  | unpark (m : Master) (n : Fin 16) (key : BitVec 16)
  | wdkick (m : Master) (n : Fin 16) (key : BitVec 16)
  | watchdogExpiry (n : Fin 16)
  | stormDecay (n : Fin 16)
  -- security (17_protection_and_alarms.md); `stays`: the input stays high after the pulse
  | alarmInput (k : Fin 8) (stays : Bool)
  | alarmRearm (k : Fin 8)
  -- group, setting within the group, and the bits in which the copies differ
  | shadowMismatch (g : Fin 8) (i : Fin 256) (flip : Word)
  | alarmResponse
  | zeroise
  | zeroiseClear
  | zeroiseRestore (stopped : List (Fin 32))
  | lk2FreezeReset
  | newch (key : BitVec 16)
  | unlock (key : BitVec 16)
  | relock (key : BitVec 16)
  | debugLockoutEnd
  | secAlstatClear (m : Master) (mask : Byte)
  -- debug access and freeze (18_debug_and_freeze.md)
  | bypass
  | idcode
  | dbgacc (we : Bool) (a : Addr) (v : Word)
  | frread
  | tapReset
  | haltt (t : Tid)
  | resumet (t : Tid)
  | stept (t : Tid)
  | treset (t : Tid)
  | halts (n : Fin 16)
  | resumes (n : Fin 16)
  | dbgAbort (t : Tid) (p : Port)
  | dbgFreeze
  -- `high`: FREEZE_N is high
  | resume (high : Bool)
  | dbgTregAccess (we : Bool) (r : Fin 41) (v : Word)
  | dbgSholdWrite (v : Word)
  | freezeRequest
  -- SMCLK cycles since the request
  | freezeComplete (cycles : Nat)
  -- domains whose clock is stopped
  | freezeAckTimeout (stopped : List (Fin 60))
  | freezeAlarm
  | dbgFrselWrite (v : Word)
  | dbgFrdataRead
  | registerWrite (m : Master) (a : Addr) (v : Word)
  | freezeNLow
  | stoppedClockStart (d : Fin 60)
  -- the host, cipher and TRNG ports (02_ports_and_integration.md)
  | hostRequest (we : Bool) (a : Addr) (size : Fin 4) (v : Word) (sec priv : Bool)
  | hostResponse
  | cipherRequest
  | cipherResult (a : CipherAnswer)
  | cipherTimeout
  | cipherResumeReissue
  | trngWord (w : Word)
  | trngWaitTimeout
  | trHealthFail
  deriving DecidableEq, Repr

end Sys2Proof
end

