-- ==== Sys2Proof/Decode.lean ====
section
/-! DEFINITION. The command table gives no row bits. Beside that: the bytes of a thread instruction (R191–R203, R208, R209) and the
words of a shift engine's program (R284, R286, R288) as the commands they spell. -/
namespace Sys2Proof
open Machine

/-- The command that a table word spells: no row of the table gives bits. -/
def decodeTableWord (_nbits _w : Nat) : Option Instr := none

/-! ### Thread instructions: prefixes (R196, R197) -/

/-- The prefixes of an instruction, and how many bytes they are. -/
structure Pre where
  size : Option Size := none
  sx : Bool := false
  imx : Nat := 0
  sat : Bool := false
  chk : Bool := false
  nt : Bool := false
  atom : Bool := false
  count : Nat := 0
  deriving DecidableEq, Repr

/-- One prefix byte more; none where it is not a prefix, or R197 forbids it. -/
def Pre.add (p : Pre) (b : Nat) : Option Pre :=
  let q := { p with count := p.count + 1 }
  match b with
  | 0xF0 => if p.size.isNone then some { q with size := some .b8 } else none
  | 0xF1 => if p.size.isNone then some { q with size := some .b16 } else none
  | 0xF2 => if p.size.isNone then some { q with size := some .b64 } else none
  | 0xF3 => if p.sx then none else some { q with sx := true }
  | 0xF4 => if p.imx < 3 then some { q with imx := p.imx + 1 } else none
  | 0xF5 => if p.sat then none else some { q with sat := true }
  | 0xF6 => if p.chk then none else some { q with chk := true }
  | 0xF7 => if p.nt then none else some { q with nt := true }
  | 0xF8 => if p.atom then none else some { q with atom := true }
  | _ => none

/-- The prefixes in front of an instruction: at most four (R197); none where they are illegal. -/
def prefixes : Nat → Pre → List Byte → Option (Pre × List Byte)
  | _, _, [] => none
  | n, p, b :: r =>
    if b.toNat < 0xF0 ∨ b.toNat = 0xFF then some (p, b :: r)
    else match n with
      | 0 => none
      | k + 1 => (p.add b.toNat).bind (fun q => prefixes k q r)

/-! ### Formats and fields (R193–R195) -/

/-- Instruction formats. -/
inductive Fmt where
  | n | g | d | r | rr | r3 | rs | rz | rk | rf | rrs | ds | dk | bs | s | k | h | mx | mg | md | c | xf | xa | tf
  deriving DecidableEq, Repr

/-- Operand bytes of a format. -/
def Fmt.opBytes : Fmt → Nat
  | .n | .s | .k | .h => 0
  | .rr | .r3 | .rrs | .c => 2
  | _ => 1
/-- Immediate bytes of a format before widening. -/
def Fmt.immBytes : Fmt → Nat
  | .rs | .rz | .rk | .rrs | .ds | .dk | .bs | .s | .k | .md => 1
  | .rf | .h => 2
  | _ => 0
/-- The formats that allow IMX. -/
def Fmt.imxOk : Fmt → Bool
  | .rs | .rz | .rrs | .ds | .bs | .s | .md => true
  | _ => false

/-- The fields of an instruction: the four nibbles of its operand bytes, the atomic byte, the immediate bytes. -/
structure Fields where
  a : Nat
  b : Nat
  c : Nat
  d : Nat
  atom : Nat
  imm : List Byte
  pre : Pre
  xn : Nat
  deriving DecidableEq, Repr

/-- Fields that a format shows as 0 or limits are so (R193, R202). -/
def Fmt.zeros (m : Fmt) (f : Fields) : Bool :=
  match m with
  | .g | .bs => decide (f.a = 0)
  | .d | .ds | .dk | .mx => decide (f.b = 0)
  | .rr | .rrs => decide (f.d = 0)
  | .c | .xf => decide (f.b < 8)
  | .xa | .tf => decide (f.b < 4)
  | _ => true

/-- A register field. -/
def regF (v : Nat) : Reg := Fin.ofNat 16 v
/-- Sign-extended immediate (R195). -/
def Fields.s (f : Fields) : Word := sext (8 * f.imm.length) (leNat f.imm)
/-- Zero-extended immediate. -/
def Fields.z (f : Fields) : Word := BitVec.ofNat 32 (leNat f.imm)
/-- The byte constant. -/
def Fields.k (f : Fields) : Byte := BitVec.ofNat 8 (leNat f.imm)
/-- The 16-bit constant. -/
def Fields.h (f : Fields) : BitVec 16 := BitVec.ofNat 16 (leNat f.imm)
/-- W64. -/
def Fields.w (f : Fields) : Bool := decide (f.pre.size = some .b64)
/-- Arithmetic: SAT, W64 or neither (R198). -/
def Fields.ar (f : Fields) : Arith := if f.pre.sat then .sat else if f.w then .wide else .wrap
/-- The access size. -/
def Fields.sz (f : Fields) : Size := f.pre.size.getD .b32

/-- A row of the opcode maps: the format, the prefixes that R198 allows (W64; W8 and W16; SAT; NT and ATOM), index unit, and the command. -/
structure Row where
  fmt : Fmt
  w : Bool := false
  h : Bool := false
  s : Bool := false
  st : Bool := false
  build : Fields → Iss → Option Instr

/-! ### Groups of opcodes (R200, R201) -/

/-- A register form with W64, SAT or neither. -/
def rowAlu (w s : Bool) (mk : Fields → Iss → Reg → Reg → Reg → Instr) : Option Row :=
  some { fmt := .rr, w := w, s := s, build := fun f i => some (mk f i (regF f.a) (regF f.b) (regF f.c)) }
/-- A form with one source. -/
def rowOne (w s : Bool) (mk : Fields → Iss → Reg → Reg → Instr) : Option Row :=
  some { fmt := .r, w := w, s := s, build := fun f i => some (mk f i (regF f.a) (regF f.b)) }
/-- A form with an immediate. -/
def rowImm (m : Fmt) (w s : Bool) (mk : Fields → Iss → Reg → Reg → Instr) : Option Row :=
  some { fmt := m, w := w, s := s, build := fun f i => some (mk f i (regF f.a) (regF f.b)) }
/-- A form without operands. -/
def rowNone (mk : Iss → Instr) : Option Row := some { fmt := .n, build := fun _ i => some (mk i) }

/-- 0x00–0x1F. -/
def rowsReg (o : Nat) : Option Row :=
  match o with
  | 0x01 => rowAlu true true (fun f i d a b => .add i f.ar d a b)
  | 0x02 => rowAlu true true (fun f i d a b => .sub i f.ar d a b)
  | 0x03 => rowAlu true false (fun f i d a b => .and i f.w d a b)
  | 0x04 => rowAlu true false (fun f i d a b => .or i f.w d a b)
  | 0x05 => rowAlu true false (fun f i d a b => .xor i f.w d a b)
  | 0x06 => rowAlu true true (fun f i d a b => .shl i f.ar d a b)
  | 0x07 => rowAlu true false (fun f i d a b => .shr i f.w d a b)
  | 0x08 => rowAlu true false (fun f i d a b => .sra i f.w d a b)
  | 0x09 => rowAlu false false (fun _ i d a b => .ror i d a b)
  | 0x0A => rowAlu false true (fun f i d a b => .mul i f.pre.sat d a b)
  | 0x0B => rowAlu false false (fun _ i d a b => .mulh i d a b)
  | 0x0C => rowAlu false false (fun _ i d a b => .mulhu i d a b)
  | 0x0D => rowAlu false false (fun _ i d a b => .div i d a b)
  | 0x0E => rowAlu false false (fun _ i d a b => .divu i d a b)
  | 0x0F => rowAlu false false (fun _ i d a b => .rem i d a b)
  | 0x10 => rowAlu false false (fun _ i d a b => .remu i d a b)
  | 0x11 => rowAlu false false (fun _ i d a b => .min i d a b)
  | 0x12 => rowAlu false false (fun _ i d a b => .max i d a b)
  | 0x13 => rowAlu false false (fun _ i d a b => .minu i d a b)
  | 0x14 => rowAlu false false (fun _ i d a b => .maxu i d a b)
  | 0x15 => some { fmt := .r3, build := fun f i => some (.sel i (regF f.a) (regF f.b) (regF f.c) (regF f.d)) }
  | 0x16 => rowOne true false (fun f i d a => .mov i f.w d a)
  | 0x17 => rowOne false false (fun _ i d a => .not i d a)
  | 0x18 => rowOne false true (fun f i d a => .neg i f.pre.sat d a)
  | 0x19 => rowOne false true (fun f i d a => .abs i f.pre.sat d a)
  | 0x1A => rowOne false false (fun _ i d a => .clz i d a)
  | 0x1B => rowOne false false (fun _ i d a => .popc i d a)
  | 0x1C => rowOne false false (fun _ i d a => .bswap i d a)
  | 0x1D => rowAlu false false (fun _ i d a b => .andn i d a b)
  | _ => none

/-- 0x20–0x3F. -/
def rowsImm (o : Nat) : Option Row :=
  match o with
  | 0x21 => rowImm .rs true true (fun f i d a => .addi i f.ar d a f.s)
  | 0x22 => rowImm .rs false true (fun f i d a => .rsubi i f.pre.sat d a f.s)
  | 0x23 => rowImm .rz false false (fun f i d a => .andi i d a f.z)
  | 0x24 => rowImm .rz false false (fun f i d a => .ori i d a f.z)
  | 0x25 => rowImm .rz false false (fun f i d a => .xori i d a f.z)
  | 0x26 => rowImm .rk false true (fun f i d a => .shli i f.pre.sat d a f.k)
  | 0x27 => rowImm .rk false false (fun f i d a => .shri i d a f.k)
  | 0x28 => rowImm .rk false false (fun f i d a => .srai i d a f.k)
  | 0x29 => rowImm .rk false false (fun f i d a => .rori i d a f.k)
  | 0x2A => rowImm .rs false true (fun f i d a => .muli i f.pre.sat d a f.s)
  | 0x30 => rowImm .ds true false (fun f i d _ => .movi i f.w d f.s)
  | 0x31 => rowImm .rs false false (fun f i d a => .mini i d a f.s)
  | 0x32 => rowImm .rs false false (fun f i d a => .maxi i d a f.s)
  | _ => none

/-- 0x40–0x5F. -/
def rowsCmp (o : Nat) : Option Row :=
  match o with
  | 0x41 => rowAlu true false (fun f i d a b => .seq i f.w d a b)
  | 0x42 => rowAlu true false (fun f i d a b => .sne i f.w d a b)
  | 0x43 => rowAlu true false (fun f i d a b => .slt i f.w d a b)
  | 0x44 => rowAlu true false (fun f i d a b => .sltu i f.w d a b)
  | 0x45 => rowAlu false false (fun _ i d a b => .sle i d a b)
  | 0x46 => rowAlu false false (fun _ i d a b => .sleu i d a b)
  | 0x47 => rowAlu false false (fun _ i d a b => .stst i d a b)
  | 0x51 => rowImm .rs false false (fun f i d a => .seqi i d a f.s)
  | 0x52 => rowImm .rs false false (fun f i d a => .snei i d a f.s)
  | 0x53 => rowImm .rs false false (fun f i d a => .slti i d a f.s)
  | 0x54 => rowImm .rs false false (fun f i d a => .sltui i d a f.s)
  | 0x55 => rowImm .rs false false (fun f i d a => .slei i d a f.s)
  | 0x56 => rowImm .rs false false (fun f i d a => .sleui i d a f.s)
  | 0x57 => rowImm .rs false false (fun f i d a => .sgti i d a f.s)
  | 0x58 => rowImm .rs false false (fun f i d a => .sgtui i d a f.s)
  | 0x59 => rowImm .rz false false (fun f i d a => .ststi i d a f.z)
  | _ => none

/-- A load. -/
def rowLd (m : Fmt) (f : Fields → AddrForm) : Option Row :=
  some { fmt := m, w := true, h := true, build := fun x i => some (.ld i x.sz x.pre.sx (regF x.a) (f x)) }
/-- A store or an ATOM (R203). -/
def rowSt (m : Fmt) (f : Fields → AddrForm) : Option Row :=
  some { fmt := m, w := true, h := true, st := true, build := fun x i =>
    if !x.pre.atom then some (.st i x.sz x.pre.nt (regF x.a) (f x))
    else
      let rd := regF (x.atom / 16)
      match x.atom % 16 with
      | 0 => some (.atomSwap i (regF x.a) rd (f x))
      | 1 => some (.atomAdd i (regF x.a) rd (f x))
      | 2 => some (.atomAnd i (regF x.a) rd (f x))
      | 3 => some (.atomOr i (regF x.a) rd (f x))
      | 4 => some (.atomXor i (regF x.a) rd (f x))
      | 5 => some (.atomMinu i (regF x.a) rd (f x))
      | 6 => some (.atomMaxu i (regF x.a) rd (f x))
      | 7 => some (.atomCas i (regF x.a) rd (f x))
      | _ => none }
/-- The index unit of an opcode. -/
def Fields.x (f : Fields) : Xn := Fin.ofNat 4 f.xn

/-- 0x60–0x7F. -/
def rowsMem (o : Nat) : Option Row :=
  if o < 0x64 then rowLd .mx (fun f => .idx f.x)
  else if o < 0x68 then rowLd .mx (fun f => .idxPost f.x)
  else if o < 0x6C then rowLd .mg (fun f => .idxReg f.x (regF f.b))
  else if o = 0x6C then rowLd .md (fun f => .disp (regF f.b) f.s)
  else if o = 0x6D then some { fmt := .md, build := fun f i => some (.lea i (regF f.a) (regF f.b) f.s) }
  else if o = 0x6E then some { fmt := .ds, w := true, h := true, build := fun f i => some (.ldpc i f.sz f.pre.sx (regF f.a) f.s) }
  else if o < 0x70 then none
  else if o < 0x74 then rowSt .mx (fun f => .idx f.x)
  else if o < 0x78 then rowSt .mx (fun f => .idxPost f.x)
  else if o < 0x7C then rowSt .mg (fun f => .idxReg f.x (regF f.b))
  else if o = 0x7C then rowSt .md (fun f => .disp (regF f.b) f.s)
  else if o = 0x7D then rowNone .fence
  else none

/-- 0x80–0x9F. -/
def rowsBranch (o : Nat) : Option Row :=
  match o with
  | 0x80 => some { fmt := .bs, build := fun f i => some (.bz i (regF f.b) f.s) }
  | 0x81 => some { fmt := .bs, build := fun f i => some (.bnz i (regF f.b) f.s) }
  | 0x82 => some { fmt := .s, build := fun f i => some (.br i f.s) }
  | 0x83 => some { fmt := .ds, build := fun f i => some (.call i (regF f.a) f.s) }
  | 0x84 => some { fmt := .g, build := fun f i => some (.jmp i (regF f.b)) }
  | 0x85 => rowOne false false (fun _ i d a => .jal i d a)
  | 0x86 => rowNone .rett
  | 0x87 => some { fmt := .bs, build := fun f i => some (.bdec i (regF f.b) f.s) }
  | _ => none

/-- A channel form: `v` and `g` say whether rv and gt may be other than 0 (R202). -/
def rowCh (w v g : Bool) (mk : Fields → Iss → Port → Reg → Reg → Reg → Instr) : Option Row :=
  some { fmt := .c, w := w, build := fun f i =>
    if (!v && decide (f.c ≠ 0)) || (!g && decide (f.d ≠ 0)) then none
    else some (mk f i (Fin.ofNat 8 f.b) (regF f.a) (regF f.c) (regF f.d)) }

/-- 0xA0–0xBF. -/
def rowsChan (o : Nat) : Option Row :=
  match o with
  | 0xA0 => rowCh true true true (fun f i p d v g => .put i f.w p d v g)
  | 0xA1 => rowCh true true true (fun f i p d v g => .pute i f.w p d v g)
  | 0xA2 => rowCh false false true (fun _ i p d _ g => .chEnd i p d g)
  | 0xA3 => rowCh true true true (fun f i p d v g => .get i f.w p d v g)
  | 0xA4 => rowCh false true true (fun _ i p d v g => .getn i p d v g)
  | 0xA5 => rowCh false false false (fun _ i p d _ _ => .drop i p d)
  | 0xA6 => rowCh false false false (fun _ i p d _ _ => .abt i p d)
  | 0xA8 => rowCh true true false (fun f i p d v _ => .tput i f.w p d v)
  | 0xA9 => rowCh true true false (fun f i p d v _ => .tpute i f.w p d v)
  | 0xAA => rowCh false false false (fun _ i p d _ _ => .tend i p d)
  | 0xAB => rowCh true true false (fun f i p d v _ => .tget i f.w p d v)
  | 0xAC => rowCh false true false (fun _ i p d v _ => .tgetn i p d v)
  | 0xB0 => rowCh false false false (fun _ i p d _ _ => .chs i p d)
  | _ => none

/-- 0xC0–0xDF. -/
def rowsMisc (o : Nat) : Option Row :=
  match o with
  | 0xC0 => rowAlu false true (fun f i d a b => .mac i f.pre.sat d a b)
  | 0xC1 => rowAlu false true (fun f i d a b => .msu i f.pre.sat d a b)
  | 0xC2 => some { fmt := .xa, build := fun f i => if f.a = 0 then some (.xadv i (Fin.ofNat 4 f.b)) else none }
  | 0xC3 => some { fmt := .xa, build := fun f i => some (.xlea i (regF f.a) (Fin.ofNat 4 f.b)) }
  | 0xC4 | 0xC5 | 0xC6 | 0xC7 =>
    some { fmt := .xf, build := fun f i => if f.b < 5 then some (.xset i f.x (Fin.ofNat 8 f.b) (regF f.a)) else none }
  | 0xC8 | 0xC9 | 0xCA | 0xCB =>
    some { fmt := .xf, build := fun f i => if f.b < 5 then some (.xget i f.x (Fin.ofNat 8 f.b) (regF f.a)) else none }
  | 0xD0 => some { fmt := .dk, build := fun f i => if f.k = 0#8 then none else some (.waitev i (regF f.a) f.k) }
  | 0xD1 => some { fmt := .dk, build := fun f i => if f.k.toNat < 64 then some (.waitt i (regF f.a) f.k) else none }
  | 0xD2 => rowNone .yield
  | 0xD3 => some { fmt := .g, build := fun f i => some (.sleep i (regF f.b)) }
  | 0xD4 => some { fmt := .d, build := fun f i => some (.btrd i (regF f.a)) }
  | 0xD5 => some { fmt := .k, build := fun f i => some (.evclr i f.k) }
  | 0xD6 => some { fmt := .h, build := fun f i => some (.sig i f.h) }
  | 0xD8 => some { fmt := .tf, build := fun f i => some (.mft i (regF f.a) (Fin.ofNat 4 f.b)) }
  | 0xD9 => some { fmt := .tf, build := fun f i => some (.mtt i (Fin.ofNat 4 f.b) (regF f.a)) }
  | 0xDA => rowNone .nop
  | _ => none

/-- A field descriptor in range (R202). -/
def descIn (d : Nat) : Bool := decide (d < 1024) && decide (d % 32 + d / 32 + 1 ≤ 32)
/-- A bit-field form with a descriptor. -/
def rowField (mk : Iss → Reg → Reg → BitVec 16 → Instr) : Option Row :=
  some { fmt := .rf, build := fun f i => if descIn (leNat f.imm) then some (mk i (regF f.a) (regF f.b) f.h) else none }
/-- A form with a constant in a range. -/
def rowConst (n : Nat) (mk : Iss → Reg → Reg → Byte → Instr) : Option Row :=
  some { fmt := .rk, build := fun f i => if f.k.toNat < n then some (mk i (regF f.a) (regF f.b) f.k) else none }

/-- 0xE0–0xEF. -/
def rowsField (o : Nat) : Option Row :=
  match o with
  | 0xE0 => rowField .ext
  | 0xE1 => rowField .exts
  | 0xE2 => rowField .ins
  | 0xE3 => rowField .clrf
  | 0xE4 => rowField .setf
  | 0xE5 => rowConst 32 .bset
  | 0xE6 => rowConst 32 .bclr
  | 0xE7 => rowConst 32 .binv
  | 0xE8 => rowConst 32 .btst
  | 0xE9 => rowAlu false false (fun _ i d a b => .extr i d a b)
  | 0xEA => rowAlu false false (fun _ i d a b => .insr i d a b)
  | 0xEB => rowOne false false (fun _ i d a => .brev i d a)
  | 0xEC => rowAlu false false (fun _ i d a b => .pack i d a b)
  | 0xEF => rowNone .deftrap
  | _ => none

/-- The escape page (R201). -/
def rowsEsc (o : Nat) : Option Row :=
  match o with
  | 0x01 => rowAlu false false (fun _ i d a b => .mull i d a b)
  | 0x02 => rowAlu false false (fun _ i d a b => .mullu i d a b)
  | 0x03 => rowAlu false false (fun _ i d a b => .macl i d a b)
  | 0x04 => rowAlu false false (fun _ i d a b => .maclu i d a b)
  | 0x08 => rowConst 4 .crcb
  | 0x09 => rowConst 4 .crcw
  | 0x10 => rowOne false false (fun _ i d a => .par i d a)
  | 0x20 => some { fmt := .rrs, s := true, build := fun f i => some (.maddi i f.pre.sat (regF f.a) (regF f.b) (regF f.c) f.s) }
  | _ => none

/-- The row of an opcode (R200, R201). -/
def rowOf (esc : Bool) (o : Nat) : Option Row :=
  if esc then rowsEsc o
  else if o < 0x20 then rowsReg o
  else if o < 0x40 then rowsImm o
  else if o < 0x60 then rowsCmp o
  else if o < 0x80 then rowsMem o
  else if o < 0xA0 then rowsBranch o
  else if o < 0xC0 then rowsChan o
  else if o < 0xE0 then rowsMisc o
  else rowsField o

/-- The prefixes stand on the opcode and together as R198 allows. -/
def preOk (p : Pre) (r : Row) : Bool :=
  let ld := r.h && !r.st
  (match p.size with
   | none => true
   | some .b64 => r.w
   | some _ => r.h) &&
  (!p.sx || (ld && (decide (p.size = some .b8) || decide (p.size = some .b16)))) &&
  (decide (p.imx = 0) || r.fmt.imxOk) &&
  (!p.sat || (r.s && decide (p.size ≠ some .b64))) &&
  (!p.nt || (r.st && !p.atom)) && (!p.atom || (r.st && p.size.isNone))

/-- The bytes of the instruction are there. -/
def shortOk (b : List Byte) (n : Nat) : Bool := decide (n ≤ b.length)

/-- An instruction past its prefixes: opcode `o`, and the bytes behind it (R191). -/
def decodeRow (t : Tid) (don : Bool) (p : Pre) (esc : Bool) (o : Nat) (b : List Byte) : Option Instr :=
  match rowOf esc o with
  | none => none
  | some r =>
    let n := r.fmt.opBytes
    let at_ := b2n p.atom
    let m := if r.fmt.immBytes = 0 then 0 else r.fmt.immBytes + p.imx
    let byte (k : Nat) : Nat := (b.getD k 0#8).toNat
    let f : Fields := {
      a := byte 0 / 16, b := byte 0 % 16, c := byte 1 / 16, d := byte 1 % 16
      atom := byte n, imm := (b.drop (n + at_)).take m, pre := p, xn := o % 4 }
    let i : Iss := { t := t, len := Fin.ofNat 13 (p.count + b2n esc + 1 + n + at_ + m), chk := p.chk, donated := don }
    if preOk p r && r.fmt.zeros f && shortOk b (n + at_ + m) then r.build f i else none

/-- The instruction that bytes spell to thread `t` (R191–R209): an illegal encoding is ILLEGAL_INSTRUCTION, of length 1, so that it is
ILLEGAL also near the memory's end (DESIGN CHOICE, notes/assumptions/72.md). `don`: the issue takes a donated slot. -/
def decodeThread (t : Tid) (don : Bool) (b : List Byte) : Instr :=
  let bad : Instr := .illegalInstruction { t := t, len := 1, chk := false, donated := don }
  match prefixes 4 {} b with
  | some (p, o :: r) =>
    (if o = 0xFF#8 then
      match r with
      | e :: q => (decodeRow t don p true e.toNat q).getD bad
      | [] => bad
    else (decodeRow t don p false o.toNat r).getD bad)
  | _ => bad

/-! ### Shift-engine words (R284, R286, R288) -/

/-- The operation of a word, and its TIMING field; none where it is illegal. -/
def decodeSe (w : Nat) : Option (SeOp × Fin 16) :=
  let f (lo n : Nat) : Nat := w / 2 ^ lo % 2 ^ n
  let bit (k : Nat) : Bool := decide (f k 1 = 1)
  let op : Option SeOp := match f 12 4 with
    | 1 => some (.br (Fin.ofNat 8 (f 9 3)) (Fin.ofNat 32 (f 4 5)))
    | 2 => if bit 4 ∨ (bit 10 ∧ (bit 9 ∨ f 5 4 = 0)) then none else some (.wait (bit 11) (bit 10) (Fin.ofNat 32 (f 5 5)))
    | 3 => some (.emit (Fin.ofNat 4 (f 10 2)) (Fin.ofNat 32 (f 5 5)) (bit 4))
    | 4 => some (.sample (Fin.ofNat 4 (f 10 2)) (Fin.ofNat 32 (f 5 5)) (bit 4))
    | 5 => if f 4 7 = 0 then some (.pull (bit 11)) else none
    | 6 => if f 4 6 = 0 then some (.push (bit 11) (bit 10)) else none
    | 7 => some (.drive (bit 11) (Fin.ofNat 128 (f 4 7)))
    | 8 => some (.loadl (bit 11) (Fin.ofNat 128 (f 4 7)))
    | 9 => some (.copy (Fin.ofNat 8 (f 9 3)) (Fin.ofNat 8 (f 6 3)) (bit 5) (bit 4))
    | 10 => if f 4 6 = 0 then some (.signal (Fin.ofNat 4 (f 10 2))) else none
    | 11 => some (.idle (Fin.ofNat 256 (f 4 8)))
    | _ => none
  op.map (fun o => (o, Fin.ofNat 16 (f 0 4)))

/-- The command by which engine `n` issues a word, with the pin levels it reads. -/
def seCommand (n : Fin 32) (w : Nat) (pins : Word) : Instr :=
  match decodeSe w with
  | none => .seIllegal n
  | some (.br c t, tm) => .seBr n c t tm pins
  | some (.wait p s a, tm) => .seWait n p s a tm pins
  | some (.emit d k r, tm) => .seEmit n d k r tm
  | some (.sample c k s, tm) => .seSample n c k s tm pins
  | some (.pull b, tm) => .sePull n b tm
  | some (.push b k, tm) => .sePush n b k tm
  | some (.drive o v, tm) => .seDrive n o v tm
  | some (.loadl l v, tm) => .seLoadl n l v tm
  | some (.copy d c i r, tm) => .seCopy n d c i r tm pins
  | some (.signal o, tm) => .seSignal n o tm
  | some (.idle k, tm) => .seIdle n k tm

end Sys2Proof
end

