-- ==== Sys2Proof/Machine/Flags.lean ====
section
/-! DEFINITION. Results of arithmetic: wrapping and saturating (R211, R216), shifts, division corners (R217), products,
and the CRC step (R246). The block has no condition flags (R189): a compare writes 0 or 1 into a register. -/
namespace Sys2Proof
namespace Machine

/-- An exact signed result saturated to 32 bits (R216). -/
def satWord (v : Int) : Word :=
  if 0x7FFFFFFF < v then 0x7FFFFFFF#32 else if v < -0x80000000 then 0x80000000#32 else BitVec.ofInt 32 v

/-- An exact signed result, wrapped or saturated (R211, R216). -/
def narrow (sat : Bool) (v : Int) : Word := if sat then satWord v else BitVec.ofInt 32 v

/-- Sum (R215). -/
def addW (sat : Bool) (a b : Word) : Word := if sat then satWord (a.toInt + b.toInt) else a + b
/-- Difference (R215). -/
def subW (sat : Bool) (a b : Word) : Word := if sat then satWord (a.toInt - b.toInt) else a - b
/-- Shift left by `n`; under SAT the exact result is s(a) × 2^n (R216). -/
def shlW (sat : Bool) (a : Word) (n : Nat) : Word := if sat then satWord (a.toInt * 2 ^ n) else a <<< n
/-- Rotate right by `n` < 32 (R215). -/
def rorW (a : Word) (n : Nat) : Word := (a >>> n) ||| (a <<< (32 - n))
/-- Low word of the product; under SAT the full signed product saturated (R216). -/
def mulW (sat : Bool) (a b : Word) : Word := if sat then satWord (a.toInt * b.toInt) else a * b
/-- The full signed product (R215, MULH; R245, MULL). -/
def mulS (a b : Word) : BitVec 64 := BitVec.ofInt 64 (a.toInt * b.toInt)
/-- The full unsigned product. -/
def mulU (a b : Word) : BitVec 64 := BitVec.ofNat 64 (a.toNat * b.toNat)
/-- The high word of a double-word. -/
def hiW (v : BitVec 64) : Word := v.extractLsb' 32 32
/-- The low word of a double-word. -/
def loW (v : BitVec 64) : Word := v.extractLsb' 0 32
/-- A double-word of two words (R6). -/
def pairW (hi lo : Word) : BitVec 64 := hi ++ lo

/-- Signed quotient, truncated toward 0 (R215), with the cases of R217. -/
def divS (a b : Word) : Word := if b = 0#32 then 0xFFFFFFFF#32 else BitVec.ofInt 32 (Int.tdiv a.toInt b.toInt)
/-- Unsigned quotient (R217). -/
def divU (a b : Word) : Word := if b = 0#32 then 0xFFFFFFFF#32 else BitVec.ofNat 32 (a.toNat / b.toNat)
/-- Signed remainder: ra − rb × quotient of DIV (R215, R217). -/
def remS (a b : Word) : Word := if b = 0#32 then a else BitVec.ofInt 32 (a.toInt - b.toInt * Int.tdiv a.toInt b.toInt)
/-- Unsigned remainder (R217). -/
def remU (a b : Word) : Word := if b = 0#32 then a else BitVec.ofNat 32 (a.toNat % b.toNat)

/-- Negation under SAT or not (R216). -/
def negW (sat : Bool) (a : Word) : Word := if sat then satWord (- a.toInt) else 0#32 - a
/-- Absolute value (R215, R216). -/
def absW (sat : Bool) (a : Word) : Word := if a.toInt < 0 then negW sat a else a

/-- Multiply-accumulate: rd + product, exact under SAT (R235). -/
def macW (sat : Bool) (d a b : Word) : Word := if sat then satWord (d.toInt + a.toInt * b.toInt) else d + a * b
/-- Multiply-subtract (R235). -/
def msuW (sat : Bool) (d a b : Word) : Word := if sat then satWord (d.toInt - a.toInt * b.toInt) else d - a * b
/-- MADDI: product + immediate, the full product under SAT (R245). -/
def maddW (sat : Bool) (a b imm : Word) : Word := if sat then satWord (a.toInt * b.toInt + imm.toInt) else a * b + imm

/-- The reflected polynomial of a selector (R246). -/
def crcPoly (sel : Nat) : Word :=
  if sel = 0 then 0xA001#32 else if sel = 1 then 0xA6BC#32 else if sel = 2 then 0xEDB88320#32 else 0x8408#32

/-- `n` bit steps of the reflected CRC (R246). -/
def crcBits (poly : Word) : Nat → Word → Word
  | 0, c => c
  | n + 1, c => crcBits poly n (if c.getLsbD 0 then (c >>> 1) ^^^ poly else c >>> 1)

/-- CRC update of a state by one byte (R246, CRCB). -/
def crcByte (sel : Nat) (c : Word) (b : Byte) : Word :=
  let c := if sel = 2 then c else c &&& 0xFFFF#32
  crcBits (crcPoly sel) 8 (c ^^^ b.setWidth 32)

/-- CRC update by a list of bytes. -/
def crcBytes (sel : Nat) : Word → List Byte → Word
  | c, [] => c
  | c, b :: r => crcBytes sel (crcByte sel c b) r

/-- CRC update by the four bytes of a word, bits [7:0] first (R246, CRCW). -/
def crcWord (sel : Nat) (c w : Word) : Word := crcBytes sel c (leBytes 4 w.toNat)

end Machine
end Sys2Proof
end

