-- ==== Sys2Proof/Machine/Bank.lean ====
section
/-! DEFINITION. Sparse storage of many like things by number: a list of (number, value) pairs in one canonical
form, numbers strictly rising and no value equal to what an unlisted number reads as, so that equal contents are equal
data. Memory, registers, threads, channels and every other kind of instance are held so. -/
namespace Sys2Proof
namespace Machine

/-- The value at `k`; an unlisted number reads as `d k`. -/
def Bank.get {α : Type} (d : Nat → α) : List (Nat × α) → Nat → α
  | [], k => d k
  | (j, v) :: r, k => if k = j then v else Bank.get d r k

/-- The list without number `k`. -/
def Bank.drop {α : Type} : List (Nat × α) → Nat → List (Nat × α)
  | [], _ => []
  | (j, v) :: r, k => if k = j then Bank.drop r k else (j, v) :: Bank.drop r k

/-- The list with an entry put in its place by number. -/
def Bank.insert {α : Type} : List (Nat × α) → Nat → α → List (Nat × α)
  | [], k, v => [(k, v)]
  | (j, w) :: r, k, v => if k < j then (k, v) :: (j, w) :: r else (j, w) :: Bank.insert r k v

/-- `v` written at `k`; writing what an unlisted number reads as removes the entry. -/
def Bank.put {α : Type} [DecidableEq α] (d : Nat → α) (b : List (Nat × α)) (k : Nat) (v : α) : List (Nat × α) :=
  if v = d k then Bank.drop b k else Bank.insert (Bank.drop b k) k v

/-- Every listed number is above `n`, numbers rise strictly, and no listed value is the unlisted one. -/
def Bank.wfFrom {α : Type} [DecidableEq α] (d : Nat → α) : Nat → List (Nat × α) → Bool
  | _, [] => true
  | n, (j, v) :: r => decide (n ≤ j) && !(decide (v = d j)) && Bank.wfFrom d (j + 1) r

/-- The canonical form. -/
def Bank.wf {α : Type} [DecidableEq α] (d : Nat → α) (b : List (Nat × α)) : Bool := Bank.wfFrom d 0 b

/-- The first key at or above `k` that is listed, if any. -/
def Bank.nextKey {α : Type} : List (Nat × α) → Nat → Option Nat
  | [], _ => none
  | (j, _) :: r, k => if k ≤ j then some j else Bank.nextKey r k

/-- The list without the numbers that satisfy `p`. -/
def Bank.clear {α : Type} (p : Nat → Bool) : List (Nat × α) → List (Nat × α)
  | [] => []
  | (j, v) :: r => if p j then Bank.clear p r else (j, v) :: Bank.clear p r

end Machine
end Sys2Proof
end

