-- ==== Sys2Proof/Config.lean ====
section
/-! DEFINITION. What each build configuration fixes (R1, R2, R23, R32), and the free values: constants without a body,
which no proof can evaluate. -/
namespace Sys2Proof
namespace Config

/-- The four build configurations (R1). -/
inductive Kind where
  | sapling | pole | mature | veteran
  deriving DecidableEq, Repr

/-- BC_ID.CFG and the configuration code of factory data (R32, R117). -/
def Kind.code : Kind → Nat
  | .sapling => 0
  | .pole => 1
  | .mature => 2
  | .veteran => 3
/-- Engines present (R23): the lowest-numbered ones, 16 threads each (R2). -/
def Kind.engines : Kind → Nat
  | .sapling => 2
  | .pole => 4
  | .mature | .veteran => 8
/-- Shift engines present (R23). -/
def Kind.ses (k : Kind) : Nat := 4 * k.engines
/-- Links present (R23). -/
def Kind.links (k : Kind) : Nat := k.engines / 2
/-- Rows of a scratchpad bank (R348). -/
def Kind.rows (k : Kind) : Nat := 1024 * 2 ^ k.code
/-- Bytes of the scratchpad (R23): 32 banks of 16-byte rows. -/
def Kind.spSize (k : Kind) : Nat := 512 * k.rows
/-- Pages of the scratchpad (R348). -/
def Kind.pages (k : Kind) : Nat := k.spSize / 4096
/-- BC_ID (R32). -/
def Kind.bcId (k : Kind) : Word := BitVec.ofNat 32 (0x01280100 + k.code)
/-- BC_CAP (R32). -/
def Kind.bcCap : Kind → Word
  | .sapling => 0x00010812#32
  | .pole => 0x00021024#32
  | .mature => 0x00042048#32
  | .veteran => 0x00182048#32
/-- DBG_FRLEN: the words of the freeze record (R537). -/
def Kind.frLen (k : Kind) : Nat :=
  54659 + 1139 * k.engines + 391 * k.ses + 10354 * k.links + k.spSize / 4 + k.spSize / 512

/-- SV_ROMID (14_built_in_services.md, Registers). -/
def svRomId : Word := 0x00FF0100#32
/-- FREE VALUE. A 32-bit value the spec leaves open; the argument is the state's draw counter
(notes/assumptions/4.md). -/
opaque freeWord : Nat → BitVec 32
/-- FREE VALUE. The bytes of the service ROM, which the spec does not give (R357, notes/assumptions/5.md). -/
opaque romByte : Nat → BitVec 8
/-- FREE VALUE. How far a pin's start tap lies above tap 16, read from trim whose layout the spec does not give
(notes/assumptions/6.md). -/
opaque startTrim : Nat → BitVec 5
/-- The start tap of a pin's delay line: taps 16 to 47 (R308). -/
def startTap (p : Nat) : Nat := 16 + (startTrim p).toNat
/-- FREE VALUE. The three numbers a_b, m_b and c_b of the row map of a bank under a scramble key; their derivation is not
published (R349, notes/assumptions/7.md). -/
opaque rowParams : BitVec 128 → Nat → Nat × Nat × Nat
/-- FREE VALUE. Byte `j` of the mask M_K(b, r) of a bank and a logical row under a scramble key, which only the block computes
(R363, notes/assumptions/7.md). -/
opaque rowMask : BitVec 128 → Nat → Nat → Nat → Byte
/-- FREE VALUE. How far the fabric's copy of block time may lag, 4 TCLK + 4 FCLK (R240), in counts of BT: the clocks' ratio is the
integrator's. -/
opaque btLagMax : Nat
/-- FREE VALUE. The licensee's manufacturer code in IDCODE (R514, notes/assumptions/8.md). -/
opaque manufacturer : BitVec 11

end Config
end Sys2Proof
end

