-- ==== Sys2Proof/Machine/RegAddr.lean ====
section
/-! DEFINITION. Where each unit register lies (20_address_map_index.md, Register index) and what it holds after a
reset (R14). -/
namespace Sys2Proof
namespace Machine

/-! ### Addresses -/
def rBcId : Nat := 0x600000
def rBcCap : Nat := 0x600004
def rBcMode : Nat := 0x600008
def rBcRstCause : Nat := 0x600010
def rBcWarmCnt : Nat := 0x600014
def rBcRwlRef : Nat := 0x600018
def rBcRwlCnt : Nat := 0x60001C
def rBcBootErr : Nat := 0x600020
def rBcImgVer : Nat := 0x600024
def rBcImgInfo : Nat := 0x600028
def rBcImgLen : Nat := 0x60002C
def rBcNonce (i : Nat) : Nat := 0x600030 + 4 * i
def rBcToken (i : Nat) : Nat := 0x600038 + 4 * i
def rBcImgCtl : Nat := 0x600048
def rBcImgIn : Nat := 0x60004C
def rBcImgStat : Nat := 0x600050
def rBcBootTime : Nat := 0x600054
def rStc (n off : Nat) : Nat := 0x601000 + n * 0x80 + off
def rStcCfg (n : Nat) : Nat := rStc n 0x00
def rStcStat (n : Nat) : Nat := rStc n 0x04
def rStcCtl (n : Nat) : Nat := rStc n 0x08
def rStcWdKick (n : Nat) : Nat := rStc n 0x0C
def rStcCause (n : Nat) : Nat := rStc n 0x10
def rStcRcnt (n : Nat) : Nat := rStc n 0x14
def rStcTick : Nat := 0x601800
def rE (e off : Nat) : Nat := 0x610000 + e * 0x1000 + off
def rECfg (e : Nat) : Nat := rE e 0x00
def rEClass (e : Nat) : Nat := rE e 0x04
def rETwin (e : Nat) : Nat := rE e 0x08
def rEStat (e : Nat) : Nat := rE e 0x0C
def rEEmpty (e : Nat) : Nat := rE e 0x10
def rEDonUse (e : Nat) : Nat := rE e 0x14
def rETwFlt (e : Nat) : Nat := rE e 0x18
def rEIcnt (t : Nat) : Nat := rE (t / 16) (0x100 + 4 * (t % 16))
def rETfa (t : Nat) : Nat := rE (t / 16) (0x200 + 4 * (t % 16))
def rMcCfg (n : Nat) : Nat := 0x620000 + n * 8
def rMcStat (n : Nat) : Nat := 0x620004 + n * 8
def rMcDlStat : Nat := 0x628000
def rMcDlCnt : Nat := 0x628004
def rMcDlSet (i : Nat) : Nat := 0x628010 + 4 * i
def rMcDlHeld (i : Nat) : Nat := 0x628020 + 4 * i
def rMcPool : Nat := 0x628040
def rMcPoolErr : Nat := 0x628044
def rMcEpq : Nat := 0x628050
def rMcEpVal : Nat := 0x628054
def rMcHput (k : Nat) : Nat := 0x629000 + 0x10 * k
def rMcHpute (k : Nat) : Nat := 0x629004 + 0x10 * k
def rMcHget (k : Nat) : Nat := 0x629008 + 0x10 * k
def rMcHstat (k : Nat) : Nat := 0x62900C + 0x10 * k
def rSe (n off : Nat) : Nat := 0x630000 + n * 0x400 + off
def rSeCtl (n : Nat) : Nat := rSe n 0x00
def rSeClk (n : Nat) : Nat := rSe n 0x04
def rSeGrp (n : Nat) : Nat := rSe n 0x08
def rSeStat (n : Nat) : Nat := rSe n 0x0C
def rSePc (n : Nat) : Nat := rSe n 0x10
def rSeL (n k : Nat) : Nat := rSe n (0x14 + 4 * k)
def rSeCnt (n : Nat) : Nat := rSe n 0x1C
def rSeTsr (n : Nat) : Nat := rSe n 0x20
def rSeRsr (n : Nat) : Nat := rSe n 0x24
def rSeLastW (n : Nat) : Nat := rSe n 0x28
def rSeEvt (n : Nat) : Nat := rSe n 0x2C
def rSeQcnt (n : Nat) : Nat := rSe n 0x30
def rSeOstall (n : Nat) : Nat := rSe n 0x34
def rSeThr (n : Nat) : Nat := rSe n 0x38
def rSeSide (n : Nat) : Nat := rSe n 0x3C
def rSeCal (n : Nat) : Nat := rSe n 0x40
def rSeCalCtl (n : Nat) : Nat := rSe n 0x44
def rSeCalCnt (n : Nat) : Nat := rSe n 0x48
def rSeDwell (n : Nat) : Nat := rSe n 0x4C
def rSePat (n : Nat) : Nat := rSe n 0x50
def rSeLrld (n k : Nat) : Nat := rSe n (0x54 + 4 * k)
def rSeProg (n i : Nat) : Nat := rSe n (0x80 + 4 * i)
def rSeTap (n i : Nat) : Nat := rSe n (0x100 + 4 * i)
def rSeHist (n b : Nat) : Nat := rSe n (0x200 + 4 * b)
def rBt (off : Nat) : Nat := 0x640000 + off
def rBtCntLo : Nat := rBt 0x00
def rBtCntHi : Nat := rBt 0x04
def rBtCtLo : Nat := rBt 0x08
def rBtCtHi : Nat := rBt 0x0C
def rBtOfsLo : Nat := rBt 0x10
def rBtOfsHi : Nat := rBt 0x14
def rBtAdj : Nat := rBt 0x18
def rBtFrq : Nat := rBt 0x1C
def rBtDisc : Nat := rBt 0x20
def rBtNom : Nat := rBt 0x24
def rBtStepMax : Nat := rBt 0x28
def rBtStat : Nat := rBt 0x2C
def rBtPpsCapLo : Nat := rBt 0x30
def rBtPpsCapHi : Nat := rBt 0x34
def rBtPerr : Nat := rBt 0x38
def rTmGsel (i : Nat) : Nat := rBt (0x40 + 4 * i)
def rTmGstart : Nat := rBt 0x48
def rTmGstat : Nat := rBt 0x4C
def rTm (n off : Nat) : Nat := 0x640100 + (n / 2) * 0x80 + 4 * (n % 2) + off
def rTmCtl (n : Nat) : Nat := rTm n 0x00
def rTmCnt (n : Nat) : Nat := rTm n 0x08
def rTmCmp (n : Nat) : Nat := rTm n 0x10
def rTmCap (n : Nat) : Nat := rTm n 0x18
def rTmPhase (n : Nat) : Nat := rTm n 0x20
def rTmStat (n : Nat) : Nat := rTm n 0x28
def rEvCfg (n : Nat) : Nat := 0x650000 + n * 0x10
def rEvStat (n : Nat) : Nat := 0x650004 + n * 0x10
def rEvCnt (n : Nat) : Nat := 0x650008 + n * 0x10
def rEvCtl : Nat := 0x651000
def rEvFire : Nat := 0x651004
def rEvNStat : Nat := 0x651008
def rEvFired (i : Nat) : Nat := 0x651020 + 4 * i
def rEvDropped (i : Nat) : Nat := 0x651040 + 4 * i
def rEvHattn : Nat := 0x651060
def rEvDropTot : Nat := 0x651064
def rEvMat (w : Nat) : Nat := 0x652000 + 4 * w
def rSp (off : Nat) : Nat := 0x660000 + off
def rSpCfg : Nat := rSp 0x00
def rSpLapAlarm : Nat := rSp 0x04
def rSpStat : Nat := rSp 0x08
def rSpLapLast : Nat := rSp 0x0C
def rSpLapMax : Nat := rSp 0x10
def rSpLapNow : Nat := rSp 0x14
def rSpErrCnt : Nat := rSp 0x20
def rSpErrAddr : Nat := rSp 0x24
def rSpP3Late : Nat := rSp 0x28
def rSpWclr : Nat := rSp 0x2C
def rSpTtCtl : Nat := rSp 0x30
def rSpTtStat : Nat := rSp 0x34
def rSpTtRes : Nat := rSp 0x38
def rSpRetCmd : Nat := rSp 0x40
def rSpRetStat : Nat := rSp 0x44
def rSpSpareBad (i : Nat) : Nat := rSp (0x48 + 4 * i)
def rSpCoppice : Nat := rSp 0x50
def rSpRet (n : Nat) : Nat := rSp (0x100 + 4 * n)
def rSpHwinBase (n : Nat) : Nat := rSp (0x200 + 0x10 * n)
def rSpHwinLim (n : Nat) : Nat := rSp (0x204 + 0x10 * n)
def rSpHwinAttr (n : Nat) : Nat := rSp (0x208 + 0x10 * n)
def rPgOut (n : Nat) : Nat := 0x670000 + 8 * n
def rPgPinStat (n : Nat) : Nat := 0x670004 + 8 * n
def rPgCfg (n : Nat) : Nat := 0x670600 + 4 * n
def rPgIn (i : Nat) : Nat := 0x670900 + 4 * i
def rPgZ (z off : Nat) : Nat := 0x670A00 + 0x20 * z + off
def rPgZLim (z : Nat) : Nat := rPgZ z 0x00
def rPgZVzone (z : Nat) : Nat := rPgZ z 0x04
def rPgZQbudget (z : Nat) : Nat := rPgZ z 0x08
def rPgZQacc (z : Nat) : Nat := rPgZ z 0x0C
def rPgZQlast (z : Nat) : Nat := rPgZ z 0x10
def rPgZQmax (z : Nat) : Nat := rPgZ z 0x14
def rPgZNdrv (z : Nat) : Nat := rPgZ z 0x18
def rPgZStat (z : Nat) : Nat := rPgZ z 0x1C
def rPgStat : Nat := 0x670B00
def rLk (n off : Nat) : Nat := 0x680000 + n * 0x400 + off
def rLkCfg (n : Nat) : Nat := rLk n 0x00
def rLkRate (n : Nat) : Nat := rLk n 0x04
def rLkCtl (n : Nat) : Nat := rLk n 0x08
def rLkStat (n : Nat) : Nat := rLk n 0x0C
def rLkPeer (n : Nat) : Nat := rLk n 0x10
def rLkPeerF (n : Nat) : Nat := rLk n 0x14
def rLkTxf (n : Nat) : Nat := rLk n 0x18
def rLkRxf (n : Nat) : Nat := rLk n 0x1C
def rLkRetx (n : Nat) : Nat := rLk n 0x20
def rLkErr (n : Nat) : Nat := rLk n 0x24
def rLkDrop (n : Nat) : Nat := rLk n 0x28
def rLkDowns (n : Nat) : Nat := rLk n 0x2C
def rLkTdly (n : Nat) : Nat := rLk n 0x30
def rLkTest (n : Nat) : Nat := rLk n 0x34
def rLkRtxCtl (n : Nat) : Nat := rLk n 0x40
def rLkRtxStat (n : Nat) : Nat := rLk n 0x44
def rLkRrxStat (n : Nat) : Nat := rLk n 0x48
def rLkRtxBuf (n w : Nat) : Nat := rLk n (0x100 + 4 * w)
def rLkRrxBuf (n w : Nat) : Nat := rLk n (0x200 + 4 * w)
def rLkGCfg : Nat := 0x681000
def rLkFrzCmd : Nat := 0x681004
def rLkRoute : Nat := 0x681008
def rLkRtq : Nat := 0x68100C
def rLkRtNode : Nat := 0x681010
def rLkRtLink : Nat := 0x681014
def rLkNodeId : Nat := 0x681018
def rLkGStat : Nat := 0x68101C
def rLkLost : Nat := 0x681020
def rEr (off : Nat) : Nat := 0x690000 + off
def rErCursor : Nat := rEr 0x00
def rErStat : Nat := rEr 0x04
def rErPool : Nat := rEr 0x08
def rErDrop (s : Nat) : Nat := rEr (0x10 + 4 * s)
def rErRepl : Nat := rEr 0x24
def rErQlost : Nat := rEr 0x28
def rErHours : Nat := rEr 0x30
def rErSecs : Nat := rEr 0x34
def rErPcc : Nat := rEr 0x38
def rErCfg : Nat := rEr 0x40
def rErCmStat : Nat := rEr 0x44
def rErCmSeq : Nat := rEr 0x48
def rErCmNext : Nat := rEr 0x4C
def rErCmCtl : Nat := rEr 0x50
def rErNonce (i : Nat) : Nat := rEr (0x60 + 4 * i)
def rErToken (i : Nat) : Nat := rEr (0x68 + 4 * i)
def rErClrCtl : Nat := rEr 0x78
def rErWin (w : Nat) : Nat := rEr (0x100 + 4 * w)
def rSec (off : Nat) : Nat := 0x6A0000 + off
def rSecStat : Nat := rSec 0x00
def rSecAlStat : Nat := rSec 0x04
def rSecInStat : Nat := rSec 0x08
def rSecShStat : Nat := rSec 0x0C
def rSecResp (s : Nat) : Nat := rSec (0x40 + 4 * s)
def rSecAcnt (s : Nat) : Nat := rSec (0x80 + 4 * s)
def rSecDbgCh (i : Nat) : Nat := rSec (0x100 + 4 * i)
def rSecDbgRsp (i : Nat) : Nat := rSec (0x108 + 4 * i)
def rSecDbgCtl : Nat := rSec 0x118
def rSecDbgStat : Nat := rSec 0x11C
def rDbg (off : Nat) : Nat := 0x6B0000 + off
def rDbgCmd : Nat := rDbg 0x00
def rDbgCmdStat : Nat := rDbg 0x04
def rDbgThalt (i : Nat) : Nat := rDbg (0x10 + 4 * i)
def rDbgShalt : Nat := rDbg 0x20
def rDbgShold : Nat := rDbg 0x24
def rDbgBpAddr (i : Nat) : Nat := rDbg (0x40 + 8 * i)
def rDbgBpCtl (i : Nat) : Nat := rDbg (0x44 + 8 * i)
def rDbgWpLo (i : Nat) : Nat := rDbg (0x80 + 0x10 * i)
def rDbgWpHi (i : Nat) : Nat := rDbg (0x84 + 0x10 * i)
def rDbgWpCtl (i : Nat) : Nat := rDbg (0x88 + 0x10 * i)
def rDbgHitStat : Nat := rDbg 0xC0
def rDbgTsel : Nat := rDbg 0xD0
def rDbgTreg (r : Nat) : Nat := rDbg (0x100 + 4 * r)
def rDbgFrzCfg : Nat := rDbg 0x200
def rDbgFrzStat : Nat := rDbg 0x204
def rDbgFrzCause : Nat := rDbg 0x208
def rDbgFrzAck (k : Nat) : Nat := rDbg (0x20C + 4 * k)
def rDbgFrzCnt : Nat := rDbg 0x214
def rDbgFrSel : Nat := rDbg 0x220
def rDbgFrPtr : Nat := rDbg 0x224
def rDbgFrData : Nat := rDbg 0x228
def rDbgFrLen : Nat := rDbg 0x22C
def rOtpStat : Nat := 0x6C0000
def rOtpCtl : Nat := 0x6C0004
def rOtpStage (i : Nat) : Nat := 0x6C0100 + 4 * i
def rOtpMirror (w : Nat) : Nat := 0x6C0800 + 4 * w
def rSv (i off : Nat) : Nat := 0x6D0000 + i * 0x20 + off
def rSvCfg (i : Nat) : Nat := rSv i 0x00
def rSvWs (i : Nat) : Nat := rSv i 0x04
def rSvStat (i : Nat) : Nat := rSv i 0x08
def rSvCnt (i k : Nat) : Nat := rSv i (0x10 + 4 * k)
def rSvRomId : Nat := 0x6D0800
def rXpFlCfg : Nat := 0x6E0000
def rXpFlStat : Nat := 0x6E0004
def rXpCpCfg : Nat := 0x6E0100
def rXpCpStat : Nat := 0x6E0104
def rXpNvCfg : Nat := 0x6E0200
def rXpNvStat : Nat := 0x6E0204
def rXpTrStat : Nat := 0x6E0300
def rXpHpErr : Nat := 0x6E0400

/-! ### Reset values -/

/-- A value for the addresses of a run of equal-stride instances: `base + k * stride` with `k < n`. -/
def inRun (a base stride n : Nat) : Bool := decide (base ≤ a) && decide ((a - base) % stride = 0) && decide ((a - base) / stride < n)

/-- The reset value of the register at an address (R14 and the index); every register not named here resets to 0.
OTP-loaded fields hold here what they hold before P1. What a smaller configuration fixes otherwise is computed where the register is
read (R32, R385, R537). -/
def regReset (a : Nat) : Word :=
  if a < 0x610000 then
    if a = rBcId then Config.Kind.veteran.bcId else if a = rBcCap then Config.Kind.veteran.bcCap
    else if inRun a (rStcStat 0) 0x80 16 then 0x5#32
    else if a = rStcTick then 0x63#32 else 0#32
  else if a < 0x640000 then
    if inRun a (rECfg 0) 0x1000 8 then 0x00400009#32
    else if inRun a (rSeClk 0) 0x400 32 then 0x100#32
    else if inRun a (rSeThr 0) 0x400 32 then 0x00082020#32 else 0#32
  else if a < 0x670000 then
    if a = rBtDisc then 0x1620#32 else if a = rBtStepMax then 0x100#32
    else if a = rSpCfg then 0x01000301#32 else 0#32
  else if a < 0x690000 then
    if inRun a (rPgPinStat 0) 8 192 then 0x8#32 else if a = rPgStat then 0x2#32
    else if inRun a (rLkCtl 0) 0x400 4 then 0x03E80200#32
    else if a = rLkGCfg then 0x000A0140#32 else if a = rLkRoute then 0x00FF0000#32 else 0#32
  else if a < 0x6C0000 then
    if a = rErCfg then 0x3C#32 else if a = rErCmStat then 0x800#32
    else if a = rSecAlStat then 0x00FF0000#32
    else if a = rDbgFrzCfg then 0x100#32 else if a = rDbgFrLen then BitVec.ofNat 32 Config.Kind.veteran.frLen else 0#32
  else if a = rSvRomId then Config.svRomId
  else if a = rXpFlCfg then 0x00640063#32 else if a = rXpCpCfg then 0xFFFF#32
  else if a = rXpNvCfg then 0x70#32 else 0#32

end Machine
end Sys2Proof
end

