-- ==== Sys2Proof/Machine/State.lean ====
section
/-! DEFINITION. The state of the block: plain data, everything the spec gives it. Unit registers are held by address
in one list (20_address_map_index.md places each); what runs inside the units is held beside them, unit by unit. A
number of an instance is the key of a list in the canonical form of Machine/Bank.lean. -/
namespace Sys2Proof
namespace Machine

/-- Why the block stops. No command of this block stops it: the spec gives every command an effect on state (errors are
answers, traps, flags and failure codes), so the type has no constructor. Safe. -/
inductive Fault where
  deriving DecidableEq, Repr

/-- Why a command is refused. -/
inductive Refusal where
  /-- Raised by an arm of exec whose command has no meaning yet; safe (nothing is claimed of it). -/
  | notModelled (mnemonic : String)
  deriving DecidableEq, Repr

/-- Block mode (R25). -/
inductive Mode where
  | boot | run | recovery | test | halted
  deriving DecidableEq, Repr

/-! ### Threads (05_barrel_engines.md, 06_instruction_encoding.md) -/

/-- An index unit xn: its five fields (R188). -/
structure XUnit where
  xb : Addr := 0#24
  xi : Addr := 0#24
  xl : Addr := 0#24
  xs : Addr := 0#24
  mode : BitVec 2 := 0#2
  esz : BitVec 2 := 0#2
  deriving DecidableEq, Repr

/-- Thread class (R153). -/
inductive Cls where
  | idle | strict | elastic
  deriving DecidableEq, Repr

/-- Atomic operation (R203). -/
inductive AtomOp where
  | swap | add | and | or | xor | minu | maxu | cas
  deriving DecidableEq, Repr

/-- A channel operation form (R228). -/
inductive ChanForm where
  | put | pute | endm | get | getn | drop | abt
  deriving DecidableEq, Repr

/-- A channel operation as the engine sends it: the form, whether it is a try form, W64, the port, the data and
status destinations, the data sent, the timeout register's value (none: the gt field is g0, R230), the address of the
instruction, and whether it is the snapshot of CHS (R234). -/
structure ChanOp where
  form : ChanForm
  try_ : Bool
  wide : Bool
  port : Nat
  dataReg : Nat
  statReg : Nat
  data : BitVec 64
  timeout : Option Nat
  pc : Addr
  snap : Bool := false
  deriving DecidableEq, Repr

/-- The answer of the pool to a channel operation (R229, R233). -/
inductive ChanAns where
  /-- status word fields CODE, LAST, COUNT and the data of a receive form -/
  | status (code : Nat) (last : Bool) (count : Nat) (data : Option (BitVec 64))
  /-- a channel error of a kind of R233 on a channel number -/
  | error (kind ch : Nat)
  /-- CHS: the port status word (R234) -/
  | snapshot (w : Word)
  deriving DecidableEq, Repr

/-- A parked operation: the waiter record of R256. The stamp orders parkings; it is new for every parking, so it is
also the tag. `marked`: reported as a member of a deadlocked group; `heldMark`: of a debug-held group (R269, R271); `svc`: the instance
whose service thread parked (R254, R413). -/
structure Parked where
  op : ChanOp
  stamp : Nat
  marked : Bool := false
  heldMark : Bool := false
  svc : Option Nat := none
  aborted : Bool := false
  broken : Bool := false
  deriving DecidableEq, Repr

/-- Where the value of a deferred result is (R163). -/
inductive DefState where
  | waiting
  | flight (v : BitVec 64)
  | failed
  | ready (v : BitVec 64)
  deriving DecidableEq, Repr

/-- A result that reaches the register file later than its instruction (R163): the registers still to be written
(number, high word of the value), the instructions still to issue before it is written, where its value is, the access
that brings it, whether a long stall of the thread ends when it is here (R155), whether its access is still held in the engine, and
the address of a CHK-prefixed instruction whose record waits for the value (R178). -/
structure Deferred where
  dests : List (Nat × Bool)
  wait : Nat
  st : DefState
  addr : Addr := 0#24
  size : Size := .b32
  sx : Bool := false
  atom : Option (AtomOp × Word × Word) := none
  late : Bool := false
  held : Bool := false
  chk : Option Addr := none
  deriving DecidableEq, Repr

/-- What has become of a store-buffer entry at its target (R169, R221). -/
inductive Grant where
  | pending | granted | refused
  deriving DecidableEq, Repr

/-- A store-buffer entry (R169). -/
structure StoreEntry where
  addr : Addr
  size : Size
  data : BitVec 64
  grant : Grant := .pending
  deriving DecidableEq, Repr

/-- An operation held in the engine (R170, R171). -/
inductive HeldOp where
  | load (d : Deferred)
  | store (e : StoreEntry)
  | ntStore (e : StoreEntry)
  | fence
  | atom (d : Deferred)
  | chan (op : ChanOp)
  deriving DecidableEq, Repr

/-- A held operation and the address of its instruction. -/
structure Held where
  op : HeldOp
  pc : Addr
  deriving DecidableEq, Repr

/-- The kind of long stall a thread is in (R155). `waitd`: a WAITT whose release is on its way with the count (R238). -/
inductive Stall where
  | none | chan | waitev (mask : Byte) (rd : Nat) | waitt (tm rd : Nat) | waitd (rd : Nat) (v : Word) | yield | sleep (ga : Word)
  | late | hold | regLoad
  deriving DecidableEq, Repr

/-- A compare record of a twinned copy (R178). -/
inductive TwinRec where
  | store (addr : Addr) (size : Size) (data : BitVec 64)
  | atom (addr : Addr) (op : AtomOp) (rs cmp : Word)
  | regLoad (addr : Addr) (size : Size)
  | blockTime
  | chan (op : ChanOp)
  | chk (off : Nat) (value : BitVec 64)
  /-- a CHK-prefixed instruction whose value is still to come, with the next PC -/
  | chkWait (off : Addr) (next : Addr)
  deriving DecidableEq, Repr

/-- The binding of a channel port (R253) and its abort-pending flag (R232). -/
structure PortBind where
  bound : Bool := false
  recv : Bool := false
  ch : Nat := 0
  abortp : Bool := false
  deriving DecidableEq, Repr

/-- Pending imprecise causes (R184): TWIN, TWINTMO, and the addresses of pending BUSERRs. -/
structure Imprecise where
  twin : Bool := false
  twintmo : Bool := false
  buserr : List Addr := []
  deriving DecidableEq, Repr

/-- A thread: its registers (R188) and what the engine holds for it; `held`: operations held in the engine, in program order (R170,
R171); `fetchLate`: its fetch from the service ROM is a late access (R155, R167); `romBad`: the address of an instruction whose fetch
met an uncorrectable word (R168); `last`: the address of the instruction issued last. -/
structure Thread where
  pc : Addr := 0#24
  g : List (Nat × Word) := []
  x : List (Nat × XUnit) := []
  tpc : Addr := 0#24
  tst : Word := 0#32
  tvec : Addr := 0#24
  sigr : Word := 0#32
  evp : Byte := 0#8
  ports : List (Nat × PortBind) := []
  released : Bool := false
  halted : Bool := false
  haltTag : Nat := 0
  step : Bool := false
  restarting : Bool := false
  stall : Stall := .none
  held : List Held := []
  chanOut : Bool := false
  resp : Option (ChanOp × ChanAns) := none
  park : Option Parked := none
  defer : List Deferred := []
  sbuf : List StoreEntry := []
  recs : List TwinRec := []
  imp : Imprecise := {}
  romBad : Option Addr := none
  fetchLate : Bool := false
  last : Addr := 0#24
  sleepStamp : Nat := 0
  sleepMarked : Bool := false
  sleepHeld : Bool := false
  deriving DecidableEq, Repr

/-! ### Channels (08_message_channels.md) -/

/-- A word of the channel pool: its data, or an uncorrectable word; `soft`: up to two symbols of it are in error (R250). -/
structure PWord where
  v : Word := 0#32
  bad : Bool := false
  soft : Bool := false
  deriving DecidableEq, Repr

/-- A complete message: its unread words, the pool words it holds until freed (R227), whether it was sent over the
link and waits for acknowledgement (R262), and whether a secure frame brought it (R453). -/
structure Msg where
  words : List PWord
  total : Nat
  sent : Bool := false
  sec : Bool := false
  deriving DecidableEq, Repr

/-- A channel: its two endpoint words as resolved (R251, R254), complete messages oldest first, staged words, the ring
position where the next word goes (R249), and for a link half the credit, the counters of R458 and the credit still to return (R261). -/
structure Chan where
  hasRec : Bool := false
  sendEp : Word := 0#32
  recvEp : Word := 0#32
  msgs : List Msg := []
  staged : List PWord := []
  wr : Nat := 0
  credW : Nat := 0
  credM : Nat := 0
  lnkdn : Bool := false
  owedW : Nat := 0
  owedM : Nat := 0
  sentM : BitVec 16 := 0#16
  sentW : BitVec 16 := 0#16
  recvM : BitVec 16 := 0#16
  recvW : BitVec 16 := 0#16
  deriving DecidableEq, Repr

/-- A node of the wait-for graph as a snapshot records it (R265, R266): a waiter with its tag and partners, or a held
thread with the number of its halt. A partner is a thread, never able to act, or live. -/
inductive Partner where
  | thread (t : Nat) | never | live
  deriving DecidableEq, Repr

/-- See `Partner`. -/
structure WNode where
  t : Nat
  held : Bool
  tag : Nat
  stamp : Nat
  partners : List Partner
  deriving DecidableEq, Repr

/-- A group found in a snapshot: its members with tag (R266, R267). -/
structure WGroup where
  held : Bool
  members : List (Nat × Nat)
  deriving DecidableEq, Repr

/-! ### The recorder (16_tree_ring_recorder.md) -/

/-- A timestamp (R468). -/
structure RStamp where
  hours : Nat := 0
  secs : Nat := 0
  pcc : Nat := 0
  deriving DecidableEq, Repr

/-- The key of an object: UNIT, METRIC, INDEX (R467). -/
structure RecKey where
  unit : Nat := 0
  metric : Nat := 0
  index : Nat := 0
  deriving DecidableEq, Repr

/-- What an update carries: a bin with a count, or a value of an extreme (R472). -/
inductive RecDat where
  | bin (b count : Nat)
  | value (v : Nat)
  deriving DecidableEq, Repr

/-- An entry of the update queue (R472). -/
structure RecUpd where
  key : RecKey
  sev : Nat
  dat : RecDat
  deriving DecidableEq, Repr

/-- An object of the pool (R467); `order` is the order in which updates were applied (R474). -/
structure RecObj where
  valid : Bool := false
  key : RecKey := {}
  sev : Nat := 0
  extreme : Bool := false
  created : RStamp := {}
  updated : RStamp := {}
  bins : List (Nat × Nat) := []
  lo : Nat := 0
  loT : RStamp := {}
  hi : Nat := 0
  hiT : RStamp := {}
  updcnt : Nat := 0
  order : Nat := 0
  deriving DecidableEq, Repr

/-- The step of a clear request (R477, R478): none, token under check, pass to be made. -/
inductive ClearStep where
  | none | check (ctl : Word) | pass (ctl : Word)
  deriving DecidableEq, Repr

/-- The flash sequence that a commit runs next (R484): an erase unit, a header unit, a unit of an object (its 128 bytes as read
when its turn came), the COMMIT unit, the BAD unit of a sector that failed. -/
inductive CmStep where
  | erase (k : Nat)
  | head (k : Nat)
  | obj (k : Nat) (bytes : List Byte)
  | unit
  | bad
  deriving DecidableEq, Repr

/-- A running commit (R481, R484): target, sequence number, the counters at its start, the slots still to be written, their count at
the start, the CRC register so far, the next step; for a further attempt the slots at the start and, as they then stood, ER_DROP0 to
ER_DROP4 and ER_REPL. -/
structure CommitRun where
  target : Nat
  seq : Word
  stamp : RStamp
  slots : List Nat
  nobj : Nat
  crc : Word
  step : CmStep
  start : List Nat := []
  drops : List Word := []
  deriving DecidableEq, Repr

/-- The recorder controller. The sectors themselves are the chip's flash (R480). A commit request and whether it is for a CRITICAL
object or a clear (R493), a further request behind the running commit, operating seconds since the last periodic commit, whether
each low-sector count was applied, a restore still due in P4, whether it takes the counters too (R143), and the newest valid commit,
sector and SEQ, as the controller knows it (R484). -/
structure Recorder where
  pool : List (Nat × RecObj) := []
  applied : Nat := 0
  queue : List RecUpd := []
  clear : ClearStep := .none
  cmReq : Bool := false
  cmCrit : Bool := false
  commit : Option CommitRun := none
  cmMore : Bool := false
  cmMoreCrit : Bool := false
  cmSecs : Nat := 0
  low2 : Bool := false
  low1 : Bool := false
  restore : Bool := false
  counters : Bool := false
  newest : Option (Nat × Word) := none
  deriving DecidableEq, Repr


/-! ### Stands (03_clocks_resets_and_stands.md) -/

/-- The step of a stand restart that has been completed last (R105): none running; Drain done, waiting for Restore;
Restore done, waiting for Release. -/
inductive StandStep where
  | none | drained | restored
  deriving DecidableEq, Repr

/-- A stand: a restart requested and not yet accepted, with its cause bits and alarm source; the step of a running
restart, whether it parks, whether the running pass is a zeroise's (R508), which waits for the clear,
and whether its Release comes from UNPARK (R108); whether the watchdog runs. -/
structure Stand where
  req : Bool := false
  causes : Nat := 0
  alarmId : Nat := 0
  step : StandStep := .none
  parks : Bool := false
  zero : Bool := false
  unpark : Bool := false
  wdOn : Bool := false
  deriving DecidableEq, Repr

/-- The deadlock detector (R265–R271): the snapshot under analysis, the groups of the snapshot before, the members of
debug-held groups that are held threads and already counted, and policies held until a resume (oldest waiter, its tag, its stand,
DLPOL; R270). -/
structure Detector where
  busy : Bool := false
  snap : List WNode := []
  prev : List WGroup := []
  heldSeen : List (Nat × Nat) := []
  due : List (Nat × Nat × Nat × Nat) := []
  deriving DecidableEq, Repr

/-! ### Shift engines (09_shift_engines.md): what is not in their registers -/

/-- A record of the output lane (R279): level and OE masks and values over the group pins, and event pulses. -/
structure LaneRec where
  lvMask : Word := 0#32
  lv : Word := 0#32
  oeMask : Word := 0#32
  oe : Word := 0#32
  ev : BitVec 4 := 0#4
  deriving DecidableEq, Repr

/-- The execution latch (R290, R299): the instruction with its TIMING field and its address; its stall kind (0 none: it has completed);
whether its first execution cycle is over (side-set emitted, R291); whether a SAMPLE has already shifted (R293); the DWELL or
IDLE cycles left. -/
structure SeLatch where
  op : SeOp
  tm : Nat
  pc : Nat := 0
  stall : Nat := 0
  begun : Bool := false
  shifted : Bool := false
  rest : Nat := 0
  deriving DecidableEq, Repr

/-- A shift engine beside its registers: the latch, both queues, the output lane, whether it is held in reset (R105, R106), and whether
its clock SEK stands still, as last seen (R82, R95). -/
structure SeUnit where
  latch : Option SeLatch := none
  txq : List Word := []
  rxq : List Word := []
  lane : List LaneRec := []
  inRst : Bool := false
  stopped : Bool := false
  deriving DecidableEq, Repr

/-- A calibrator of one group pin (R305): sums, count, pending move and the bins of the current block. -/
structure Cal where
  wlo : Nat := 0
  whi : Nat := 0
  n : Nat := 0
  move : Option Nat := none
  hist : List (Nat × Nat) := []
  deriving DecidableEq, Repr
/-! ### Timers, block time, routes (10_timers_and_block_time.md, 11_event_routes.md) -/

/-- A timer beside its registers: its image record (owner stand), prescaler state P (R310), the last evaluated E (R313), the
armed state of its compare input (R317), and the events its inputs hold (R320). -/
structure Tmr where
  hasRec : Bool := false
  stand : Nat := 0
  p : Nat := 0
  lastE : Bool := false
  armed : Bool := false
  held : Nat := 0
  capIn : Bool := false
  deriving DecidableEq, Repr

/-- Block time (R328–R334): BT, the fabric's FCLK copy of it (R240), F, the canopy offset and the held low word of it, whether BT has started, whether the next
sample is a first one, BT at the previous capture and at the previous offered sample, the run of samples with |p| ≤ 16, and
HOLD. ADJ and FRQ are registers. -/
structure BlockTime where
  bt : BitVec 64 := 0#64
  copy : Nat := 0
  frac : Word := 0#32
  ofs : BitVec 64 := 0#64
  ofsLo : Word := 0#32
  on : Bool := false
  first : Bool := true
  prev : Option (BitVec 64) := none
  good : Nat := 0
  hold : Bool := false
  deriving DecidableEq, Repr

/-! ### The scratchpad (12_scratchpad_memory.md) -/

/-- A request that waits in a lane of a bank, or in the host input (R352): a load, a store (`nt`: an NT store, which is in no
store buffer), an ATOM of a thread, or the host's next request. -/
inductive SpReq where
  | load (t : Nat) (a : Addr) (sz : Size)
  | store (t : Nat) (e : StoreEntry) (nt : Bool)
  | atom (t : Nat) (a : Addr) (op : AtomOp) (rs cmp : Word)
  | host
  deriving DecidableEq, Repr

/-- The scratchpad unit beside its registers: the lanes of each bank, keyed 18 · bank + slot (0–7 the P3 lanes, 8–15 the P2
lanes, 16 the DMA input, 17 the host input; banks 32–35 are the service ROM's, R357); `xq`: by engine, requests of its crossing queue
that wait for a full lane, each with bank and slot (R353); the P3 and P2 pointers of each bank; the poisoned words by word number of the
array; the scrub pointers; the
hard-fault tracker (row, count, corrected in this lap); whether this lap's alarm was raised; the transparent test (step of
SP_TTSTAT, walk on); the entry a retire copy runs for, the page it reads and the words copied (R379); the word a clear is pending for;
the keys K and K′; `under`: until the array is cleared after K was replaced, the key, words and poison marks it was written with, and
`rekeyed`: the words written or taken over since (R363, R496). -/
structure SpUnit where
  lanes : List (Nat × List SpReq) := []
  xq : List (Nat × List (Nat × Nat × SpReq)) := []
  p3 : List (Nat × Nat) := []
  p2 : List (Nat × Nat) := []
  bad : List (Nat × Bool) := []
  scrub : List (Nat × Nat) := []
  track : List (Nat × Nat × Bool) := []
  lapAlarmed : Bool := false
  ttStep : Nat := 0
  walk : Bool := false
  copy : Option Nat := none
  copyFrom : Nat := 0
  copied : Nat := 0
  wclr : Option Nat := none
  under : Option (BitVec 128 × List Host.Cell × List (Nat × Bool)) := none
  rekeyed : List Nat := []
  key : BitVec 128 := 0#128
  resv : Option (BitVec 128) := none
  deriving DecidableEq, Repr

/-! ### The configuration image (04_startup_and_configuration_image.md, R138–R140) -/

/-- A threads record. -/
structure ThreadRec where
  n : Nat
  cls : Nat
  twin : Bool
  stand : Nat
  entry : Addr
  tvec : Addr
  arg : Word
  deriving DecidableEq, Repr
/-- A channels record. -/
structure ChanRec where
  n : Nat
  words : Nat
  stand : Nat
  send : Word
  recv : Word
  deriving DecidableEq, Repr
/-- A shift-engine programs record. -/
structure SeRec where
  n : Nat
  stand : Nat
  base : Nat
  count : Nat
  clk : Word
  ctl : Word
  minUi : Nat
  span : Nat
  startPc : Nat
  thr : Word
  side : Word
  dwell : Word
  pat : Word
  l0 : Word
  l1 : Word
  prog : List Nat
  deriving DecidableEq, Repr
/-- A timers record. -/
structure TimerRec where
  n : Nat
  stand : Nat
  ctl : Word
  phase : Word
  cmp : Word
  deriving DecidableEq, Repr
/-- An event-routes record. -/
structure RouteRec where
  n : Nat
  stand : Nat
  attr : Nat
  en : Word
  deriving DecidableEq, Repr
/-- A zone record: words 0 to 2 of the OTP layout (R125). -/
structure ZoneRec where
  w0 : Word := 0#32
  vzone : Word := 0#32
  budget : Word := 0#32
  deriving DecidableEq, Repr
/-- A pin record. -/
structure PinRec where
  n : Nat
  stand : Nat
  zone : Nat
  init : Nat
  cload : Nat
  deriving DecidableEq, Repr
/-- A services record. -/
structure SvcRec where
  n : Nat
  type : Nat
  stand : Nat
  thr : List Nat
  se : List Nat
  ch : List Nat
  params : List Byte
  deriving DecidableEq, Repr
/-- A link record. -/
structure LinkRec where
  n : Nat
  mode : Nat
  gcm : Bool
  rate : Word
  slot : Nat
  retx : Nat
  deriving DecidableEq, Repr
/-- An image as the loader has parsed it: the staging, and once committed the restart copy (R105, R136). Program and scratchpad
bytes go to memory as they arrive and stand here by address. -/
structure Image where
  length : Nat := 0
  version : Word := 0#32
  epoch : Nat := 0
  cfgMask : Nat := 0
  kind : Config.Kind := .veteran
  compat : Bool := false
  nodeId : Word := 0#32
  source : Nat := 0
  stands : List (Nat × Word) := []
  threads : List ThreadRec := []
  progs : List (Nat × List Byte) := []
  chans : List ChanRec := []
  ses : List SeRec := []
  timers : List TimerRec := []
  routes : List RouteRec := []
  matrix : List Word := []
  zones : List ZoneRec := []
  pins : List PinRec := []
  spare : Nat := 0
  lapAlarm : Word := 0#32
  data : List (Nat × List Byte) := []
  svcs : List SvcRec := []
  links : List LinkRec := []
  defLink : Nat := 255
  nodes : List (Word × Nat) := []
  recd : Option (Nat × Nat) := none
  policy : List (Nat × Nat × Nat) := []
  engines : List (Nat × Nat × Nat) := []
  deriving DecidableEq, Repr

/-! ### Field pins and the governor (13_field_pins_and_energy_governor.md) -/

/-- A field pin beside its registers: the applied state in the layout of PGn_OUT, the fail-safe latch, the pending latch, the
clockless clamp latch; the drive class that PAD_DRV showed when the fail-safe latch was set, whether FCLK stood still then (R46), and a fail-safe transition that waits for FCLK to be charged (R400). -/
structure Pin where
  applied : Word := 0#32
  fs : Bool := true
  pend : Option Word := none
  clamp : Bool := false
  drv : BitVec 2 := 0#2
  drvHeld : Bool := false
  owed : Bool := false
  deriving DecidableEq, Repr

/-- An energy zone beside its registers: the charge of the window in fC, whether OVER was counted in this window, and the pins
that clamped in the running surge. -/
structure Zone where
  qacc : Nat := 0
  spent : Bool := false
  surge : List Nat := []
  deriving DecidableEq, Repr

/-! ### Ports (02_ports_and_integration.md) -/

/-- A user of the cipher port (R67). `command`: the token check of an OTP or reload command (R127), which the loader's unit
makes. `gone`: the user has abandoned its request, whose result is discarded (R508). -/
inductive CpUser where
  | image | command | clear | debug | link (n : Nat) | svc (i : Nat) | gone
  deriving DecidableEq, Repr

/-- A cipher request (R63): its user, CP_OP, CP_SLOT, CP_DSLOT, and what its beats carry: the 96-bit IV, AAD, DATA and TAG, by bytes. -/
structure CpReq where
  user : CpUser
  op : Nat
  slot : Nat
  dslot : Nat := 0
  iv : List Byte := []
  aad : List Byte := []
  data : List Byte := []
  tag : List Byte := []
  deriving DecidableEq, Repr

/-- A user of the TRNG (R74, R112, R127, R446, R477, R509). `session 4`: the session of every link. -/
inductive TrUser where
  | key | zero | nonce | recNonce | debug | session (n : Nat) | svc (i : Nat)
  deriving DecidableEq, Repr

/-- A TRNG request: its user, the words still wanted, the words delivered. -/
structure TrReq where
  user : TrUser
  want : Nat
  got : List Word := []
  deriving DecidableEq, Repr

/-- A host request that is outstanding (R35–R38), with the response decided: code and data. -/
structure HostReq where
  we : Bool
  addr : Addr
  size : Nat
  wdata : Word
  sec : Bool
  priv : Bool
  sent : Bool := false
  ans : Option (Nat × Word) := none
  deriving DecidableEq, Repr

/-- What the flash port is doing (R52–R62): an array read at an address with its retries used, answered INDET and to be retried or
not; a program or erase issued (its address and data; whether it is the second sequence); a sequence that failed once and is
to be issued again. -/
inductive FlashOp where
  | none
  | read (addr retries : Nat) (again : Bool)
  | issued (erase : Bool) (addr : Nat) (data : List Byte) (second : Bool)
  | retry
  deriving DecidableEq, Repr

/-- An access of the flash port (R54): a write of a register, a read of a register (`reg`) or of the array, its address, the data. -/
structure FlAcc where
  we : Bool
  reg : Bool
  addr : Word
  data : Word := 0#32
  deriving DecidableEq, Repr

/-- A command of the serial NVM port (R69): its code, its address where it has one, dummy cycles, and the lines of command, address and
data. -/
structure NvCmd where
  code : Nat
  addr : Option Nat := none
  dummy : Nat := 0
  lines : Nat × Nat × Nat := (1, 1, 1)
  deriving DecidableEq, Repr

/-- The ports beside their registers: cipher requests waiting, the one in progress, whether it has been re-issued, whether result
beats are being discarded after a resume (R67, R66); TRNG requests and TR_HEALTH; host requests outstanding, the response
code last given; the flash port's operation and the accesses it issued for it, in order; the commands of the last serial NVM read. -/
structure Ports where
  cpWait : List CpReq := []
  cpCur : Option CpReq := none
  cpAgain : Bool := false
  cpDiscard : Bool := false
  tr : List TrReq := []
  health : Bool := false
  hostQ : List HostReq := []
  hpRerr : Nat := 0
  flash : FlashOp := .none
  flOut : List FlAcc := []
  nvOut : List NvCmd := []
  deriving DecidableEq, Repr

/-! ### Built-in services (14_built_in_services.md) -/

/-- What DNP3 Secure Authentication waits for (R426): nothing, challenge words, the master's reply, the check of a MAC, an
unwrapped key, a tag over a message of its own, a key-status tag. -/
inductive DnpAuth where
  | none | words | reply | check | unwrap | tag | status
  deriving DecidableEq, Repr

/-- An event in the buffer of R425: its class, points word, value and time in ms; whether it is in a response that waits for
confirmation. -/
structure DnpEvent where
  cls : Nat
  point : Word
  value : Word
  ms : Nat
  sent : Bool := false
  deriving DecidableEq, Repr

/-- A DNP3 outstation (R422–R428): link states reset by the master and the expected FCB; the fragment in assembly and its next
sequence number; IIN bits (IIN1 low, IIN2 high); TOFS; enabled classes; the SELECT that waits; CONTROL messages still to send
(expecting a reply or not), the tag of the CONTROL that waits for a reply and the next tag; the request that the replies
answer; status codes collected; the event buffer; unsolicited state; link confirmation tries; session keys; the ASDU that
authentication holds; the last application fragment sent; the objects still to send in further fragments and the last one's sequence
number; the transport sequence number; segments that wait for a link confirmation, and the FCB of the next; the objects of the control
request that runs; the challenge sequence number, the last challenge sent or received; the time of the last freeze. -/
structure Dnp where
  reset : Bool := false
  fcb : Bool := false
  seg : Option (Nat × List Byte) := none
  iin : BitVec 16 := 0#16
  tofs : BitVec 48 := 0#48
  timeSet : Bool := false
  classes : Nat := 0
  sel : Option (List Byte) := none
  todo : List (List Word × Bool) := []
  ctlTag : Option Nat := none
  tag : Nat := 0
  req : Option (Nat × Bool) := none
  codes : List Nat := []
  events : List DnpEvent := []
  null : Bool := false
  unsolWait : Option Nat := none
  useq : Nat := 0
  dlTries : Option Nat := none
  keys : Bool := false
  asdus : Nat := 0
  fails : Nat := 0
  auth : DnpAuth := .none
  held : List Byte := []
  sent : List Byte := []
  more : List (List Byte) := []
  mseq : Nat := 0
  tseq : Nat := 0
  out : List (List Byte) := []
  ofcb : Bool := true
  ctl : List Byte := []
  csq : Word := 0#32
  chal : List Byte := []
  frz : BitVec 48 := 0#48
  deriving DecidableEq, Repr

/-- The pulse counter's filters and count (R433): filtered levels and run lengths of both inputs, samples since the last counted
edge. -/
structure Pulse where
  a : Option Bool := none
  b : Option Bool := none
  ra : Nat := 0
  rb : Nat := 0
  since : Nat := 0
  deriving DecidableEq, Repr

/-- A running service: messages held on a blocking send (channel and words, R413), characters received and not yet sent on
(R417), whether any were lost since the last message, the last characters put on the line, attempts of an SDI-12 request that failed (R429). -/
structure Svc where
  out : List (Nat × List Word) := []
  rx : List Byte := []
  missed : Bool := false
  line : List Byte := []
  tries : Nat := 0
  dnp : Dnp := {}
  pulse : Pulse := {}
  deriving DecidableEq, Repr

/-! ### Canopy links (15_canopy_links.md) -/

/-- A frame type (R442). -/
inductive FType where
  | hello | ack | cdata | credit | sync | grant | bdata | freeze | time | recov
  deriving DecidableEq, Repr

/-- A sequenced frame on its way out of a link: the source it entered from (an inbound link, or 4: this node), the channel whose
head message it carries, the number of a broadcast message in its channel, and how often it was retransmitted. -/
structure LkEnt where
  ty : FType
  f : LinkFrame
  src : Nat
  origin : Option Nat := none
  num : Nat := 0
  tries : Nat := 0
  deriving DecidableEq, Repr

/-- What a GCM link's cipher request is for (R451, R452): a frame to be sent, or a received one to be checked, with canopy time and BT at
its arrival (R462). -/
inductive LkJob where
  | send (ty : FType) (f : LinkFrame)
  | check (ty : FType) (f : LinkFrame) (ct bt : BitVec 64)
  deriving DecidableEq, Repr

/-- A link beside its registers: UP; running as the recovery link, and in which mode; LnRX_LOCK; own and peer's session; the
TXCNT last sent and the highest accepted; next SEQ to give and next SEQ expected; retransmit store; frames waiting to be sent,
and whose turn it is; the receive store; the peer's last ACK and RWIN; cipher requests outstanding; an ACK and a SACK due; time
stamps (TSN, last departures, last arrival); RECOV frame in flight; the last frame put on the line. -/
structure Link where
  up : Bool := false
  recov : Bool := false
  rfast : Bool := false
  lock : Bool := false
  session : Word := 0#32
  peerSes : Word := 0#32
  txcnt : Nat := 0
  peerTx : Nat := 0
  seq : Nat := 0
  next : Nat := 0
  store : List LkEnt := []
  wait : List LkEnt := []
  turn : Nat := 0
  rstore : List (FType × LinkFrame) := []
  peerAck : Nat := 0
  peerRwin : Nat := 0
  jobs : List LkJob := []
  ackDue : Bool := false
  sacked : Bool := false
  tsn : Nat := 0
  deps : List (Nat × BitVec 64) := []
  arr : Option (Nat × BitVec 64) := none
  busy : Bool := false
  line : Option (FType × LinkFrame) := none
  deriving DecidableEq, Repr


/-! ### Security (17_protection_and_alarms.md) -/

/-- How far a zeroise has come (R508): none; raised and not begun; keys replaced
and stands drained, the clear to be made; cleared. -/
inductive ZStep where
  | none
  | asked
  | drained
  | cleared
  deriving DecidableEq, Repr

/-- The security unit beside its registers: the zeroise, its alarm source, whether FREEZE follows it; sources whose responses a freeze
holds (R532); the source of the first alarm response with FREEZE among the causes of the freeze (R507); the lock word read in P1
(R510); the debug-port unlock; the UNLOCK command whose check runs; the lockout started, in seconds, 0 when none runs (R512);
a challenge that no check has consumed (R511); failures in a row modulo 3 (R512);
whether AON_OK has fallen since the last cold reset (R94, AONLOST). -/
structure Sec where
  zero : ZStep := .none
  zsrc : Nat := 9
  zfreeze : Bool := false
  held : List Nat := []
  frzSrc : Option Nat := none
  lockRead : Bool := false
  unlocked : Bool := false
  unlockCtl : Option Word := none
  lockout : Nat := 0
  fresh : Bool := false
  failRun : Nat := 0
  aonLost : Bool := false
  deriving DecidableEq, Repr

/-! ### The test access port and the freeze controller (18_debug_and_freeze.md) -/

/-- The test access port and the freeze: the instruction register, the data register as last captured, the outcome of the last
DBGACC access (DATA and STATUS) and one that still waits (R309, R515), and for the freeze in force the domains that did not acknowledge and those that gated late (R529), the always-on counters at completion
(R535), and whether the scratchpad section was refused (R374). -/
structure Dbg where
  ir : BitVec 5 := 1#5
  dr : BitVec 64 := 0#64
  accData : Word := 0#32
  accStat : BitVec 2 := 0#2
  accPend : Option (Bool × Addr × Word) := none
  notack : Nat := 0
  late : Nat := 0
  aon : RStamp := {}
  excl : Bool := false
  deriving DecidableEq, Repr

/-! ### The image loader and OTP programming (04_startup_and_configuration_image.md) -/

/-- A running image load (R134–R137, R148): its source (1 serial NVM, 2 chip flash, 3 stream); for a link stream the link, the node
and the TAG of its last IMAGE frame; the bytes taken; whether this is the second source (R134); the image as parsed once every byte
is there; whether its tag has been found right; whether its check was re-issued (R66). -/
structure Load where
  src : Nat
  link : Option (Nat × Word × Nat) := none
  bytes : List Byte := []
  second : Bool := false
  image : Option Image := none
  ok : Bool := false
  again : Bool := false
  deriving DecidableEq, Repr

/-- An OTP command in progress (R126–R130): its command word, whether its token is still under check, the steps still to be
burned (word and bits), all that it burns, and whether the step in progress when a freeze came has completed. -/
structure OtpOp where
  ctl : Word
  check : Bool
  steps : List (Nat × Word)
  all : List (Nat × Word)
  stepped : Bool := false
  deriving DecidableEq, Repr

/-- The loader and the OTP unit: the running load; the OTP command; the RELOAD command whose token is under check (R147); whether
the delay lines are locked (R142). -/
structure Boot where
  load : Option Load := none
  otp : Option OtpOp := none
  reload : Option Word := none
  locked : Bool := false
  deriving DecidableEq, Repr

/-! ### The whole state -/

/-- The state of the block. -/
structure State where
  /-- Commands waiting, first in first out. -/
  pending : List Instr := []
  /-- BC_MODE.MODE (R25). -/
  mode : Mode := .boot
  /-- BC_MODE.PHASE (R25). -/
  phase : Nat := 0
  /-- The build configuration (R1). -/
  kind : Config.Kind := .veteran
  /-- PWR_OK (R79). -/
  power : Bool := true
  /-- Unit registers by block-local address; an unlisted one holds its reset value. -/
  regs : List (Nat × Word) := []
  /-- Scratchpad and program memories by byte address, in plain data (R348, notes/assumptions/9.md). -/
  mem : List Host.Cell := []
  /-- The 16-byte words of program memories that are uncorrectable, by address / 16 (R168, R221, R359). -/
  upset : List (Nat × Bool) := []
  /-- Threads by number. -/
  threads : List (Nat × Thread) := []
  /-- Channels by number. -/
  chans : List (Nat × Chan) := []
  /-- The channel pool by word (R249). -/
  pool : List (Nat × PWord) := []
  /-- The last parking stamp given (R256). -/
  stamp : Nat := 0
  /-- Free values drawn so far (notes/assumptions/4.md). -/
  draws : Nat := 0
  /-- Pulses that are to fire a route, oldest first: the route and the producer (R338, R341). -/
  fires : List (Nat × Nat) := []
  /-- Deliveries in the crossings, by consumer number, oldest first (R341). -/
  delivs : List Nat := []
  /-- Busy views by consumer number; of a timer's count input the events sent and not yet taken (R342). -/
  busyV : List (Nat × Nat) := []
  /-- The scratchpad unit. -/
  sp : SpUnit := {}
  /-- Timers by number. -/
  tmrs : List (Nat × Tmr) := []
  /-- Block time. -/
  bt : BlockTime := {}
  /-- The host pair latch: the address of the high word it is tagged with, and that word (R324). -/
  pairLatch : Option (Nat × Word) := none
  /-- Settings whose complement shadow differs: group and number within the group (R499). -/
  shadow : List (Nat × Nat) := []
  /-- The word that the last command that reads a register returned (the model's own record of the answer). -/
  rdata : Word := 0#32
  /-- The recorder. -/
  recd : Recorder := {}
  /-- The always-on counters HOURS, SECS and PCC (R468, R469). -/
  aon : RStamp := {}
  /-- Alarm sources raised whose response has not begun, oldest first (R504, R506). -/
  raised : List Nat := []
  /-- Freeze triggers seen and not yet acted on: bits of DBG_FRZCAUSE (R526). -/
  frzTrig : List Nat := []
  /-- Stands by number. -/
  stands : List (Nat × Stand) := []
  /-- The deadlock detector. -/
  det : Detector := {}
  /-- Shift engines by number. -/
  ses : List (Nat × SeUnit) := []
  /-- Calibrators by 32 · engine + group pin. -/
  cals : List (Nat × Cal) := []
  /-- The OTP array by word; a blank word is 0 (R117). -/
  otp : List (Nat × Word) := []
  /-- The active settings generation of this pass, if P1 found one (R120). -/
  gen : Option Nat := none
  /-- The image whose settings are committed, from which stands and threads restart (R105). -/
  image : Option Image := none
  /-- Field pins by number. -/
  pins : List (Nat × Pin) := []
  /-- Energy zones by number. -/
  zones : List (Nat × Zone) := []
  /-- Pad input levels by field pin, as last seen (R389). -/
  pads : List (Nat × Bool) := []
  /-- The ports. -/
  ports : Ports := {}
  /-- Service instances by number. -/
  svcs : List (Nat × Svc) := []
  /-- Links by number. -/
  links : List (Nat × Link) := []
  /-- A FREEZE has been sent on and its acknowledgements are awaited (R461). -/
  frzWait : Bool := false
  /-- RECOV frames taken from receive stores and not yet served: link and frame (R464). -/
  recovQ : List (Nat × LinkFrame) := []
  /-- The security unit. -/
  sec : Sec := {}
  /-- The test access port and the freeze controller. -/
  dbg : Dbg := {}
  /-- The image loader and the OTP unit. -/
  boot : Boot := {}
  deriving DecidableEq, Repr

/-- The machine right after reset: after a cold reset, in BOOT, phase P0, every register at its reset value (R14), no
command waiting. -/
def State.reset : State := {}

end Machine
end Sys2Proof
end

