-- ==== Sys2Proof/Machine/Ops.lean ====
section
/-! DEFINITION. The named operations over registers, memory, threads and channels, and the operations every unit uses:
recorder updates, alarm sources, event pulses. -/
namespace Sys2Proof
namespace Machine

/-! ### Unit registers -/

/-- The stored word of the register at an address. -/
def State.reg (s : State) (a : Nat) : Word := Bank.get regReset s.regs a
/-- A stored word written. -/
def State.setReg (s : State) (a : Nat) (v : Word) : State := { s with regs := Bank.put regReset s.regs a v }
/-- A stored word changed. -/
def State.modReg (s : State) (a : Nat) (f : Word → Word) : State := s.setReg a (f (s.reg a))
/-- Bit `k` of a register. -/
def State.rbit (s : State) (a k : Nat) : Bool := (s.reg a).getLsbD k
/-- Field [lo+n-1 : lo] of a register. -/
def State.rfld (s : State) (a lo n : Nat) : Nat := fld (s.reg a) lo n
/-- Bit `k` of a register set. -/
def State.rset (s : State) (a k : Nat) : State := s.modReg a (fun w => setBit w k)
/-- Bit `k` of a register cleared. -/
def State.rclr (s : State) (a k : Nat) : State := s.modReg a (fun w => clrBit w k)
/-- Bit `k` of a register made `b`. -/
def State.rput (s : State) (a k : Nat) (b : Bool) : State := s.modReg a (fun w => putBit w k b)
/-- A field of a register written. -/
def State.rsetFld (s : State) (a lo n v : Nat) : State := s.modReg a (fun w => setFld w lo n v)
/-- A field of a register counted up by `k`, saturating (R545). -/
def State.rcount (s : State) (a lo n k : Nat) : State := s.modReg a (fun w => satFld w lo n k)

/-- What a command of a clock domain that a freeze gates does: nothing while the block is HALTED (R528, R530). -/
def State.gated (s t : State) : State := if s.mode = .halted then s else t

/-! ### Threads and channels -/

/-- Thread `t`. -/
def State.thr (s : State) (t : Nat) : Thread := Bank.get (fun _ => ({} : Thread)) s.threads t
/-- Thread `t` written. -/
def State.setThr (s : State) (t : Nat) (h : Thread) : State :=
  { s with threads := Bank.put (fun _ => ({} : Thread)) s.threads t h }
/-- Thread `t` changed. -/
def State.modThr (s : State) (t : Nat) (f : Thread → Thread) : State := s.setThr t (f (s.thr t))
/-- Channel `c`. -/
def State.chan (s : State) (c : Nat) : Chan := Bank.get (fun _ => ({} : Chan)) s.chans c
/-- Channel `c` written. -/
def State.setChan (s : State) (c : Nat) (h : Chan) : State :=
  { s with chans := Bank.put (fun _ => ({} : Chan)) s.chans c h }
/-- Channel `c` changed. -/
def State.modChan (s : State) (c : Nat) (f : Chan → Chan) : State := s.setChan c (f (s.chan c))

/-- g register `r` (R188: g0 reads 0). -/
def Thread.rg (h : Thread) (r : Nat) : Word := if r = 0 then 0#32 else Bank.get (fun _ => 0#32) h.g r
/-- g register `r` written (R188: a write to g0 is discarded). -/
def Thread.wg (h : Thread) (r : Nat) (v : Word) : Thread :=
  if r = 0 then h else { h with g := Bank.put (fun _ => 0#32) h.g r v }
/-- The register pair of even `k` (R189). -/
def Thread.rpair (h : Thread) (k : Nat) : BitVec 64 := (h.rg (k + 1)) ++ (h.rg k)
/-- Index unit `n`. -/
def Thread.rx (h : Thread) (n : Nat) : XUnit := Bank.get (fun _ => ({} : XUnit)) h.x n
/-- Index unit `n` written. -/
def Thread.wx (h : Thread) (n : Nat) (u : XUnit) : Thread :=
  { h with x := Bank.put (fun _ => ({} : XUnit)) h.x n u }
/-- Port `p` of a thread (R253). -/
def Thread.port (h : Thread) (p : Nat) : PortBind := Bank.get (fun _ => ({} : PortBind)) h.ports p
/-- Port `p` written. -/
def Thread.setPort (h : Thread) (p : Nat) (b : PortBind) : Thread :=
  { h with ports := Bank.put (fun _ => ({} : PortBind)) h.ports p b }
/-- The class of a thread (tst.CLASS, R153). -/
def Thread.cls (h : Thread) : Cls := if fld h.tst 8 2 = 1 then .strict else if fld h.tst 8 2 = 2 then .elastic else .idle
/-- Twinned (tst.TWIN). -/
def Thread.twin (h : Thread) : Bool := h.tst.getLsbD 10
/-- Copy B (tst.COPYB). -/
def Thread.copyB (h : Thread) : Bool := h.tst.getLsbD 11
/-- The owner stand (tst.STAND). -/
def Thread.stand (h : Thread) : Nat := fld h.tst 16 4
/-- Inside a trap (tst.INTRAP). -/
def Thread.inTrap (h : Thread) : Bool := h.tst.getLsbD 4

/-- The other copy of a twinned pair: thread number XOR 64 (R21). -/
def partner (t : Nat) : Nat := if t < 64 then t + 64 else t - 64
/-- The thread that a debugger command or restart of `t` also names: both copies of a pair (R99, R181). -/
def State.copies (s : State) (t : Nat) : List Nat := if (s.thr t).twin then [t, partner t] else [t]

/-! ### Memory, byte by byte -/

/-- The byte at an address of the scratchpad or a program memory; an unlisted byte reads 0, what the fill of P2
leaves (R131). -/
def State.byte (s : State) (a : Nat) : Byte := Bank.get (fun _ => 0#8) s.mem a
/-- A byte written. -/
def State.setByte (s : State) (a : Nat) (v : Byte) : State := { s with mem := Bank.put (fun _ => 0#8) s.mem a v }
/-- `n` bytes from an address, as a little-endian number (R6). -/
def State.readLE (s : State) (a : Nat) : Nat → Nat
  | 0 => 0
  | n + 1 => (s.byte a).toNat + 256 * State.readLE s (a + 1) n
/-- `n` little-endian bytes of a number written from an address on (R6). -/
def State.writeLE (s : State) (a : Nat) : Nat → Nat → State
  | 0, _ => s
  | n + 1, v => (s.setByte a (BitVec.ofNat 8 v)).writeLE (a + 1) n (v / 256)
/-- A list of bytes written from an address on. -/
def State.writeBytes (s : State) (a : Nat) : List Byte → State
  | [] => s
  | b :: r => (s.setByte a b).writeBytes (a + 1) r
/-- The canonical form of memory. -/
abbrev Memory.wf (m : List Host.Cell) : Bool := Bank.wf (fun _ => 0#8) m

/-- Some of the `n` bytes from an address lie in an uncorrectable word of a program memory (R168, R221, R359). -/
def State.upsetIn (s : State) (a n : Nat) : Bool :=
  (List.range ((a + n - 1) / 16 + 1 - a / 16)).any (fun k => Bank.get (fun _ => false) s.upset (a / 16 + k))
/-- A word of a program memory that has become uncorrectable. -/
def State.setUpset (s : State) (w : Nat) : State := { s with upset := Bank.put (fun _ => false) s.upset w true }

/-- Bytes of an access size (R196). -/
def sizeBytes : Size → Nat
  | .b8 => 1
  | .b16 => 2
  | .b32 => 4
  | .b64 => 8

/-! ### Free values -/

/-- The free value that comes next (notes/assumptions/4.md). -/
def State.free (s : State) : Word := Config.freeWord s.draws
/-- The state after a free value was drawn. -/
def State.drew (s : State) : State := { s with draws := s.draws + 1 }

/-! ### Event producers, recorder updates, alarm sources, freeze triggers -/

/-- Compatibility mode (R339): EV_CTL.COMPAT. -/
def State.compat (s : State) : Bool := s.rbit rEvCtl 0
/-- Bit of row `p`, column `c` of the matrix (EV_MATw). -/
def State.matBit (s : State) (p c : Nat) : Bool := s.rbit (rEvMat (8 * p + c / 32)) (c % 32)
/-- The row of a producer in compatibility mode (R339). -/
def matRow (q : Nat) : Option Nat := if q < 240 then some q else if 256 ≤ q then some (q - 16) else none

/-- The routes with a record that producer `q` is enabled on (R337, R339). -/
def State.routesOf (s : State) (q : Nat) : List Nat :=
  if s.compat then
    match matRow q with
    | some p => members 256 (fun c => s.rbit (rEvCfg c) 20 && s.matBit p c)
    | none => []
  else if q < 256 then
    ((List.range 7).map (fun j => (j, (q + 256 - 32 * j) % 256))).filterMap (fun p =>
      if s.rbit (rEvCfg p.2) 20 && s.rbit (rEvCfg p.2) p.1 then some p.2 else none)
  else members 256 (fun r => decide (r % 16 = q - 256) && s.rbit (rEvCfg r) 20 && s.rbit (rEvCfg r) 7)

/-- One pulse on event producer `q` (R338): each route it is enabled on is to fire. -/
def State.pulse (s : State) (q : Nat) : State := { s with fires := s.fires ++ (s.routesOf q).map (fun r => (r, q)) }

/-- Two updates that merge: same key, same bin (R472). -/
def RecUpd.merges (a b : RecUpd) : Bool :=
  decide (a.key = b.key) &&
  match a.dat, b.dat with
  | .bin x _, .bin y _ => decide (x = y)
  | _, _ => false

/-- The count of `b` added to the queued update `a` (R472). -/
def RecUpd.add (a b : RecUpd) : RecUpd :=
  match a.dat, b.dat with
  | .bin x n, .bin _ m => { a with dat := .bin x (n + m) }
  | _, _ => a

/-- The queue with an update merged into the entry it matches, if any (R472). -/
def recMerge (u : RecUpd) : List RecUpd → Option (List RecUpd)
  | [] => none
  | a :: r => if a.merges u then some (a.add u :: r) else (recMerge u r).map (a :: ·)

/-- A unit's update sent to the recorder's queue: merged, queued, or lost and counted in ER_QLOST (R472). -/
def State.recPush (s : State) (u : RecUpd) : State :=
  match recMerge u s.recd.queue with
  | some q => { s with recd := { s.recd with queue := q } }
  | none =>
    if s.recd.queue.length < 32 then { s with recd := { s.recd with queue := s.recd.queue ++ [u] } }
    else s.rcount rErQlost 0 32 1

/-- One count in a bin of a histogram metric (R470). -/
def State.recBin (s : State) (unit metric index bin sev : Nat) : State :=
  s.recPush { key := { unit := unit, metric := metric, index := index }, sev := sev, dat := .bin bin 1 }

/-- One value for an extreme metric (R470). -/
def State.recVal (s : State) (unit metric index v sev : Nat) : State :=
  s.recPush { key := { unit := unit, metric := metric, index := index }, sev := sev, dat := .value v }

/-- An alarm source raised (R504): counted, recorded in SEC.ALARM, LASTSRC loaded, PEND set for an internal source;
its response is then due (R506). -/
def State.raise (s : State) (src : Nat) : State :=
  let s := if 8 ≤ src then s.rset rSecInStat src else s
  let s := s.rcount (rSecAcnt src) 0 16 1
  let s := s.rsetFld rSecStat 8 4 src
  let s := s.recBin 0x0C 0x01 0 src 4
  { s with raised := s.raised ++ [src] }

/-- A freeze trigger of R526: it acts only in RUN; in BOOT, RECOVERY and TEST it sets IGNORED (R527). In HALTED the
freeze is complete and the trigger is only recorded. -/
def State.freezeTrigger (s : State) (bit : Nat) : State :=
  match s.mode with
  | .run => { s with frzTrig := s.frzTrig ++ [bit] }.rset rDbgFrzCause bit
  | .halted => s.rset rDbgFrzCause bit
  | _ => s.rset rDbgFrzStat 2

/-! ### Stands -/

/-- Stand `n`. -/
def State.stand (s : State) (n : Nat) : Stand := Bank.get (fun _ => ({} : Stand)) s.stands n
/-- Stand `n` changed. -/
def State.modStand (s : State) (n : Nat) (f : Stand → Stand) : State :=
  { s with stands := Bank.put (fun _ => ({} : Stand)) s.stands n (f (s.stand n)) }
/-- STCn_STAT.STATE (R20, R105): 0 EMPTY, 1 RUNNING, 2 RESTARTING, 3 PARKED, 4 HELD, 5 NOTREL. -/
def State.standState (s : State) (n : Nat) : Nat := s.rfld (rStcStat n) 0 3

/-- A cause latched in STCn_CAUSE, with ALARMID for an alarm cause (R105). -/
def State.latchCause (s : State) (n bit alarm : Nat) : State :=
  let s := s.rset (rStcCause n) bit
  if bit = 6 then s.rsetFld (rStcCause n) 8 4 alarm else s

/-- A stand restart requested (R105): nothing for a stand that is EMPTY or not released (R20); while a restart runs its
cause is added and no second restart starts (R109); else it waits to be accepted. -/
def State.askStand (s : State) (n bit alarm : Nat) : State :=
  if s.standState n = 0 ∨ s.standState n = 5 then s
  else if (s.stand n).step ≠ .none then (s.latchCause n bit alarm).modStand n (fun d => { d with causes := d.causes ||| 2 ^ bit })
  else s.modStand n (fun d =>
    { d with req := true, causes := d.causes ||| 2 ^ bit, alarmId := if bit = 6 then alarm else d.alarmId })

/-- The complement shadow of setting `i` of group `g` differs (R499). -/
def State.shBad (s : State) (g i : Nat) : Bool := s.shadow.contains (g, i)

/-- A shadow mismatch in group `g` (R499). -/
def State.shGroup (s : State) (g : Nat) : Bool := s.shadow.any (fun p => decide (p.1 = g))

/-- A set of numbers below `n` as one mask. -/
def maskOf (n : Nat) (p : Nat → Bool) : Nat := (List.range n).foldl (fun m k => if p k then m + 2 ^ k else m) 0

/-- The state folded over the numbers of a list. -/
def State.each (s : State) (l : List Nat) (f : State → Nat → State) : State := l.foldl f s

end Machine
end Sys2Proof
end

