-- ==== Sys2Proof/Machine/Operands.lean ====
section
/-! DEFINITION. Operand forms: register pairs, address forms, the index units' post-modify, bit-field descriptors, and
the value sets of R202. -/
namespace Sys2Proof
namespace Machine

/-- A register field that names a pair must be even (R199). -/
def evenReg (r : Reg) : Bool := r.val % 2 = 0

/-- The address an access form gives (R204). -/
def formAddr (f : AddrForm) (h : Thread) : Addr :=
  match f with
  | .idx xn => (h.rx xn).xb + (h.rx xn).xi
  | .idxPost xn => (h.rx xn).xb + (h.rx xn).xi
  | .idxReg xn gb => (h.rx xn).xb + (h.rx xn).xi + (h.rg gb).setWidth 24
  | .disp ga d => (h.rg ga).setWidth 24 + d.setWidth 24

/-- XI after one post-modify (R205). -/
def postXi (u : XUnit) : Addr :=
  match u.mode.toNat with
  | 0 => u.xi + u.xs
  | 1 =>
    let l : Int := if u.xl = 0#24 then 0x1000000 else u.xl.toNat
    let v : Int := u.xi.toNat + u.xs.toInt
    BitVec.ofInt 24 (if l ≤ v then v - l else if v < 0 then v + l else v)
  | 2 =>
    let k := if u.xl = 0#24 then 24 else msbPos u.xl.toNat 24
    let m := u.esz.toNat
    if m < k then
      let w := k - m
      let a := (u.xi.toNat / 2 ^ m) % 2 ^ w
      let b := (u.xs.toNat / 2 ^ m) % 2 ^ w
      let f := revLow ((revLow a w + revLow b w) % 2 ^ w) w
      BitVec.ofNat 24 (u.xi.toNat % 2 ^ m + f * 2 ^ m + (u.xi.toNat / 2 ^ k) * 2 ^ k)
    else u.xi
  | _ => u.xi

/-- Index unit `xn` after one post-modify. -/
def Thread.postMod (h : Thread) (xn : Nat) : Thread := h.wx xn { h.rx xn with xi := postXi (h.rx xn) }

/-- The index unit's change that an access form makes (R204). -/
def formPost (f : AddrForm) (h : Thread) : Thread :=
  match f with
  | .idxPost xn => h.postMod xn
  | _ => h

/-- Aligned to its size (R182). -/
def aligned (a : Addr) (sz : Size) : Bool := a.toNat % sizeBytes sz = 0

/-- POS of a field descriptor (R243). -/
def descPos (d : Nat) : Nat := d % 32
/-- LEN of a field descriptor (R243). -/
def descLen (d : Nat) : Nat := (d / 32) % 32 + 1
/-- A legal u16 field descriptor (R202). -/
def descOk (d : BitVec 16) : Bool := decide (d.toNat < 1024) && decide (descPos d.toNat + descLen d.toNat ≤ 32)

/-- EXT: the field, zero-extended (R243; a field that would pass bit 31 ends there, R244). -/
def extW (a : Word) (pos len : Nat) : Word := (a >>> pos) &&& fmask 0 len
/-- EXTS: the field, sign-extended from bit LEN − 1 (R243). -/
def extsW (a : Word) (pos len : Nat) : Word := sext len (fld a pos len)
/-- INS: the low bits of `a` in a field of `d` (R243, R244). -/
def insW (d a : Word) (pos len : Nat) : Word := (d &&& ~~~ fmask pos len) ||| ((a <<< pos) &&& fmask pos len)

/-- A shift or bit constant in 0–31 (R202). -/
def kOk (k : Byte) : Bool := decide (k.toNat < 32)

/-- XSET of a field (R189 field tables, R235). -/
def XUnit.setField (u : XUnit) (f : Nat) (v : Word) : XUnit :=
  match f with
  | 0 => { u with xb := v.setWidth 24 }
  | 1 => { u with xi := v.setWidth 24 }
  | 2 => { u with xl := v.setWidth 24 }
  | 3 => { u with xs := v.setWidth 24 }
  | 4 => { u with mode := if fld v 0 2 = 3 then 0#2 else v.setWidth 2, esz := (v >>> 2).setWidth 2 }
  | _ => u

/-- XGET of a field: XS sign-extended, every other field zero-extended (R235). -/
def XUnit.getField (u : XUnit) (f : Nat) : Word :=
  match f with
  | 0 => u.xb.setWidth 32
  | 1 => u.xi.setWidth 32
  | 2 => u.xl.setWidth 32
  | 3 => u.xs.signExtend 32
  | 4 => u.mode.setWidth 32 ||| (u.esz.setWidth 32 <<< 2)
  | _ => 0#32

end Machine
end Sys2Proof
end

