-- ==== Sys2Proof/Machine/Thread.lean ====
section
/-! DEFINITION. What every thread instruction shares: when a thread can issue (R154), register writes and deferred
results (R162, R163), halts, breakpoints and watchpoints (R516–R525), traps (R182–R185), and the issue of one
instruction. -/
namespace Sys2Proof
namespace Machine

/-! ### Register writes and deferred results -/

/-- A pending deferred result no longer writes a register that a later instruction has written (R163). -/
def Deferred.cancel (d : Deferred) (r : Nat) : Deferred := { d with dests := d.dests.filter (fun p => p.1 != r) }

/-- A register written by an instruction: older deferred results to it never overwrite it (R163). -/
def Thread.write (h : Thread) (r : Nat) (v : Word) : Thread :=
  { h.wg r v with defer := h.defer.map (fun d => d.cancel r) }

/-- A register pair written (R189). -/
def Thread.writePair (h : Thread) (k : Nat) (v : BitVec 64) : Thread := (h.write k (loW v)).write (k + 1) (hiW v)

/-- The word of a deferred value that goes to a destination. -/
def destWord (v : BitVec 64) (hi : Bool) : Word := if hi then hiW v else loW v

/-- The registers of a deferred result written. -/
def Thread.writeDests (h : Thread) (v : BitVec 64) : List (Nat × Bool) → Thread
  | [] => h
  | (r, hi) :: l => (h.wg r (destWord v hi)).writeDests v l

/-- Every deferred result that is due and whose value is here is written, in program order; an older result still
outstanding then no longer writes the same registers (R163). -/
def Thread.writeDue (h : Thread) (kept : List Deferred) : List Deferred → Thread
  | [] => { h with defer := kept }
  | d :: r =>
    match d.wait, d.st with
    | 0, .ready v =>
      (h.writeDests v d.dests).writeDue (kept.map (fun k => d.dests.foldl (fun k p => k.cancel p.1) k)) r
    | _, _ => h.writeDue (kept ++ [d]) r

/-- One instruction of the thread has passed WB: deferred results come one instruction nearer, and those due are
written after the instruction's own write (R163). -/
def Thread.retire (h : Thread) : Thread :=
  h.writeDue [] (h.defer.map (fun d => { d with wait := d.wait - 1 }))

/-- A result deferred by `n` following instructions, its value known (R163: MUL, MAC and their kin have n = 2). -/
def Thread.deferVal (h : Thread) (dests : List (Nat × Bool)) (n : Nat) (v : BitVec 64) : Thread :=
  { h with defer := h.defer ++ [{ dests := dests, wait := n + 1, st := .ready v }] }

/-- The thread is in a long stall (R155): its own instruction's, or that of an access that is late. -/
def Thread.longStall (h : Thread) : Bool := decide (h.stall ≠ .none) || h.fetchLate || h.defer.any (fun d => d.late)

/-- The value that a CHK-prefixed instruction's record waited for (R178); none where nothing is written: the resolved next PC. -/
def Thread.chkDone (h : Thread) (pc : Option Addr) (v : Option (BitVec 64)) : Thread :=
  match pc with
  | none => h
  | some a => { h with recs := h.recs.map (fun r => match r with
      | .chkWait b n => if a = b then .chk b.toNat (v.getD (n.setWidth 64)) else r
      | _ => r) }

/-- The data of every load and ATOM issued as instruction j − 2 or earlier is here (R164). -/
def Thread.resultsIn (h : Thread) : Bool :=
  h.defer.all (fun d => match d.wait, d.st with
    | 0, .waiting => false
    | 0, .flight _ => false
    | 0, .failed => false
    | _, _ => true)

/-! ### Stands, halts, breakpoints -/

/-- The threads of a stand: its threads of a class other than idle (R17). -/
def State.standThreads (s : State) (n : Nat) : List Nat :=
  members 128 (fun t => decide ((s.thr t).cls ≠ .idle) && decide ((s.thr t).stand = n))

/-- A thread halted by the debugger (R516); a halted thread stays as it is (R561). -/
def State.haltOne (s : State) (t : Nat) : State :=
  if (s.thr t).halted then s
  else { s with stamp := s.stamp + 1 }.modThr t (fun h => { h with halted := true, step := false, haltTag := s.stamp + 1 })

/-- A halt that names a thread acts on both copies of a pair (R181, R516). -/
def State.haltThread (s : State) (t : Nat) : State := s.each (s.copies t) State.haltOne

/-- A stand halted (R520): its threads; DBG_SHALT holds its shift engines, its FRZ_DBG timers and its watchdog. -/
def State.haltStand (s : State) (n : Nat) : State :=
  if s.rbit rDbgShalt n then s else (s.rset rDbgShalt n).each (s.standThreads n) State.haltOne

/-- The thread or stand that a breakpoint or watchpoint control word selects is the issuing thread's (R523). -/
def ctlSelects (s : State) (ctl : Word) (t : Nat) : Bool :=
  ctl.getLsbD 0 &&
  (if ctl.getLsbD 1 then decide (fld ctl 16 4 = (s.thr t).stand) else (s.copies t).contains (fld ctl 8 7))

/-- The breakpoints that match an instruction at `pc` (R523). -/
def State.bpHits (s : State) (t : Nat) (pc : Addr) : List Nat :=
  members 8 (fun i => decide (fld (s.reg (rDbgBpAddr i)) 0 24 = pc.toNat) && ctlSelects s (s.reg (rDbgBpCtl i)) t)

/-- The watchpoints that match an access (R524). -/
def State.wpHits (s : State) (t : Nat) (a : Addr) (n : Nat) (rd wr : Bool) : List Nat :=
  members 4 (fun i =>
    let ctl := s.reg (rDbgWpCtl i)
    ((rd && ctl.getLsbD 4) || (wr && ctl.getLsbD 5)) &&
    decide (fld (s.reg (rDbgWpLo i)) 0 24 < a.toNat + n) && decide (a.toNat ≤ fld (s.reg (rDbgWpHi i)) 0 24) &&
    ctlSelects s ctl t)

/-- What a match does (R525): its HITSTAT bit and LASTT, the breakpoint trigger where the stand has FTBP, and ACT. -/
def State.hitMatch (s : State) (t bit : Nat) (ctl : Word) : State :=
  let s := (s.rset rDbgHitStat bit).rsetFld rDbgHitStat 24 7 t
  let n := (s.thr t).stand
  let s := if s.rbit (rStcCfg n) 8 then s.freezeTrigger 2 else s
  if fld ctl 2 2 = 0 then s.haltThread t else if fld ctl 2 2 = 1 then s.haltStand n else s

/-- Breakpoint matches acted on: the instruction is killed, PC keeps its address (R523, R525). -/
def State.bpStop (s : State) (t : Nat) (l : List Nat) : State :=
  s.each l (fun s i => s.hitMatch t i (s.reg (rDbgBpCtl i)))

/-- Watchpoint matches acted on: the access completes, the thread halts before its next issue (R524, R525). -/
def State.wpStop (s : State) (t : Nat) (l : List Nat) : State :=
  s.each l (fun s i => s.hitMatch t (8 + i) (s.reg (rDbgWpCtl i)))

/-! ### Traps -/

/-- What a trap is taken for: its cause code (R182) and what En_TFAs records, where it records. -/
structure TrapInfo where
  cause : Nat
  tfa : Option Nat := none
  deriving DecidableEq, Repr

/-- En_TFAs written with an address or channel field and the cause code (R182, R233). -/
def State.setTfa (s : State) (t cause v : Nat) : State :=
  s.setReg (rETfa t) (BitVec.ofNat 32 (v % 2 ^ 24 + (cause % 16) * 2 ^ 24))

/-- A thread restart requested: it acts on both copies of a pair (R97, R99); absorbed where the stand restarts (R96). -/
def State.askRestart (s : State) (t : Nat) : State :=
  if s.standState (s.thr t).stand = 1 then s.each (s.copies t) (fun s t => s.modThr t (fun h => { h with restarting := true })) else s

/-- A trap entered (R183): tpc, tst.CAUSE, tst.IMPR, tst.INTRAP; the thread continues at tvec. A trap while INTRAP = 1
starts a thread restart instead (R184). -/
def State.trapTo (s : State) (t cause : Nat) (impr multi : Bool) (pc : Addr) : State :=
  if (s.thr t).inTrap then s.askRestart t
  else s.modThr t (fun h =>
    { h with
      tpc := pc
      pc := h.tvec
      tst := putBit (setBit (putBit (setFld h.tst 0 4 cause) 5 impr) 4) 6 (multi || h.tst.getLsbD 6) })

/-- A precise trap (R183): the instruction has no effect; BUSERR, MISALIGN and CHANERR record En_TFAs (R182), SIGFAULT
raises source 10 and counts in SEC.SIG (R501). -/
def State.preciseTrap (s : State) (t : Nat) (tr : TrapInfo) (pc : Addr) : State :=
  let s := match tr.tfa with
    | some v => s.setTfa t tr.cause v
    | none => s
  let s := if tr.cause = 5 then (s.recBin 0x0C 0x03 t 0 3).raise 10 else s
  s.trapTo t tr.cause false false pc

/-! ### Issue -/

/-- A thread can issue (R154): the block is in RUN, the thread is released and of a class that issues, not halted, not
restarting, its stand is running, it is in no long stall and no short wait, and no imprecise trap is due. An operation held in the
engine is no wait until its stall is recognised (R155). `cp`: the instruction is a compare point, which a twinned copy with four
unmatched records waits for (R179). -/
def State.canIssue (s : State) (t : Nat) (cp : Bool) : Bool :=
  let h := s.thr t
  decide (s.mode = .run) && h.released && decide (h.cls ≠ .idle) && !h.halted && !h.restarting &&
  decide (s.standState h.stand = 1) && !h.longStall && !h.chanOut && h.resp.isNone &&
  h.resultsIn && decide (h.imp = {}) && !(cp && h.twin && decide (4 ≤ h.recs.length))

/-- The slot of thread `t` is donated for a reason other than idle class (R157): a long stall, a debugger halt, a thread restart, or a
stand restart between Fence and Release. -/
def State.standsStill (s : State) (t : Nat) : Bool :=
  let h := s.thr t
  decide (h.cls ≠ .idle) &&
  (h.halted || h.restarting || h.longStall || (let st := s.standState h.stand; decide (st = 2) || decide (st = 3) || decide (st = 4)))
/-- The slot of thread `t` is donated (R157). -/
def State.donates (s : State) (t : Nat) : Bool := decide ((s.thr t).cls = .idle) || s.standsStill t

/-- The donated slots that an issue reports. -/
def issSlots (i : Iss) : Nat := i.more.val + b2n i.donated
/-- The slot that an issue takes is the thread's own, or a donated slot of its engine that an elastic thread takes (R152, R153, R158). -/
def State.slotOk (s : State) (i : Iss) : Bool :=
  (decide ((issSlots i) = 0) || decide ((s.thr i.t).cls = .elastic)) &&
  (!i.donated || (List.range 16).any (fun k => s.donates (i.t / 16 * 16 + k)))

/-- Donated slots counted in En_DONUSE, killed issues and multi-slot opportunities included, and the round-robin pointer after the last
of them (R159). -/
def State.countSlot (s : State) (i : Iss) : State :=
  if (issSlots i) = 0 then s
  else (s.rcount (rEDonUse (i.t / 16)) 0 32 (issSlots i)).rsetFld (rEStat (i.t / 16)) 8 4 ((i.t + 1) % 16)
/-- An issue counted in En_ICNTs, and in En_DONUSE when it takes a donated slot. -/
def State.countIssue (s : State) (i : Iss) : State := (s.rcount (rEIcnt i.t) 0 32 1).countSlot i

/-- The compare record of a CHK-prefixed instruction of a twinned thread: the PC offset and the value written, or the
resolved next PC where there is none (R178). -/
def State.chkRecord (s : State) (i : Iss) (pc : Addr) (v : Option (BitVec 64)) : State :=
  s.modThr i.t (fun h =>
    if i.chk && h.twin then { h with recs := h.recs ++ [.chk pc.toNat (v.getD (h.pc.setWidth 64))] } else h)

/-- The record of a CHK-prefixed instruction whose value may come later: made with the value where it is known, else a place in the
order of records (R178). -/
def State.chkLater (s : State) (i : Iss) (pc : Addr) (v : Option (BitVec 64)) : State :=
  s.modThr i.t (fun h =>
    if i.chk && h.twin then { h with recs := h.recs ++ [match v with
      | some v => .chk pc.toNat v
      | none => .chkWait pc h.pc] } else h)

/-- A single step ends in a halt again after its one issue (R519). -/
def State.stepEnd (s : State) (t : Nat) : State := if (s.thr t).step then s.haltOne t else s
/-- The instruction has passed: deferred results move on (R163), and a single step ends. -/
def State.retireIssue (s : State) (t : Nat) : State := (s.modThr t Thread.retire).stepEnd t

/-- The bytes of an instruction lie wholly in the program memory of the thread's engine, or in the service ROM (R192). The PC of copy B
holds copy A's addresses (R176). -/
def State.fetchOk (s : State) (i : Iss) (pc : Addr) : Bool :=
  let lo := 0x400000 + (if (s.thr i.t).copyB then partner i.t else i.t.val) / 16 * 0x20000
  let a := pc.toNat
  (decide (lo ≤ a) && decide (a + i.len ≤ lo + 0x20000)) || (decide (0x500000 ≤ a) && decide (a + i.len ≤ 0x540000))

/-- The address in the thread's own program memory that its PC stands for: copy B holds copy A's addresses (R176). -/
def State.ownAddr (s : State) (t : Nat) (pc : Addr) : Nat :=
  if (s.thr t).copyB && decide (pc.toNat < 0x500000) then pc.toNat % 0x20000 + 0x400000 + t / 16 * 0x20000 else pc.toNat
/-- The word that becomes uncorrectable with an issue. -/
def State.meetUpset (s : State) (i : Iss) : State :=
  match i.upset with
  | some w => s.setUpset (0x40000 + w)
  | none => s
/-- The fetch of an instruction fails (R168, R192): bytes outside program memory and ROM, or an uncorrectable word. -/
def State.fetchFails (s : State) (i : Iss) (h : Thread) : Bool :=
  !s.fetchOk i h.pc || decide (h.romBad = some h.pc) || s.upsetIn (s.ownAddr i.t h.pc) i.len

/-- One instruction issued: nothing where the thread cannot issue; a breakpoint match kills it (R523), as a precise trap does: no issue of
En_ICNTs, and one of En_DONUSE; a fetch that fails is a precise BUSERR (R168); `pre` says the precise trap it takes, if any; else `body` acts, given the thread as it was, on the state with pc past the instruction, and says the
value the instruction writes. -/
def State.issue (s : State) (i : Iss) (cp : Bool) (pre : Thread → Option TrapInfo)
    (body : Thread → State → State × Option (BitVec 64)) : State :=
  let h := s.thr i.t
  if s.canIssue i.t (cp || i.chk) && s.slotOk i then
    let s := s.meetUpset i
    match s.bpHits i.t h.pc with
    | k :: ks => (s.countSlot i).bpStop i.t (k :: ks)
    | [] =>
      if s.fetchFails i h then
        (((s.countSlot i).modThr i.t (fun h => { h with romBad := none })).preciseTrap i.t { cause := 4, tfa := some h.pc.toNat } h.pc).stepEnd i.t
      else match pre h with
      | some tr => ((s.countSlot i).preciseTrap i.t tr h.pc).stepEnd i.t
      | none =>
        let r := body h ((s.countIssue i).modThr i.t (fun h => { h with pc := h.pc + BitVec.ofNat 24 i.len, last := h.pc }))
        (r.1.chkRecord i h.pc r.2).retireIssue i.t
  else s

/-- The issue without its CHK mark. -/
def issPlain (i : Iss) : Iss := { i with chk := false }
/-- One instruction issued whose value comes later than the instruction passes: a load, an ATOM, a wait, a channel operation. -/
def State.issueLater (s : State) (i : Iss) (cp : Bool) (pre : Thread → Option TrapInfo)
    (body : Thread → State → State × Option (BitVec 64)) : State :=
  s.issue (issPlain i) (cp || i.chk) pre (fun h s =>
    let r := body h s
    (r.1.chkLater i h.pc r.2, none))
/-- The check of an encoding's conditions: an instruction that breaks them takes ILLEGAL (R208, R209). -/
def illegalUnless (ok : Bool) (_ : Thread) : Option TrapInfo := if ok then none else some { cause := 1 }

/-- A wait: an instruction that only changes its thread now and writes its register later. -/
def State.issueWait (s : State) (i : Iss) (ok : Bool) (f : Thread → Thread) : State :=
  s.issueLater i false (illegalUnless ok) (fun _ s => (s.modThr i.t f, none))
/-- The address that a deferred result of an issue carries for its CHK record. -/
def issChkAt (i : Iss) (h : Thread) : Option Addr := if i.chk && h.twin then some h.pc else none

/-- An instruction that writes one register with a value computed from the thread as it was. -/
def State.issueVal (s : State) (i : Iss) (ok : Bool) (rd : Nat) (f : Thread → Word) : State :=
  s.issue i false (illegalUnless ok) (fun h s => (s.modThr i.t (fun k => k.write rd (f h)), some ((f h).setWidth 64)))

/-- An instruction that writes a register pair. -/
def State.issuePair (s : State) (i : Iss) (ok : Bool) (rd : Nat) (f : Thread → BitVec 64) : State :=
  s.issue i false (illegalUnless ok) (fun h s => (s.modThr i.t (fun k => k.writePair rd (f h)), some (f h)))

/-- An instruction whose one-register result is delayed by two instructions (MUL, MAC; R163). -/
def State.issueDelayed (s : State) (i : Iss) (rd : Nat) (f : Thread → Word) : State :=
  s.issue i false (fun _ => none) (fun h s =>
    (s.modThr i.t (fun k => k.deferVal [(rd, false)] 2 ((f h).setWidth 64)), some ((f h).setWidth 64)))

/-- An instruction whose register-pair result is delayed by two instructions (MULL; R245). -/
def State.issueDelayedPair (s : State) (i : Iss) (ok : Bool) (rd : Nat) (f : Thread → BitVec 64) : State :=
  s.issue i false (illegalUnless ok) (fun h s =>
    (s.modThr i.t (fun k => k.deferVal [(rd, false), (rd + 1, true)] 2 (f h)), some (f h)))


/-- An instruction that only changes its thread and names no destination register. -/
def State.issueThr (s : State) (i : Iss) (ok : Bool) (f : Thread → Thread) : State :=
  s.issue i false (illegalUnless ok) (fun _ s => (s.modThr i.t f, none))

end Machine
end Sys2Proof
end

