-- ==== Sys2Proof/Machine/Alu.lean ====
section
/-! DEFINITION. ALU register forms (R215–R217). -/
namespace Sys2Proof
namespace Machine

/-- What a command answers: this block always goes on. -/
abbrev Out := Host.Outcome State Fault Refusal

/-- Every field that names a pair is even (R199). -/
def even3 (a b c : Reg) : Bool := evenReg a && evenReg b && evenReg c

/-- A register form with wrapping, saturating and W64 arithmetic: `f` on words, `g` on pairs (R215, R216, R199). -/
def aluArith (i : Iss) (m : Arith) (rd ra rb : Reg) (f : Bool → Word → Word → Word) (g : BitVec 64 → BitVec 64 → BitVec 64)
    (s : State) : State :=
  match m with
  | .wide => s.issuePair i (even3 rd ra rb) rd (fun h => g (h.rpair ra) (h.rpair rb))
  | .wrap => s.issueVal i true rd (fun h => f false (h.rg ra) (h.rg rb))
  | .sat => s.issueVal i true rd (fun h => f true (h.rg ra) (h.rg rb))

/-- A register form with a W64 variant (R215, R199). -/
def aluWide (i : Iss) (wide : Bool) (rd ra rb : Reg) (f : Word → Word → Word) (g : BitVec 64 → BitVec 64 → BitVec 64)
    (s : State) : State :=
  if wide then s.issuePair i (even3 rd ra rb) rd (fun h => g (h.rpair ra) (h.rpair rb))
  else s.issueVal i true rd (fun h => f (h.rg ra) (h.rg rb))

/-- A register form on words. -/
def aluRR (i : Iss) (rd ra rb : Reg) (f : Word → Word → Word) (s : State) : State :=
  s.issueVal i true rd (fun h => f (h.rg ra) (h.rg rb))

/-- A one-source form. -/
def aluR (i : Iss) (rd ra : Reg) (f : Word → Word) (s : State) : State :=
  s.issueVal i true rd (fun h => f (h.rg ra))

/-- The shift amount: rb[4:0] (R211). -/
def sh5 (b : Word) : Nat := fld b 0 5
/-- The shift amount under W64: the low word's bits [5:0] (R211). -/
def sh6 (b : BitVec 64) : Nat := b.toNat % 64

/-- ADD (R215, R216). -/
def execAdd (i : Iss) (m : Arith) (rd ra rb : Reg) (s : State) : Out := .next (aluArith i m rd ra rb addW (· + ·) s)
/-- SUB (R215, R216). -/
def execSub (i : Iss) (m : Arith) (rd ra rb : Reg) (s : State) : Out := .next (aluArith i m rd ra rb subW (· - ·) s)
/-- AND (R215). -/
def execAnd (i : Iss) (w : Bool) (rd ra rb : Reg) (s : State) : Out := .next (aluWide i w rd ra rb (· &&& ·) (· &&& ·) s)
/-- OR (R215). -/
def execOr (i : Iss) (w : Bool) (rd ra rb : Reg) (s : State) : Out := .next (aluWide i w rd ra rb (· ||| ·) (· ||| ·) s)
/-- XOR (R215). -/
def execXor (i : Iss) (w : Bool) (rd ra rb : Reg) (s : State) : Out := .next (aluWide i w rd ra rb (· ^^^ ·) (· ^^^ ·) s)
/-- SHL (R215, R216). -/
def execShl (i : Iss) (m : Arith) (rd ra rb : Reg) (s : State) : Out :=
  .next (aluArith i m rd ra rb (fun sat a b => shlW sat a (sh5 b)) (fun a b => a <<< sh6 b) s)
/-- SHR (R215). -/
def execShr (i : Iss) (w : Bool) (rd ra rb : Reg) (s : State) : Out :=
  .next (aluWide i w rd ra rb (fun a b => a >>> sh5 b) (fun a b => a >>> sh6 b) s)
/-- SRA (R215). -/
def execSra (i : Iss) (w : Bool) (rd ra rb : Reg) (s : State) : Out :=
  .next (aluWide i w rd ra rb (fun a b => a.sshiftRight (sh5 b)) (fun a b => a.sshiftRight (sh6 b)) s)
/-- ROR (R215). -/
def execRor (i : Iss) (rd ra rb : Reg) (s : State) : Out := .next (aluRR i rd ra rb (fun a b => rorW a (sh5 b)) s)
/-- MUL (R215, R163: delay 2). -/
def execMul (i : Iss) (sat : Bool) (rd ra rb : Reg) (s : State) : Out :=
  .next (s.issueDelayed i rd (fun h => mulW sat (h.rg ra) (h.rg rb)))
/-- MULH (R215: delay 2). -/
def execMulh (i : Iss) (rd ra rb : Reg) (s : State) : Out :=
  .next (s.issueDelayed i rd (fun h => hiW (mulS (h.rg ra) (h.rg rb))))
/-- MULHU (R215: delay 2). -/
def execMulhu (i : Iss) (rd ra rb : Reg) (s : State) : Out :=
  .next (s.issueDelayed i rd (fun h => hiW (mulU (h.rg ra) (h.rg rb))))
/-- DIV (R215, R217). -/
def execDiv (i : Iss) (rd ra rb : Reg) (s : State) : Out := .next (aluRR i rd ra rb divS s)
/-- DIVU (R217). -/
def execDivu (i : Iss) (rd ra rb : Reg) (s : State) : Out := .next (aluRR i rd ra rb divU s)
/-- REM (R217). -/
def execRem (i : Iss) (rd ra rb : Reg) (s : State) : Out := .next (aluRR i rd ra rb remS s)
/-- REMU (R217). -/
def execRemu (i : Iss) (rd ra rb : Reg) (s : State) : Out := .next (aluRR i rd ra rb remU s)
/-- MIN (R215). -/
def execMin (i : Iss) (rd ra rb : Reg) (s : State) : Out := .next (aluRR i rd ra rb (fun a b => if a.slt b then a else b) s)
/-- MAX (R215). -/
def execMax (i : Iss) (rd ra rb : Reg) (s : State) : Out := .next (aluRR i rd ra rb (fun a b => if b.slt a then a else b) s)
/-- MINU (R215). -/
def execMinu (i : Iss) (rd ra rb : Reg) (s : State) : Out := .next (aluRR i rd ra rb (fun a b => if a.ult b then a else b) s)
/-- MAXU (R215). -/
def execMaxu (i : Iss) (rd ra rb : Reg) (s : State) : Out := .next (aluRR i rd ra rb (fun a b => if b.ult a then a else b) s)
/-- SEL (R215). -/
def execSel (i : Iss) (rd ra rb rc : Reg) (s : State) : Out :=
  .next (s.issueVal i true rd (fun h => if h.rg rc ≠ 0#32 then h.rg ra else h.rg rb))
/-- MOV (R215). -/
def execMov (i : Iss) (w : Bool) (rd ra : Reg) (s : State) : Out :=
  .next (if w then s.issuePair i (evenReg rd && evenReg ra) rd (fun h => h.rpair ra) else aluR i rd ra id s)
/-- NOT (R215). -/
def execNot (i : Iss) (rd ra : Reg) (s : State) : Out := .next (aluR i rd ra (fun a => ~~~ a) s)
/-- NEG (R216). -/
def execNeg (i : Iss) (sat : Bool) (rd ra : Reg) (s : State) : Out := .next (aluR i rd ra (negW sat) s)
/-- ABS (R216). -/
def execAbs (i : Iss) (sat : Bool) (rd ra : Reg) (s : State) : Out := .next (aluR i rd ra (absW sat) s)
/-- CLZ (R215). -/
def execClz (i : Iss) (rd ra : Reg) (s : State) : Out := .next (aluR i rd ra (fun a => BitVec.ofNat 32 (leadZeros a 32)) s)
/-- POPC (R215). -/
def execPopc (i : Iss) (rd ra : Reg) (s : State) : Out := .next (aluR i rd ra (fun a => BitVec.ofNat 32 (popCount a 32)) s)
/-- BSWAP (R215). -/
def execBswap (i : Iss) (rd ra : Reg) (s : State) : Out := .next (aluR i rd ra swapBytes s)
/-- ANDN (R215). -/
def execAndn (i : Iss) (rd ra rb : Reg) (s : State) : Out := .next (aluRR i rd ra rb (fun a b => a &&& ~~~ b) s)

end Machine
end Sys2Proof
end

