-- ==== Sys2Proof/Machine/Branch.lean ====
section
/-! DEFINITION. Branches, jumps and calls (R226), the plain waits and thread-register forms (R236, R241, R242), DEFTRAP,
illegal instructions and imprecise traps (R182–R184). -/
namespace Sys2Proof
namespace Machine

/-- A branch target: A + offset, modulo 2^24 (R207). -/
def target (h : Thread) (off : Word) : Addr := h.pc + off.setWidth 24
/-- The address of the byte after an instruction (R207). -/
def linkAddr (h : Thread) (i : Iss) : Word := (h.pc + BitVec.ofNat 24 i.len).setWidth 32

/-- A conditional branch: taken where `c` holds of the thread as it was (R226). -/
def branchIf (i : Iss) (off : Word) (c : Thread → Bool) (s : State) : State :=
  s.issue i false (fun _ => none) (fun h s =>
    (s.modThr i.t (fun k => if c h then { k with pc := target h off } else k), none))

/-- BZ (R226). -/
def execBz (i : Iss) (ga : Reg) (off : Word) (s : State) : Out := .next (branchIf i off (fun h => h.rg ga == 0#32) s)
/-- BNZ (R226). -/
def execBnz (i : Iss) (ga : Reg) (off : Word) (s : State) : Out := .next (branchIf i off (fun h => h.rg ga != 0#32) s)
/-- BR (R226). -/
def execBr (i : Iss) (off : Word) (s : State) : Out := .next (branchIf i off (fun _ => true) s)
/-- CALL (R226). -/
def execCall (i : Iss) (rd : Reg) (off : Word) (s : State) : Out :=
  .next (s.issue i false (fun _ => none) (fun h s =>
    (s.modThr i.t (fun k => { k.write rd (linkAddr h i) with pc := target h off }), some ((linkAddr h i).setWidth 64))))
/-- JMP (R226). -/
def execJmp (i : Iss) (ga : Reg) (s : State) : Out :=
  .next (s.issue i false (fun _ => none) (fun h s =>
    (s.modThr i.t (fun k => { k with pc := (h.rg ga).setWidth 24 }), none)))
/-- JAL (R226): ra is read before rd is written. -/
def execJal (i : Iss) (rd ra : Reg) (s : State) : Out :=
  .next (s.issue i false (fun _ => none) (fun h s =>
    (s.modThr i.t (fun k => { k.write rd (linkAddr h i) with pc := (h.rg ra).setWidth 24 }), some ((linkAddr h i).setWidth 64))))
/-- RETT (R226): continues at tpc and clears tst.INTRAP. -/
def execRett (i : Iss) (s : State) : Out :=
  .next (s.issue i false (fun _ => none) (fun h s =>
    (s.modThr i.t (fun k => { k with pc := h.tpc, tst := clrBit k.tst 4 }), none)))
/-- BDEC (R226). -/
def execBdec (i : Iss) (ga : Reg) (off : Word) (s : State) : Out :=
  .next (s.issue i false (fun _ => none) (fun h s =>
    let v := h.rg ga - 1#32
    (s.modThr i.t (fun k => if v ≠ 0#32 then { k.write ga v with pc := target h off } else k.write ga v),
      some (v.setWidth 64))))

/-- YIELD (R236): a long stall. -/
def execYield (i : Iss) (s : State) : Out := .next (s.issueThr i true (fun h => { h with stall := .yield }))
/-- SLEEP (R239): a long stall until a wake condition of ga holds. -/
def execSleep (i : Iss) (ga : Reg) (s : State) : Out :=
  .next (s.issue i false (fun _ => none) (fun h s =>
    (({ s with stamp := s.stamp + 1 } : State).modThr i.t (fun k =>
      { k with stall := .sleep (h.rg ga), sleepStamp := s.stamp + 1, sleepMarked := false, sleepHeld := false }), none)))
/-- WAITEV (R236, R237): a long stall until a masked latch is set; a mask of 0 is illegal (R202). -/
def execWaitev (i : Iss) (rd : Reg) (mask : Byte) (s : State) : Out :=
  .next (s.issueWait i (decide (mask ≠ 0#8)) (fun h => { h with stall := .waitev mask rd }))
/-- WAITT (R236, R238): a long stall until the timer's match flag is set; a timer above 63 is illegal (R202). -/
def execWaitt (i : Iss) (rd : Reg) (tm : Byte) (s : State) : Out :=
  .next (s.issueWait i (decide (tm.toNat < 64)) (fun h => { h with stall := .waitt tm.toNat rd }))
/-- EVCLR (R236, R237). -/
def execEvclr (i : Iss) (mask : Byte) (s : State) : Out :=
  .next (s.issueThr i true (fun h => { h with evp := h.evp &&& ~~~ mask }))
/-- NOP (R236). -/
def execNop (i : Iss) (s : State) : Out := .next (s.issueThr i true id)

/-- SIG (R241): with h[15] = 0 a check of S, with h[15] = 1 a step of it. -/
def execSig (i : Iss) (c : BitVec 16) (s : State) : Out :=
  .next (s.issue i false
    (fun h => if !c.getLsbD 15 && decide (fld h.sigr 0 15 ≠ c.toNat % 2 ^ 15) then some { cause := 5 } else none)
    (fun _ s => (s.modThr i.t (fun h =>
      if c.getLsbD 15 then { h with sigr := h.sigr ^^^ ((c.setWidth 32) &&& 0x7FFF#32) } else h), none)))

/-- A thread register read (R242). -/
def Thread.readTr (h : Thread) (tr : Fin 4) : Word :=
  match tr with
  | 0 => h.tpc.setWidth 32
  | 1 => h.tst
  | 2 => h.tvec.setWidth 32
  | 3 => h.sigr
/-- A thread register written (R185, R242): of tst only CAUSE, IMPR and MULTI. -/
def Thread.writeTr (h : Thread) (tr : Fin 4) (v : Word) : Thread :=
  match tr with
  | 0 => { h with tpc := v.setWidth 24 }
  | 1 => { h with tst := (h.tst &&& ~~~ 0x6F#32) ||| (v &&& 0x6F#32) }
  | 2 => { h with tvec := v.setWidth 24 }
  | 3 => { h with sigr := v }
/-- MFT (R242). -/
def execMft (i : Iss) (rd : Reg) (tr : Fin 4) (s : State) : Out := .next (s.issueVal i true rd (fun h => h.readTr tr))
/-- MTT (R242). -/
def execMtt (i : Iss) (tr : Fin 4) (rs : Reg) (s : State) : Out := .next (s.issueThr i true (fun h => h.writeTr tr (h.rg rs)))

/-- DEFTRAP: a precise trap with its own cause (R182). -/
def execDeftrap (i : Iss) (s : State) : Out :=
  .next (s.issue i false (fun _ => some { cause := 2 }) (fun _ s => (s, none)))
/-- An illegal or unassigned encoding: a precise ILLEGAL trap (R208, R209). -/
def execIllegalInstruction (i : Iss) (s : State) : Out :=
  .next (s.issue i false (fun _ => some { cause := 1 }) (fun _ s => (s, none)))

/-- IMPRECISE_TRAP (R183, R184): at the next issue opportunity the first pending cause in the order TWIN, TWINTMO, BUSERR
is taken, the others are discarded with MULTI. The opportunity needs what an issue needs, but for the pending cause. Several bus errors
are several causes, and the oldest gives the address (DESIGN CHOICE, notes/assumptions/71.md). -/
def execImpreciseTrap (t : Tid) (s : State) : Out :=
  .next (
    let h := s.thr t
    let im := h.imp
    let s1 := s.modThr t (fun h => { h with imp := {} })
    if decide (im ≠ {}) && s1.canIssue t false then
      let n := b2n im.twin + b2n im.twintmo + im.buserr.length
      let s2 := match im.twin, im.twintmo, im.buserr with
        | false, false, a :: _ => s1.setTfa t 4 a.toNat
        | _, _, _ => s1
      s2.trapTo t (if im.twin then 7 else if im.twintmo then 8 else 4) true (decide (1 < n)) h.pc
    else s)

end Machine
end Sys2Proof
end

