-- ==== Sys2Proof/Machine/Chan.lean ====
section
/-! DEFINITION. Message channels: what the pool decides of an operation, and how the answer reaches the thread (R227–R234,
R249–R259). -/
namespace Sys2Proof
namespace Machine

/-! ### Channels -/

/-- KIND of an endpoint word (R251, R140). -/
def epKind (w : Word) : Nat := fld w 28 4
/-- UNIT of an endpoint word. -/
def epUnit (w : Word) : Nat := fld w 16 12
/-- SUB of an endpoint word. -/
def epSub (w : Word) : Nat := fld w 0 8

/-- The allotment of a channel: MCn_CFG.WORDS (R247). -/
def State.allot (s : State) (c : Nat) : Nat := s.rfld (rMcCfg c) 16 7
/-- Words held by complete messages not yet freed (R249). -/
def Chan.heldWords (ch : Chan) : Nat := (ch.msgs.map (·.total)).sum
/-- Free words (R249). -/
def State.freeWords (s : State) (c : Nat) : Nat := s.allot c - (s.chan c).heldWords - (s.chan c).staged.length
/-- The words one message may hold: min(32, allotment) (R227). -/
def State.msgMax (s : State) (c : Nat) : Nat := min 32 (s.allot c)
/-- 8 complete messages are held (R227). -/
def Chan.fullMsgs (ch : Chan) : Bool := decide (8 ≤ ch.msgs.length)

/-- The pool word at ring position `p` of a channel (R249). -/
def State.ringAddr (s : State) (c p : Nat) : Nat := s.rfld (rMcCfg c) 0 14 + p % max 1 (s.allot c)
/-- A word of the pool. -/
def State.poolWord (s : State) (a : Nat) : PWord := Bank.get (fun _ => ({} : PWord)) s.pool a
/-- A word of the pool written. -/
def State.setPool (s : State) (a : Nat) (w : PWord) : State := { s with pool := Bank.put (fun _ => ({} : PWord)) s.pool a w }
/-- One word staged on a channel, at the next ring position (R249). -/
def State.stageWord (s : State) (c : Nat) (w : Word) : State :=
  (s.setPool (s.ringAddr c (s.chan c).wr) { v := w }).modChan c (fun ch =>
    { ch with staged := ch.staged ++ [{ v := w }], wr := (ch.wr + 1) % max 1 (s.allot c) })
/-- Words staged on a channel. -/
def State.stage (s : State) (c : Nat) (ws : List Word) : State := ws.foldl (fun (s : State) w => s.stageWord c w) s
/-- The unread and staged words of a channel. -/
def Chan.liveWords (ch : Chan) : Nat := (ch.msgs.map (·.words.length)).sum + ch.staged.length
/-- The pool word of the `k`-th of them, unread words first: they end where the next word goes (R249). -/
def State.liveAddr (s : State) (c k : Nat) : Nat :=
  s.ringAddr c ((s.chan c).wr + 64 * max 1 (s.allot c) - (s.chan c).liveWords + k)
/-- A row of four words read (R250): what is wrong in it is corrected, rewritten and counted. -/
def State.readRow (s : State) (row : Nat) : State :=
  s.each ([0, 1, 2, 3] : List Nat) (fun s j =>
    let w := s.poolWord (4 * row + j)
    if w.soft then (s.setPool (4 * row + j) { w with soft := false }).rcount rMcPoolErr 0 16 1 else s)
/-- `n` words of a channel from the `k`-th on read from the pool (R250). -/
def State.readWords (s : State) (c k n : Nat) : State := s.each (List.range n) (fun s j => s.readRow (s.liveAddr c (k + j) / 4))
/-- The staged words published as one message (R227). -/
def State.publish (s : State) (c : Nat) : State :=
  s.modChan c (fun ch => { ch with msgs := ch.msgs ++ [{ words := ch.staged, total := ch.staged.length }], staged := [] })
/-- The staged words discarded. -/
def State.unstage (s : State) (c : Nat) : State :=
  s.modChan c (fun ch => { ch with staged := [], wr := (ch.wr + 64 * max 1 (s.allot c) - ch.staged.length) % max 1 (s.allot c) })

/-- The head message freed (R227); at the receiving half of a link pair its words and one message are owed as credit
(R261). -/
def State.freeHead (s : State) (c : Nat) : State :=
  s.modChan c (fun ch =>
    match ch.msgs with
    | [] => ch
    | m :: r =>
      if epKind ch.sendEp = 4 then { ch with msgs := r, owedW := ch.owedW + m.total, owedM := ch.owedM + 1 }
      else { ch with msgs := r })

/-- `n` words of the head message taken; the message is freed with its last word (R227). -/
def State.takeHead (s : State) (c n : Nat) : State :=
  let s := s.modChan c (fun ch =>
    match ch.msgs with
    | [] => ch
    | m :: r => { ch with msgs := { m with words := m.words.drop n } :: r })
  match (s.chan c).msgs with
  | m :: _ => if m.words.isEmpty then s.freeHead c else s
  | [] => s

/-- An uncorrectable pool word met (R250): counted, flagged, a SEVERE object for the channel, a pulse on
Q263 (R336). -/
def State.poolBad (s : State) (c : Nat) : State :=
  (((s.rcount rMcPoolErr 16 16 1).rset (rMcStat c) 29).recBin 0x04 0x02 c (epKind (s.chan c).recvEp) 3).pulse 263

/-- Each uncorrectable word among some that are taken counts (R250). -/
def State.poolBads (s : State) (c : Nat) (ws : List PWord) : State := (ws.filter (·.bad)).foldl (fun (s : State) _ => s.poolBad c) s

/-! ### Deciding an operation (R255) -/

/-- A send form (R232). -/
def ChanForm.isSend : ChanForm → Bool
  | .put | .pute | .endm | .abt => true
  | .get | .getn | .drop => false

/-- The words a PUT form carries, low word first (R228). -/
def ChanOp.words (op : ChanOp) : List Word := if op.wide then [loW op.data, hiW op.data] else [loW op.data]
/-- One word, or two under W64. -/
def ChanOp.count (op : ChanOp) : Nat := if op.wide then 2 else 1

/-- The value a GET form takes from the head words. -/
def takenData (ws : List PWord) : BitVec 64 :=
  match ws with
  | a :: b :: _ => pairW b.v a.v
  | [a] => a.v.setWidth 64
  | [] => 0#64

/-- What a form does on channel `c`, past the port checks: an answer with the state after, or none where the plain form blocks (R228, R229, R233). Where a W64 GET meets one unread word that is uncorrectable, SHORT goes before POOLERR; where one
of its two words is uncorrectable both are consumed (DESIGN CHOICE, notes/assumptions/61.md). -/
def State.decideOn (s : State) (c : Nat) (op : ChanOp) : Option (ChanAns × State) :=
  let ch := s.chan c
  match op.form with
  | .put =>
    if s.msgMax c < ch.staged.length + op.count then some (.error 3 c, s)
    else if s.freeWords c < op.count then none
    else some (.status 0 false (ch.staged.length + op.count) none, s.stage c op.words)
  | .pute =>
    if s.msgMax c < ch.staged.length + op.count then some (.error 3 c, s)
    else if s.freeWords c < op.count || ch.fullMsgs then none
    else some (.status 0 true 0 none, (s.stage c op.words).publish c)
  | .endm =>
    if ch.staged.isEmpty then some (.error 4 c, s)
    else if ch.fullMsgs then none
    else some (.status 0 true ch.staged.length none, s.publish c)
  | .abt => some (.status 0 false ch.staged.length none, s.unstage c)
  | .get =>
    match ch.msgs with
    | [] => none
    | m :: _ =>
      if m.words.length < op.count then some (.error 7 c, s)
      else if (m.words.take op.count).any (·.bad) then
        some (.error 6 c, ((s.readWords c 0 op.count).poolBads c (m.words.take op.count)).takeHead c op.count)
      else some (.status 0 (decide (m.words.length = op.count)) (m.words.length - op.count)
        (some (takenData (m.words.take op.count))), (s.readWords c 0 op.count).takeHead c op.count)
  | .getn =>
    match ch.msgs with
    | [] => none
    | m :: _ => some (.status 0 false m.words.length (some (BitVec.ofNat 64 m.words.length)), s)
  | .drop =>
    match ch.msgs with
    | [] => some (.status 0 false 0 none, s)
    | m :: _ => some (.status 0 false m.words.length none, s.freeHead c)

/-- The copy whose bindings a thread uses: copy A of a pair (R253). -/
def State.copyA (s : State) (t : Nat) : Nat := if (s.thr t).copyB then partner t else t

/-- The pool's decision of a thread's operation (R255): port checks first (R233), then the abort-pending flag (R232). -/
def State.poolDecide (s : State) (t : Nat) (op : ChanOp) : Option (ChanAns × State) :=
  let a := s.copyA t
  let b := (s.thr a).port op.port
  if !b.bound then some (.error 1 0, s)
  else if op.form.isSend == b.recv then some (.error 2 b.ch, s)
  else if op.form.isSend && b.abortp then
    some (.status 4 false 0 none, s.modThr a (fun h => h.setPort op.port { b with abortp := false }))
  else s.decideOn b.ch op

/-- The port status word (R234). -/
def State.portStatus (s : State) (t p : Nat) : Word :=
  let b := (s.thr (s.copyA t)).port p
  let ch := s.chan b.ch
  if !b.bound then 0#32
  else
    let unread := match ch.msgs with
      | m :: _ => m.words.length
      | [] => 0
    let other := if b.recv then ch.sendEp else ch.recvEp
    BitVec.ofNat 32 ((if b.recv then unread else s.freeWords b.ch) + ch.msgs.length * 2 ^ 8 +
      (if b.recv then 0 else ch.staged.length) * 2 ^ 12 + b2n b.recv * 2 ^ 24 + 2 ^ 25 + b2n b.abortp * 2 ^ 26 +
      b2n (epKind other = 4) * 2 ^ 27)

/-! ### Answers on their way to the engine -/

/-- An outcome of TIMEOUT, BROKEN or ABORTED whose status destination is g0 becomes CHANERR UNCHECKED (R231). -/
def checkedAns (op : ChanOp) (ch : Nat) (a : ChanAns) : ChanAns :=
  match a with
  | .status code _ _ _ => if 2 ≤ code && op.statReg = 0 then .error 5 ch else a
  | _ => a

/-- The answer of an operation sent toward the thread, to both copies of a pair (R178). -/
def State.answer (s : State) (t : Nat) (op : ChanOp) (a : ChanAns) : State :=
  let c := ((s.thr (s.copyA t)).port op.port).ch
  s.each (s.copies t) (fun s t => s.modThr t (fun h => { h with resp := some (op, checkedAns op c a), park := none }))

/-- A status word (R229). -/
def statusWord (code : Nat) (last : Bool) (count : Nat) : Word := BitVec.ofNat 32 (code + b2n last * 2 ^ 4 + (count % 64) * 2 ^ 8)

/-- An operation reaches the pool (R228, R230, R256): decided at once; where it would block a try form answers AGAIN, a
plain form with a timeout of 0 answers TIMEOUT, and any other parks and its thread is in a long stall. CHS is answered
with the port status word (R234). -/
def State.sendChan (s : State) (t : Nat) (op : ChanOp) : State :=
  let s := s.each (s.copies t) (fun s t => s.modThr t (fun h => { h with chanOut := true }))
  if op.snap then s.answer t op (.snapshot (s.portStatus t op.port)) else
  match s.poolDecide t op with
  | some (a, s) => s.answer t op a
  | none =>
    if op.try_ then s.answer t op (.status 1 false 0 none)
    else if op.timeout = some 0 then s.answer t op (.status 2 false 0 none)
    else
      let n := s.stamp + 1
      ({ s with stamp := n }.modThr (s.copyA t) (fun h => { h with park := some { op := op, stamp := n } })).each (s.copies t)
        (fun s t => s.modThr t (fun h => { h with stall := .chan }))

/-- A channel instruction (R171, R178): held in the engine until the store buffer is empty, then sent; in a twinned
thread its record waits for the partner's. -/
def State.issueChan (s : State) (i : Iss) (ok : Bool) (mk : Thread → ChanOp) : State :=
  s.issueLater i true (illegalUnless ok) (fun h s =>
    let op := mk h
    let k := s.thr i.t
    if !k.sbuf.isEmpty || !k.held.isEmpty then
      (s.modThr i.t (fun k => { k with held := k.held ++ [{ op := .chan op, pc := h.pc }], chanOut := true }), none)
    else if k.twin then (s.modThr i.t (fun k => { k with recs := k.recs ++ [.chan op], chanOut := true }), none)
    else (s.sendChan i.t op, none))

/-- The operation of an instruction: `dr` the data register of a receive form, `sr` the status destination, `dv` the
register whose value a PUT form sends, `gt` the timeout register of a plain form (R193, format C). -/
def mkOp (f : ChanForm) (tr wide : Bool) (p dr sr dv : Nat) (gt : Option Reg) (h : Thread) : ChanOp :=
  { form := f, try_ := tr, wide := wide, port := p, dataReg := dr, statReg := sr,
    data := if wide then h.rpair dv else (h.rg dv).setWidth 64,
    timeout := match gt with
      | some r => if r.val = 0 then none else some (h.rg r).toNat
      | none => none,
    pc := h.pc }

/-- PUT (R228). -/
def execPut (i : Iss) (w : Bool) (p : Port) (rd rv gt : Reg) (s : State) : Out :=
  .next (s.issueChan i (!w || evenReg rv) (mkOp .put false w p 0 rd rv (some gt)))
/-- PUTE (R228). -/
def execPute (i : Iss) (w : Bool) (p : Port) (rd rv gt : Reg) (s : State) : Out :=
  .next (s.issueChan i (!w || evenReg rv) (mkOp .pute false w p 0 rd rv (some gt)))
/-- END (R228). -/
def execChEnd (i : Iss) (p : Port) (rd gt : Reg) (s : State) : Out :=
  .next (s.issueChan i true (mkOp .endm false false p 0 rd 0 (some gt)))
/-- GET (R228). -/
def execGet (i : Iss) (w : Bool) (p : Port) (rd rv gt : Reg) (s : State) : Out :=
  .next (s.issueChan i (!w || evenReg rd) (mkOp .get false w p rd rv 0 (some gt)))
/-- GETN (R228). -/
def execGetn (i : Iss) (p : Port) (rd rv gt : Reg) (s : State) : Out :=
  .next (s.issueChan i true (mkOp .getn false false p rd rv 0 (some gt)))
/-- DROP (R228). -/
def execDrop (i : Iss) (p : Port) (rd : Reg) (s : State) : Out :=
  .next (s.issueChan i true (mkOp .drop false false p 0 rd 0 none))
/-- ABT (R228). -/
def execAbt (i : Iss) (p : Port) (rd : Reg) (s : State) : Out :=
  .next (s.issueChan i true (mkOp .abt false false p 0 rd 0 none))
/-- TPUT (R228). -/
def execTput (i : Iss) (w : Bool) (p : Port) (rd rv : Reg) (s : State) : Out :=
  .next (s.issueChan i (!w || evenReg rv) (mkOp .put true w p 0 rd rv none))
/-- TPUTE (R228). -/
def execTpute (i : Iss) (w : Bool) (p : Port) (rd rv : Reg) (s : State) : Out :=
  .next (s.issueChan i (!w || evenReg rv) (mkOp .pute true w p 0 rd rv none))
/-- TEND (R228). -/
def execTend (i : Iss) (p : Port) (rd : Reg) (s : State) : Out :=
  .next (s.issueChan i true (mkOp .endm true false p 0 rd 0 none))
/-- TGET (R228). -/
def execTget (i : Iss) (w : Bool) (p : Port) (rd rv : Reg) (s : State) : Out :=
  .next (s.issueChan i (!w || evenReg rd) (mkOp .get true w p rd rv 0 none))
/-- TGETN (R228). -/
def execTgetn (i : Iss) (p : Port) (rd rv : Reg) (s : State) : Out :=
  .next (s.issueChan i true (mkOp .getn true false p rd rv 0 none))
/-- CHS (R234). -/
def execChs (i : Iss) (p : Port) (rd : Reg) (s : State) : Out :=
  .next (s.issueChan i true (fun h => { mkOp .getn true false p rd 0 0 none h with snap := true }))

/-- The registers that an answer writes (R228, R229, R234). Where one register is both the data and the status
destination the spec does not say which value it ends with: a free value. -/
def State.writeAns (s : State) (t : Nat) (op : ChanOp) (a : ChanAns) : State :=
  match a with
  | .status code last count data =>
    let s := s.modThr t (fun h =>
      let h := match data with
        | some v => if op.wide then h.writePair op.dataReg v else h.write op.dataReg (loW v)
        | none => h
      h.write op.statReg (statusWord code last count))
    if data.isSome && op.statReg ≠ 0 && (op.statReg = op.dataReg || (op.wide && op.statReg = op.dataReg + 1)) then
      (s.modThr t (fun h => h.write op.statReg s.free)).drew
    else s
  | .snapshot w => s.modThr t (fun h => h.write op.dataReg w)
  | .error _ _ => s

/-- The value that an operation writes: its data, else its status word; none where it writes no register. -/
def ansValue (op : ChanOp) (a : ChanAns) : Option (BitVec 64) :=
  match a with
  | .status code last count data =>
    match data with
    | some v => some v
    | none => if op.statReg = 0 then none else some ((statusWord code last count).setWidth 64)
  | .snapshot w => some (w.setWidth 64)
  | .error _ _ => none

/-- A channel operation that ended in a channel error is killed, as by every precise trap, and is no issue of En_ICNTs. -/
def State.uncount (s : State) (t : Nat) : State := s.modReg (rEIcnt t) (fun w => if w = 0#32 then w else w - 1#32)

/-- CHANNEL_RESPONSE (R164, R228, R233): the answer reaches the engine, its status and data are written and the long stall
ends; a channel error is a precise CHANERR trap at the operation. -/
def execChannelResponse (t : Tid) (s : State) : Out :=
  .next (s.gated (match (s.thr t).resp with
    | none => s
    | some (op, a) =>
      let s := s.modThr t (fun h =>
        ({ h with resp := none, chanOut := false, stall := if h.stall = .chan then .none else h.stall } : Thread).chkDone (some op.pc) (ansValue op a))
      match a with
      | .error kind ch => (s.uncount t).preciseTrap t { cause := 6, tfa := some (kind * 2 ^ 20 + ch % 2 ^ 12) } op.pc
      | _ => s.writeAns t op a))

/-- CHANNEL_TIMEOUT (R230, R256): a parked operation whose timeout expires ends with TIMEOUT, unless it can complete
normally. -/
def execChannelTimeout (t : Tid) (s : State) : Out :=
  .next (s.gated (match (s.thr t).park with
    | none => s
    | some p =>
      if p.op.timeout.isNone ∨ p.svc.isSome then s
      else match s.poolDecide t p.op with
        | some (a, s) => s.answer t p.op a
        | none => s.answer t p.op (.status 2 false 0 none)))

end Machine
end Sys2Proof
end

