-- ==== Sys2Proof/Machine/Detector.lean ====
section
/-! DEFINITION. The deadlock detector (R265–R271). -/
namespace Sys2Proof
namespace Machine

/-- The partner that an end of a channel is (R265). -/
def State.partnerOf (s : State) (ep : Word) : Partner :=
  match epKind ep with
  | 0 => .never
  | 1 => .thread (s.copyA (epUnit ep))
  | _ => .live

/-- The partner at the other end of a port's channel; an unbound port can never be ready (R239, R265). -/
def State.portPartner (s : State) (t p : Nat) : Partner :=
  let b := (s.thr t).port p
  if !b.bound then .never else s.partnerOf (if b.recv then (s.chan b.ch).sendEp else (s.chan b.ch).recvEp)

/-- A named port is ready (R239). -/
def State.portReady (s : State) (t p : Nat) : Bool :=
  let b := (s.thr (s.copyA t)).port p
  b.bound && (if b.recv then !(s.chan b.ch).msgs.isEmpty else decide (0 < s.freeWords b.ch))

/-- The ports that a SLEEP names. -/
def sleepPorts (ga : Word) : List Nat := members 8 (fun p => ga.getLsbD (8 + p))

/-- The node of thread `t`, if it is one (R265): a held thread; a parked operation without a timeout; a port sleep. -/
def State.node (s : State) (t : Nat) : Option WNode :=
  let h := s.thr t
  if h.copyB || decide (h.cls = .idle) then none
  else if h.halted then some { t := t, held := true, tag := h.haltTag, stamp := 0, partners := [] }
  else if h.restarting || decide (s.standState h.stand ≠ 1) then none
  else match h.park, h.stall with
    | some p, _ =>
      if p.op.timeout.isSome then none
      else some { t := t, held := false, tag := p.stamp, stamp := p.stamp, partners := [s.portPartner t p.op.port] }
    | none, .sleep ga =>
      if fld ga 0 8 = 0 ∧ fld ga 8 8 ≠ 0 ∧ (sleepPorts ga).all (fun p => !s.portReady t p) then
        some { t := t, held := false, tag := h.sleepStamp, stamp := h.sleepStamp, partners := (sleepPorts ga).map (s.portPartner t) }
      else none
    | _, _ => none

/-- A partner leaves its waiter in D: never, or a thread in D (R266). -/
def Partner.keeps (d : List WNode) : Partner → Bool
  | .never => true
  | .live => false
  | .thread t => d.any (fun n => decide (n.t = t))

/-- D reduced: waiters with a partner outside D leave it, until none does (R266). -/
def reduceD : Nat → List WNode → List WNode
  | 0, d => d
  | f + 1, d => reduceD f (d.filter (fun n => n.held || n.partners.all (Partner.keeps d)))

/-- Two nodes of which one is a partner of the other. -/
def linked (a b : WNode) : Bool := a.partners.contains (.thread b.t) || b.partners.contains (.thread a.t)

/-- A group grown by the nodes linked to it. -/
def grow : Nat → List WNode → List WNode → List WNode × List WNode
  | 0, g, rest => (g, rest)
  | f + 1, g, rest =>
    let more := rest.filter (fun n => g.any (linked n))
    if more.isEmpty then (g, rest) else grow f (g ++ more) (rest.filter (fun n => !g.any (linked n)))

/-- D divided into groups; a group with no waiter is discarded (R266). -/
def groupsOf : Nat → List WNode → List (List WNode)
  | 0, _ => []
  | _, [] => []
  | f + 1, n :: r =>
    let q := grow r.length [n] r
    if q.1.all (·.held) then groupsOf f q.2 else q.1 :: groupsOf f q.2

/-- The groups of a set of nodes. -/
def deadGroups (ns : List WNode) : List (List WNode) := let d := reduceD ns.length ns; groupsOf d.length d

/-- A group holds a held thread: it is debug-held (R266). -/
def isHeld (g : List WNode) : Bool := g.any (·.held)
/-- A group as the next snapshot compares it (R267). -/
def asGroup (g : List WNode) : WGroup := { held := isHeld g, members := g.map (fun n => (n.t, n.tag)) }

/-- The confirmed members of a group (R267): members, with the same tag, of a group of the same class one snapshot before. -/
def confirmed (prev : List WGroup) (g : List WNode) : List WNode :=
  g.filter (fun n => prev.any (fun p => decide (p.held = isHeld g) && p.members.contains (n.t, n.tag)))

/-- The oldest waiter of a group: the smallest stamp, then the lowest thread number (R270). -/
def oldest (g : List WNode) : Option WNode :=
  (g.filter (fun n => !n.held)).foldl (fun o n =>
    match o with
    | none => some n
    | some m => if n.stamp < m.stamp ∨ (n.stamp = m.stamp ∧ n.t < m.t) then some n else some m) none

/-- A member's waiter record carries the reported mark (R269). -/
def State.marked (s : State) (n : WNode) : Bool :=
  match (s.thr n.t).park with
  | some p => decide (p.stamp = n.tag) && p.marked
  | none => decide ((s.thr n.t).sleepStamp = n.tag) && (s.thr n.t).sleepMarked

/-- A member of a debug-held group has been acted on before (R269): its waiter record carries the mark; a held thread, which has none,
by its halt. -/
def State.heldMarked (s : State) (n : WNode) : Bool :=
  if n.held then s.det.heldSeen.contains (n.t, n.tag)
  else match (s.thr n.t).park with
    | some p => decide (p.stamp = n.tag) && p.heldMark
    | none => decide ((s.thr n.t).sleepStamp = n.tag) && (s.thr n.t).sleepHeld
/-- A waiter of a debug-held group marked (R269). It may still be acted on as a member of a deadlocked group later (R271). -/
def State.heldMarkOne (s : State) (n : WNode) : State :=
  s.modThr n.t (fun h =>
    match h.park with
    | some p => if p.stamp = n.tag then { h with park := some { p with heldMark := true } } else h
    | none => if h.sleepStamp = n.tag then { h with sleepHeld := true } else h)

/-- A member's waiter record marked as reported (R269). -/
def State.mark (s : State) (n : WNode) : State :=
  s.modThr n.t (fun h =>
    match h.park with
    | some p => if p.stamp = n.tag then { h with park := some { p with marked := true } } else h
    | none => if h.sleepStamp = n.tag then { h with sleepMarked := true } else h)

/-- The policy of a group applied to its oldest waiter, by its tag (R270): a port sleep ends in both copies of a twinned thread. -/
def State.policy (s : State) (t tag st pol : Nat) : State :=
  match pol with
  | 1 =>
    match (s.thr t).park, (s.thr t).stall with
    | some p, _ => if p.stamp = tag then s.modThr t (fun h => { h with park := some { p with broken := true } }) else s
    | none, .sleep _ =>
      if (s.thr t).sleepStamp = tag then s.each (s.copies t) (fun s t => s.modThr t (fun h => { h with stall := .none })) else s
    | _, _ => s
  | 2 => s.askStand st 5 0
  | _ => s

/-- The member mask of a group, word `i`. -/
def memberWord (g : List WNode) (i : Nat) : Word := BitVec.ofNat 32 (maskOf 32 (fun j => g.any (fun n => decide (n.t = 32 * i + j))))

/-- A deadlocked group acted on (R269, R270). -/
def State.actDead (s : State) (g : List WNode) : State :=
  match oldest g with
  | none => s
  | some o =>
    if g.all s.marked then s
    else
      let st := (s.thr o.t).stand
      let pol := if s.rfld (rStcCfg st) 0 2 = 3 then 0 else s.rfld (rStcCfg st) 0 2
      let w := (s.reg rMcDlStat &&& 0xE#32) ||| 1#32 |||
        BitVec.ofNat 32 ((g.length % 256) * 2 ^ 4 + (o.t % 128) * 2 ^ 12 + pol * 2 ^ 20 + st * 2 ^ 24)
      let s := s.setReg rMcDlStat w
      let s := s.each [0, 1, 2, 3] (fun s i => s.setReg (rMcDlSet i) (memberWord g i))
      let s := ((s.rcount rMcDlCnt 0 16 1).recBin 0x04 0x01 0 (min 15 (g.length - 1)) 2).pulse 256
      let s := g.foldl State.mark s
      if s.rbit (rStcCfg st) 9 then
        let s := (s.rset rMcDlStat 3).freezeTrigger 3
        { s with det := { s.det with due := s.det.due ++ [(o.t, o.tag, st, pol)] } }
      else s.policy o.t o.tag st pol

/-- A debug-held group reported (R271), when it holds an unmarked member; its waiters are marked (R269). -/
def State.actHeld (s : State) (g : List WNode) : State :=
  if g.all s.heldMarked then s
  else
    let s := (s.rset rMcDlStat 1).rcount rMcDlCnt 16 16 1
    let s := s.each [0, 1, 2, 3] (fun s i => s.setReg (rMcDlHeld i) (memberWord g i))
    let s := (g.filter (fun n => !n.held)).foldl State.heldMarkOne s
    { s with det := { s.det with heldSeen := (g.filter (·.held)).map (fun n => (n.t, n.tag)) ++ s.det.heldSeen } }

/-- Groups in rising order of their oldest waiter's stamp (R270). -/
def byStamp (gs : List (List WNode)) : List (List WNode) :=
  gs.mergeSort (fun a b => decide (((oldest a).map (·.stamp)).getD 0 ≤ ((oldest b).map (·.stamp)).getD 0))

/-- DEADLOCK_SNAPSHOT (R266, R267): every waiter, port sleep and halt recorded; only in RUN. -/
def execDeadlockSnapshot (s : State) : Out :=
  .next (if s.mode = .run then
    { s with det := { s.det with busy := true, snap := (List.range 128).filterMap s.node } } else s)

/-- DEADLOCK_ANALYSIS_END (R266–R271): confirmed members, reduced once more, are acted on. -/
def execDeadlockAnalysisEnd (s : State) : Out :=
  .next (s.gated (if s.det.busy then
    let gs := deadGroups s.det.snap
    let act := gs.flatMap (fun g => (deadGroups (confirmed s.det.prev g)).map (fun c => (isHeld g, c)))
    let s1 := { s with det := { s.det with busy := false, snap := [], prev := gs.map asGroup } }
    let s2 := (byStamp ((act.filter (fun p => !p.1)).map Prod.snd)).foldl State.actDead s1
    ((act.filter (fun p => p.1)).map Prod.snd).foldl State.actHeld s2
  else s))

/-- Policies held since a freeze, applied after a debugger resume (R270, R538). -/
def State.duePolicies (s : State) : State :=
  let s1 := { s with det := { s.det with due := [] } }
  s.det.due.foldl (fun s p => s.policy p.1 p.2.1 p.2.2.1 p.2.2.2) s1

end Machine
end Sys2Proof
end

