-- ==== Sys2Proof/Machine/ShiftEngine.lean ====
section
/-! DEFINITION. Shift engines: their instructions, stalls, output lane, register writes and calibration (R273–R309). -/
namespace Sys2Proof
namespace Machine

/-- Shift engine `n`. -/
def State.se (s : State) (n : Nat) : SeUnit := Bank.get (fun _ => ({} : SeUnit)) s.ses n
/-- Shift engine `n` changed. -/
def State.modSe (s : State) (n : Nat) (f : SeUnit → SeUnit) : State :=
  { s with ses := Bank.put (fun _ => ({} : SeUnit)) s.ses n (f (s.se n)) }

/-- SEn_GRP.PINCOUNT. -/
def State.sePins (s : State) (n : Nat) : Nat := s.rfld (rSeGrp n) 8 6
/-- SEn_GRP.PINBASE. -/
def State.seBase (s : State) (n : Nat) : Nat := s.rfld (rSeGrp n) 0 8
/-- SEn_GRP.ASSIGNED. -/
def State.seAssigned (s : State) (n : Nat) : Bool := s.rbit (rSeGrp n) 20
/-- SEn_GRP.STAND. -/
def State.seStand (s : State) (n : Nat) : Nat := s.rfld (rSeGrp n) 16 4

/-- Places of the transmit queue under JOIN (R296). -/
def State.txCap (s : State) (n : Nat) : Nat := match s.rfld (rSeCtl n) 1 2 with
  | 1 => 8
  | 2 => 0
  | _ => 4
/-- Places of the receive queue under JOIN (R296). -/
def State.rxCap (s : State) (n : Nat) : Nat := match s.rfld (rSeCtl n) 1 2 with
  | 1 => 0
  | 2 => 8
  | _ => 4

/-- The engine is out of reset and its clock runs (R82, R95). -/
def State.seLive (s : State) (n : Nat) : Bool := !(s.se n).inRst && !(s.se n).stopped

/-- The engine runs (R18, R299, R105, R520): in RUN, assigned, EN = 1, out of reset, its stand running and not halted. -/
def State.seRuns (s : State) (n : Nat) : Bool :=
  decide (s.mode = .run) && s.seAssigned n && s.rbit (rSeCtl n) 0 && s.seLive n &&
  decide (s.standState (s.seStand n) = 1) && !s.rbit rDbgShalt (s.seStand n)

/-- DWELL of an instruction (R284). -/
def State.seDwell (s : State) (n tm : Nat) : Nat :=
  match s.rfld (rSeCtl n) 3 2 with
  | 0 => tm % 16
  | 1 => tm % 4
  | 2 => s.rfld (rSeDwell n) (8 * (tm % 4)) 8
  | _ => 0

/-- The side-set pattern of an instruction: mask and values over the SIDE window, as a record (R284, R285). -/
def State.seSide (s : State) (n tm : Nat) : LaneRec :=
  let mode := s.rfld (rSeCtl n) 3 2
  if mode = 1 ∨ mode = 2 then
    let pat := s.rfld (rSeSide n) (8 * (tm / 4 % 4)) 8
    let b := s.rfld (rSeCtl n) 16 5
    let m : Word := (BitVec.ofNat 32 ((pat / 16) * 2 ^ b)) &&& fmask 0 (s.sePins n)
    let v : Word := BitVec.ofNat 32 ((pat % 16) * 2 ^ b)
    if s.rbit (rSeCtl n) 5 then { oeMask := m, oe := v &&& m } else { lvMask := m, lv := v &&& m }
  else {}

/-- Writes of `cnt` pins of the OUT window, bit k of `v` to pin OUTB + k; pins at or beyond PINCOUNT take nothing
(R277). -/
def State.seOut (s : State) (n cnt : Nat) (v : Word) (oe : Bool) : LaneRec :=
  let b := s.rfld (rSeCtl n) 6 5
  let m : Word := (BitVec.ofNat 32 ((2 ^ cnt - 1) * 2 ^ b)) &&& fmask 0 (s.sePins n)
  let w : Word := v <<< b
  if oe then { oeMask := m, oe := w &&& m } else { lvMask := m, lv := w &&& m }

/-- One record of an instruction's own writes and its side-set; side-set wins (R283). -/
def LaneRec.merge (a side : LaneRec) : LaneRec :=
  { lvMask := a.lvMask ||| side.lvMask, lv := (a.lv &&& ~~~ side.lvMask) ||| side.lv,
    oeMask := a.oeMask ||| side.oeMask, oe := (a.oe &&& ~~~ side.oeMask) ||| side.oe, ev := a.ev ||| side.ev }

/-- The record writes a pin or raises an event (R279). -/
def LaneRec.any (r : LaneRec) : Bool := r.lvMask != 0#32 || r.oeMask != 0#32 || r.ev != 0#4

/-- The lane has room (R282). -/
def State.laneRoom (s : State) (n : Nat) : Bool := decide ((s.se n).lane.length < 4)
/-- A record emitted, if it holds anything. -/
def State.emitRec (s : State) (n : Nat) (r : LaneRec) : State :=
  if r.any then s.modSe n (fun e => { e with lane := e.lane ++ [r] }) else s

/-- TCNT. -/
def State.tcnt (s : State) (n : Nat) : Nat := s.rfld (rSeCnt n) 0 6
/-- RCNT. -/
def State.rcnt (s : State) (n : Nat) : Nat := s.rfld (rSeCnt n) 8 6
/-- TCNT written. -/
def State.setTcnt (s : State) (n v : Nat) : State := s.rsetFld (rSeCnt n) 0 6 v
/-- RCNT written. -/
def State.setRcnt (s : State) (n v : Nat) : State := s.rsetFld (rSeCnt n) 8 6 v

/-- What an attempt to complete an instruction gives: a stall kind of R290, or the state with its register and queue
effects, its pin writes and pulses, and the next PC (none: PC + 1). -/
inductive SeTry where
  | stall (kind : Nat) (s : State) (shifted : Bool)
  | done (s : State) (out : LaneRec) (pc : Option Nat)

/-- TSR loaded with the next transmit word: PULL (R294); none where the queue is empty. -/
def State.sePull1 (s : State) (n : Nat) : Option State :=
  match (s.se n).txq with
  | [] => none
  | w :: r => some ((((s.modSe n (fun e => { e with txq := r })).setReg (rSeTsr n) w).setReg (rSeLastW n) w).setTcnt n 0)

/-- RSR put into the receive queue; `keep` leaves RSR and RCNT (R294); none where the queue is full. -/
def State.sePush1 (s : State) (n : Nat) (keep : Bool) : Option State :=
  if (s.se n).rxq.length < s.rxCap n then
    let s1 := s.modSe n (fun e => { e with rxq := e.rxq ++ [s.reg (rSeRsr n)] })
    some (if keep then s1 else (s1.setReg (rSeRsr n) 0#32).setRcnt n 0)
  else none

/-- Whether the level of group pin `p` reads 1; a pin at or beyond PINCOUNT reads 0 (R277). -/
def State.seRead (s : State) (n p : Nat) (pins : Word) : Bool := decide (p < s.sePins n) && pins.getLsbD p
/-- The IN window as a word (R277). -/
def State.seIn (s : State) (n : Nat) (pins : Word) : Word := (pins &&& fmask 0 (s.sePins n)) >>> s.rfld (rSeCtl n) 11 5

/-- The condition of a BR (R286), LOOP conditions excepted. -/
def State.seCond (s : State) (n : Nat) (cond : Nat) (pins : Word) : Bool :=
  let tsr := s.reg (rSeTsr n)
  let rsr := s.reg (rSeRsr n)
  let pw := s.rfld (rSeThr n) 16 6
  match cond with
  | 0 => true
  | 1 => s.seRead n (s.rfld (rSeCtl n) 21 5) pins
  | 2 => !s.seRead n (s.rfld (rSeCtl n) 21 5) pins
  | 5 => if s.rbit (rSeCtl n) 29 then tsr.getLsbD 31 else tsr.getLsbD 0
  | 6 => decide (fld (s.reg (rSePat n)) 0 pw = (if s.rbit (rSeCtl n) 30 then fld rsr 0 pw else fld rsr (32 - pw) pw))
  | 7 => (s.se n).txq.isEmpty
  | _ => false

/-- The source word of a COPY (R286). -/
def State.seCopySrc (s : State) (n src : Nat) (pins : Word) : Word :=
  match src with
  | 0 => s.reg (rSeL n 0)
  | 1 => s.reg (rSeL n 1)
  | 2 => s.seIn n pins
  | 3 => 0#32
  | 4 => s.reg (rSeTsr n)
  | 5 => s.reg (rSeRsr n)
  | 6 => BitVec.ofNat 32 ((s.se n).txq.length + (s.se n).rxq.length * 2 ^ 4 + b2n (s.rbit (rSeStat n) 8) * 2 ^ 8 +
      b2n (s.rbit (rSeStat n) 9) * 2 ^ 9 + s.tcnt n * 2 ^ 16 + s.rcnt n * 2 ^ 24)
  | _ => s.reg (rSePat n)

/-- N bits shifted out of TSR (R292): the bits, bit k first out as bit k, and the state after. -/
def State.seShiftOut (s : State) (n cnt : Nat) : Word × State :=
  let t := s.reg (rSeTsr n)
  let s1 := s.setTcnt n (min 32 (s.tcnt n + cnt))
  if s.rbit (rSeCtl n) 29 then (t.reverse &&& fmask 0 cnt, s1.setReg (rSeTsr n) (t <<< cnt))
  else (t &&& fmask 0 cnt, s1.setReg (rSeTsr n) (t >>> cnt))

/-- N bits shifted into RSR (R292). -/
def State.seShiftIn (s : State) (n cnt : Nat) (b : Word) : State :=
  let r := s.reg (rSeRsr n)
  let b := b &&& fmask 0 cnt
  (s.setReg (rSeRsr n) (if s.rbit (rSeCtl n) 30 then (r <<< cnt) ||| b else (r >>> cnt) ||| (b <<< (32 - cnt)))).setRcnt n
    (min 32 (s.rcnt n + cnt))

/-- One attempt at an instruction (R286–R294). `shifted`: a stalled SAMPLE has shifted already. -/
def State.seTry (s : State) (n : Nat) (op : SeOp) (pins : Word) (shifted : Bool) : SeTry :=
  match op with
  | .br cond tgt =>
    if cond.val = 3 ∨ cond.val = 4 then
      let k := cond.val - 3
      let l := s.reg (rSeL n k)
      if l ≠ 0#32 then .done (s.setReg (rSeL n k) (l - 1#32)) {} (some tgt)
      else .done (s.setReg (rSeL n k) (s.reg (rSeLrld n k))) {} none
    else .done s {} (if s.seCond n cond pins then some tgt.val else none)
  | .wait pc src arg =>
    if src then
      let hit := s.rfld (rSeEvt n) 0 4 &&& arg.val
      if hit = 0 then .stall 2 s false
      else .done (if pc then s.modReg (rSeEvt n) (fun w => w &&& ~~~ BitVec.ofNat 32 hit) else s) {} none
    else if s.seRead n arg pins = pc then .done s {} none else .stall 1 s false
  | .emit dest n1 refill =>
    let s1 := if refill && decide (s.rfld (rSeThr n) 0 6 ≤ s.tcnt n) then s.sePull1 n else some s
    match s1 with
    | none => .stall 3 s false
    | some s1 =>
      let r := s1.seShiftOut n (n1.val + 1)
      match dest with
      | 0 => .done r.2 (s.seOut n (n1.val + 1) r.1 false) none
      | 1 => .done r.2 (s.seOut n (n1.val + 1) r.1 true) none
      | 2 => .done (r.2.setReg (rSeL n 0) r.1) {} none
      | 3 => .done r.2 {} none
  | .sample src n1 send =>
    let bits : Word := match src with
      | 0 => s.seIn n pins
      | 1 => s.reg (rSeL n 0)
      | 2 => 0#32
      | 3 => 0xFFFFFFFF#32
    let s1 := if shifted then s else s.seShiftIn n (n1.val + 1) bits
    if send && (shifted || decide (s.rfld (rSeThr n) 8 6 ≤ s1.rcnt n)) then
      match s1.sePush1 n false with
      | some s2 => .done s2 {} none
      | none => .stall 4 s1 true
    else .done s1 {} none
  | .pull nb =>
    match s.sePull1 n with
    | some s1 => .done s1 {} none
    | none =>
      if nb then .done (((s.setReg (rSeTsr n) (s.reg (rSeLastW n))).setTcnt n 0).rset (rSeStat n) 8 |>.rcount (rSeQcnt n) 0 16 1) {} none
      else .stall 3 s false
  | .push nb keep =>
    match s.sePush1 n keep with
    | some s1 => .done s1 {} none
    | none =>
      if nb then
        let s1 := if keep then s else (s.setReg (rSeRsr n) 0#32).setRcnt n 0
        .done ((s1.rset (rSeStat n) 9).rcount (rSeQcnt n) 16 16 1) {} none
      else .stall 4 s false
  | .drive oe value => .done s (s.seOut n 7 (BitVec.ofNat 32 value) oe) none
  | .loadl l value => .done (s.setReg (rSeL n (b2n l)) (BitVec.ofNat 32 value)) {} none
  | .copy dst src inv rev =>
    let v := s.seCopySrc n src pins
    let v := if rev then v.reverse else v
    let v := if inv then ~~~ v else v
    match dst with
    | 0 => .done (s.setReg (rSeL n 0) v) {} none
    | 1 => .done (s.setReg (rSeL n 1) v) {} none
    | 2 => .done s (s.seOut n 32 v false) none
    | 3 => .done s (s.seOut n 32 v true) none
    | 4 => .done ((s.setReg (rSeTsr n) v).setTcnt n 0) {} none
    | 5 => .done ((s.setReg (rSeRsr n) v).setRcnt n 0) {} none
    | 6 => .done s {} (some (fld v 0 5))
    | 7 => .done (s.setReg (rSePat n) v) {} none
  | .signal out => .done s { ev := BitVec.ofNat 4 (2 ^ out.val) } none
  | .idle _ => .done s {} none

/-- An operation that is illegal by its fields: a WAIT on events with MASK = 0 or with bit 9 set (R286, R288). -/
def SeOp_illegal (op : SeOp) : Bool :=
  match op with
  | .wait _ true arg => decide (arg.val = 0) || decide (16 ≤ arg.val)
  | _ => false

/-- An illegal instruction (R288): EN cleared, ILL set, PC kept, the latch empty, a WARNING object. -/
def State.seIllegalAt (s : State) (n : Nat) : State :=
  (((s.rclr (rSeCtl n) 0).rset (rSeStat n) 11).modSe n (fun e => { e with latch := none })).recBin 0x05 0x01 n
    (s.rfld (rSePc n) 0 5 / 2) 2

/-- An instruction completed: its record, the next PC, and the rest cycles in the latch (R289). -/
def State.seFinish (s : State) (n : Nat) (op : SeOp) (tm : Nat) (out : LaneRec) (pc : Option Nat) : State :=
  let rest := s.seDwell n tm + (match op with
    | .idle k => k.val
    | _ => 0)
  let next := match pc with
    | some p => p % 32
    | none => (s.rfld (rSePc n) 0 5 + 1) % 32
  ((s.emitRec n out).rsetFld (rSePc n) 0 5 next).modSe n (fun e => { e with latch := some { op := op, tm := tm, pc := s.rfld (rSePc n) 0 5, begun := true, rest := rest } })

/-- The latch of a stalled instruction (R290). -/
def State.seStallWith (s : State) (n : Nat) (op : SeOp) (tm kind : Nat) (begun shifted : Bool) : State :=
  s.modSe n (fun e => { e with latch := some { op := op, tm := tm, pc := s.rfld (rSePc n) 0 5, stall := kind, begun := begun, shifted := shifted } })

/-- The first execution cycle of an instruction (R290, R291): with the lane full and a record due it stalls with kind OUT
and nothing happens; a stall of another kind still emits the side-set; else it completes. -/
def State.seFirst (s : State) (n : Nat) (op : SeOp) (tm : Nat) (pins : Word) : State :=
  let side := s.seSide n tm
  match s.seTry n op pins false with
  | .stall k s1 sh =>
    if side.any && !s.laneRoom n then s.seStallWith n op tm 5 false false
    else (s1.emitRec n side).seStallWith n op tm k true sh
  | .done s1 out pc =>
    if (out.merge side).any && !s.laneRoom n then s.seStallWith n op tm 5 false false
    else s1.seFinish n op tm (out.merge side) pc

/-- The levels that the synchronisers of `k` pins from `base` on deliver (R389). -/
def State.setPads (s : State) (base k : Nat) (w : Word) : State :=
  { s with pads := (List.range k).foldl (fun p i => Bank.put (fun _ => false) p (base + i) (w.getLsbD i)) s.pads }
/-- The levels of the group pins seen at the pads. -/
def State.seePads (s : State) (n : Nat) (pins : Word) : State := s.setPads (s.seBase n) (s.sePins n) pins
/-- The pads are inputs with no row of their own: where no command gives their levels, these are free (notes/assumptions/45.md). -/
def State.padsMove (s : State) (base k : Nat) : State := (s.setPads base k s.free).drew

/-- The engine executes an instruction: it must run and hold no stalled one. -/
def State.seExec (s : State) (n : Fin 32) (op : SeOp) (tm : Fin 16) (pins : Word) : State :=
  if s.seRuns n && (match (s.se n).latch with
      | some l => decide (l.stall = 0)
      | none => true) then
    if SeOp_illegal op then s.seIllegalAt n else s.seFirst n op tm pins
  else s

/-- SE BR (R286, R287). -/
def execSeBr (n : Fin 32) (cond : Fin 8) (tgt : Fin 32) (tm : Fin 16) (pins : Word) (s : State) : Out :=
  .next ((s.seePads n pins).seExec n (.br cond tgt) tm pins)
/-- SE WAIT (R286). -/
def execSeWait (n : Fin 32) (pc src : Bool) (arg : Fin 32) (tm : Fin 16) (pins : Word) (s : State) : Out :=
  .next ((s.seePads n pins).seExec n (.wait pc src arg) tm pins)
/-- SE EMIT (R292, R293). -/
def execSeEmit (n : Fin 32) (dest : Fin 4) (n1 : Fin 32) (refill : Bool) (tm : Fin 16) (s : State) : Out :=
  .next (s.seExec n (.emit dest n1 refill) tm 0#32)
/-- SE SAMPLE (R292, R293). -/
def execSeSample (n : Fin 32) (src : Fin 4) (n1 : Fin 32) (send : Bool) (tm : Fin 16) (pins : Word) (s : State) : Out :=
  .next ((s.seePads n pins).seExec n (.sample src n1 send) tm pins)
/-- SE PULL (R294). -/
def execSePull (n : Fin 32) (nb : Bool) (tm : Fin 16) (s : State) : Out := .next (s.seExec n (.pull nb) tm 0#32)
/-- SE PUSH (R294). -/
def execSePush (n : Fin 32) (nb keep : Bool) (tm : Fin 16) (s : State) : Out := .next (s.seExec n (.push nb keep) tm 0#32)
/-- SE DRIVE (R286). -/
def execSeDrive (n : Fin 32) (oe : Bool) (value : Fin 128) (tm : Fin 16) (s : State) : Out :=
  .next (s.seExec n (.drive oe value) tm 0#32)
/-- SE LOADL (R286). -/
def execSeLoadl (n : Fin 32) (l : Bool) (value : Fin 128) (tm : Fin 16) (s : State) : Out :=
  .next (s.seExec n (.loadl l value) tm 0#32)
/-- SE COPY (R286). -/
def execSeCopy (n : Fin 32) (dst src : Fin 8) (inv rev : Bool) (tm : Fin 16) (pins : Word) (s : State) : Out :=
  .next ((s.seePads n pins).seExec n (.copy dst src inv rev) tm pins)
/-- SE SIGNAL (R298). -/
def execSeSignal (n : Fin 32) (out : Fin 4) (tm : Fin 16) (s : State) : Out := .next (s.seExec n (.signal out) tm 0#32)
/-- SE IDLE (R289). -/
def execSeIdle (n : Fin 32) (cycles : Fin 256) (tm : Fin 16) (s : State) : Out := .next (s.seExec n (.idle cycles) tm 0#32)
/-- SE_ILLEGAL (R288). -/
def execSeIllegal (n : Fin 32) (s : State) : Out :=
  .next (if s.seRuns n && (match (s.se n).latch with
      | some l => decide (l.stall = 0)
      | none => true) then s.seIllegalAt n else s)

/-- SE_STALL_COMPLETE (R290): the stalled instruction is judged again; an OUT stall before its first cycle executes it then.
The SEK cycles of an OUT stall are counted in SEn_OSTALL (R282). -/
def execSeStallComplete (n : Fin 32) (cycles : Nat) (pins : Word) (s : State) : Out :=
  .next (s.gated (
    let s := s.seePads n pins
    match (s.se n).latch with
    | none => s
    | some l =>
      if l.stall = 0 || !s.seRuns n then s
      else
        let s := if l.stall = 5 then s.rcount (rSeOstall n) 0 32 cycles else s
        if !l.begun then s.seFirst n l.op l.tm pins
        else match s.seTry n l.op pins l.shifted with
          | .stall k _ _ => s.seStallWith n l.op l.tm k true l.shifted
          | .done s1 out pc =>
            if out.any && !s.laneRoom n then s.seStallWith n l.op l.tm 5 true l.shifted
            else s1.seFinish n l.op l.tm out pc))

/-- An event reaches input `i` of engine `n` (R298). -/
def State.sePend (s : State) (n i : Nat) : State := s.rset (rSeEvt n) i

/-- SEn_CTL.EN written (R299). -/
def State.seSetEn (s : State) (n : Nat) (en : Bool) : State := s.rput (rSeCtl n) 0 en

/-- SEN_CTL_EN_WRITE (R299): an engine the image does not assign ignores it (R309). -/
def execSenCtlEnWrite (n : Fin 32) (en : Bool) (s : State) : Out :=
  .next (s.gated (if s.seAssigned n && s.seLive n then s.seSetEn n en else s))

/-- A program-store word replaced (R300). -/
def State.seSetProg (s : State) (n i : Nat) (w : BitVec 16) : State := s.setReg (rSeProg n i) (w.setWidth 32)
/-- SEN_PROG_WRITE (R300). -/
def execSenProgWrite (n i : Fin 32) (w : BitVec 16) (s : State) : Out :=
  .next (s.gated (if s.seAssigned n && s.seLive n then s.seSetProg n i w else s))

/-- What abandoning a stalled instruction changes (R301): ABANDON, and TCNT or RCNT by its kind. -/
def State.seAbandon (s : State) (n : Nat) (op : SeOp) : State :=
  let s := s.rset (rSeStat n) 10
  match op with
  | .pull _ | .emit .. => s.setTcnt n 0
  | .push .. | .sample .. => s.setRcnt n 0
  | _ => s

/-- The instruction that a program-store word holds (R284, R286): the operation and its TIMING field; none: illegal (R288). -/
def seDecode (w : Word) : Option (SeOp × Nat) :=
  let b (k : Nat) : Bool := w.getLsbD k
  let f5 (k : Nat) : Fin 32 := ⟨fld w k 5 % 32, Nat.mod_lt _ (by decide)⟩
  let f2 (k : Nat) : Fin 4 := ⟨fld w k 2 % 4, Nat.mod_lt _ (by decide)⟩
  let f3 (k : Nat) : Fin 8 := ⟨fld w k 3 % 8, Nat.mod_lt _ (by decide)⟩
  let f7 : Fin 128 := ⟨fld w 4 7 % 128, Nat.mod_lt _ (by decide)⟩
  let op : Option SeOp := match fld w 12 4 with
    | 1 => some (.br (f3 9) (f5 4))
    | 2 => if b 4 then none else some (.wait (b 11) (b 10) (f5 5))
    | 3 => some (.emit (f2 10) (f5 5) (b 4))
    | 4 => some (.sample (f2 10) (f5 5) (b 4))
    | 5 => if fld w 4 7 = 0 then some (.pull (b 11)) else none
    | 6 => if fld w 4 6 = 0 then some (.push (b 11) (b 10)) else none
    | 7 => some (.drive (b 11) f7)
    | 8 => some (.loadl (b 11) f7)
    | 9 => some (.copy (f3 9) (f3 6) (b 5) (b 4))
    | 10 => if fld w 4 6 = 0 then some (.signal (f2 10)) else none
    | 11 => some (.idle ⟨fld w 4 8 % 256, Nat.mod_lt _ (by decide)⟩)
    | _ => none
  match op with
  | some o => if SeOp_illegal o then none else some (o, fld w 0 4)
  | none => none

/-- The levels of the group pins as last seen at the pads. -/
def State.sePins0 (s : State) (n : Nat) : Word :=
  BitVec.ofNat 32 (maskOf (s.sePins n) (fun i => Bank.get (fun _ => false) s.pads (s.seBase n + i)))

/-- An instruction whose first cycle begins at the edge of a PC write (R301): one that can complete does, its jump overridden; one
that cannot is abandoned with nothing executed, its side-set included; an illegal one stops the engine. -/
def State.sePcBegin (s : State) (n : Nat) : State :=
  let s := s.padsMove (s.seBase n) (s.sePins n)
  match seDecode (s.reg (rSeProg n (s.rfld (rSePc n) 0 5))) with
  | none => s.seIllegalAt n
  | some (op, tm) =>
    match s.seTry n op (s.sePins0 n) false with
    | .stall _ _ _ => s.seAbandon n op
    | .done s1 out pc =>
      if (out.merge (s.seSide n tm)).any && !s.laneRoom n then s.seAbandon n op
      else s1.seFinish n op tm (out.merge (s.seSide n tm)) pc

/-- SEn_PC written (R301): of a running engine a stalled instruction is abandoned, remaining rest cycles are cancelled, and an
instruction whose first cycle begins at the edge completes in it or is abandoned; of a stopped one the latch is emptied. The next fetch
is from the written PC. -/
def State.seSetPc (s : State) (n pc : Nat) : State :=
  match (s.se n).latch with
  | some l =>
    if l.stall ≠ 0 then ((s.seAbandon n l.op).rsetFld (rSePc n) 0 5 pc).modSe n (fun e => { e with latch := none })
    else if s.seRuns n && decide (l.rest = 0) then (s.sePcBegin n).rsetFld (rSePc n) 0 5 pc
    else (s.rsetFld (rSePc n) 0 5 pc).modSe n (fun e => { e with latch := none })
  | none => (if s.seRuns n then s.sePcBegin n else s).rsetFld (rSePc n) 0 5 pc
/-- SEN_PC_WRITE (R301). -/
def execSenPcWrite (n pc : Fin 32) (s : State) : Out :=
  .next (s.gated (if s.seAssigned n && s.seLive n then s.seSetPc n pc else s))

/-- SEN_L_WRITE (R302). -/
def execSenLWrite (n : Fin 32) (l : Bool) (v : Word) (s : State) : Out :=
  .next (s.gated (if s.seAssigned n && s.seLive n then s.setReg (rSeL n (b2n l)) v else s))

/-! ### Calibration (R304–R306) -/

/-- Calibrator of engine `n`, group pin `i`. -/
def State.cal (s : State) (n i : Nat) : Cal := Bank.get (fun _ => ({} : Cal)) s.cals (32 * n + i)
/-- A calibrator written. -/
def State.setCal (s : State) (n i : Nat) (c : Cal) : State :=
  { s with cals := Bank.put (fun _ => ({} : Cal)) s.cals (32 * n + i) c }

/-- The tap the calibrator wants after a block (R305). -/
def calWant (tap wlo whi : Nat) : Int :=
  if whi + (wlo + whi) / 8 < wlo then (tap : Int) + 1
  else if wlo + (wlo + whi) / 8 < whi then (tap : Int) - 1 else tap

/-- The decision after 256 observations (R305). -/
def State.calDecide (s : State) (n i : Nat) (c : Cal) : State :=
  let w := s.reg (rSeTap n i)
  let tap := fld w 0 6
  let want := calWant tap c.wlo c.whi
  let c0 : Cal := { c with wlo := 0, whi := 0, n := 0, hist := [] }
  if s.rbit (rSeCalCtl n) 0 || c.move.isSome then s.setCal n i c0
  else if want < fld w 16 6 ∨ (fld w 24 6 : Int) < want then
    ((s.setCal n i c0).rset (rSeTap n i) 31).rset (rSeStat n) 13
  else if want ≠ tap then s.setCal n i { c0 with move := some want.toNat }
  else s.setCal n i c0

end Machine
end Sys2Proof
end

