-- ==== Sys2Proof/Machine/Timer.lean ====
section
/-! DEFINITION. Timers, linked pairs and block time (R310–R335). -/
namespace Sys2Proof
namespace Machine

/-- Timer `n` beside its registers. -/
def State.tmr (s : State) (n : Nat) : Tmr := Bank.get (fun _ => ({} : Tmr)) s.tmrs n
/-- Timer `n` changed. -/
def State.modTmr (s : State) (n : Nat) (f : Tmr → Tmr) : State :=
  { s with tmrs := Bank.put (fun _ => ({} : Tmr)) s.tmrs n (f (s.tmr n)) }

/-! ### Linked pairs (R321, R322) -/

/-- The even timer `n` is linked to the odd one above it. -/
def State.tmLinked (s : State) (n : Nat) : Bool := decide (n % 2 = 0) && s.rbit (rTmCtl n) 2
/-- Timer `n` is the odd timer of a linked pair, which reports nothing of its own (R322). -/
def State.tmOdd (s : State) (n : Nat) : Bool := decide (n % 2 = 1) && s.rbit (rTmCtl (n - 1)) 2

/-- A value held in one register, or over a linked pair in two. -/
def State.tmVal (s : State) (n : Nat) (reg : Nat → Nat) : Nat :=
  (s.reg (reg n)).toNat + if s.tmLinked n then (s.reg (reg (n + 1))).toNat * 2 ^ 32 else 0
/-- Such a value written. -/
def State.tmSet (s : State) (n : Nat) (reg : Nat → Nat) (v : Nat) : State :=
  let s1 := s.setReg (reg n) (BitVec.ofNat 32 v)
  if s.tmLinked n then s1.setReg (reg (n + 1)) (BitVec.ofNat 32 (v / 2 ^ 32)) else s1

/-- The timer freezes with its halted stand (R326). -/
def State.tmDfrz (s : State) (n : Nat) : Bool := s.rbit (rTmCtl n) 3 && s.rbit rDbgShalt (s.tmr n).stand

/-- The timer runs (R312): the block runs, EN = 1, the stand is not between Fence and Release, and it is not frozen. -/
def State.tmRuns (s : State) (n : Nat) : Bool :=
  decide (s.mode = .run) && (s.tmr n).hasRec && !s.tmOdd n && s.rbit (rTmCtl n) 0 &&
  decide (s.standState (s.tmr n).stand = 1) && !s.tmDfrz n

/-! ### Counting and comparing -/

/-- The release of R238 sent to every thread that waits on timer `n`, with the count of this cycle; it reaches the engine with
WAIT_RELEASE. -/
def State.tmRelease (s : State) (n : Nat) (v : Word) : State :=
  s.each (s.threads.map Prod.fst) (fun s t => s.modThr t (fun h => match h.stall with
    | .waitt m rd => if m = n then { h with stall := .waitd rd v } else h
    | _ => h))

/-- A match fires (R315): MATCHF, a pulse on EOUT0, the compare input armed, the waiting threads' releases. -/
def State.tmFire (s : State) (n : Nat) : State :=
  (((s.rset (rTmStat n) 0).modTmr n (fun t => { t with armed := true })).pulse (128 + 2 * n)).tmRelease n (s.reg (rTmCnt n))

/-- COUNT wraps to 0 (R316). -/
def State.tmWrap (s : State) (n : Nat) : State := (s.rset (rTmStat n) 3).pulse (128 + 2 * n + 1)

/-- The comparator of one cycle (R313). -/
def State.tmEval (s : State) (n : Nat) : State :=
  let e := decide (s.tmVal n rTmCnt = s.tmVal n rTmCmp)
  let s1 := s.modTmr n (fun t => { t with lastE := e })
  if e && !(s.tmr n).lastE then s1.tmFire n else s1

/-- The comparator in a cycle in which the timer begins to run, or meets a new compare value (R311–R314). -/
def State.tmWake (s : State) (n : Nat) : State := if s.tmRuns n then s.tmEval n else s

/-- COUNT incremented, with its wrap (R310, R316, R322). -/
def State.tmIncr (s : State) (n : Nat) : State :=
  let v := (s.tmVal n rTmCnt + 1) % (if s.tmLinked n then 2 ^ 64 else 2 ^ 32)
  let s1 := s.tmSet n rTmCnt v
  if v = 0 then s1.tmWrap n else s1

/-- P advanced once (R310). -/
def State.tmAdvance (s : State) (n : Nat) : State :=
  if (s.tmr n).p = s.rfld (rTmCtl n) 16 16 then (s.modTmr n (fun t => { t with p := 0 })).tmIncr n
  else s.modTmr n (fun t => { t with p := t.p + 1 })

/-- One TCLK cycle of timer `n`: a running timer with SRC = 0 advances, and the comparator is evaluated (R310, R313). -/
def State.tmTick (s : State) (n : Nat) : State :=
  if s.tmRuns n then
    let s1 := if s.rbit (rTmCtl n) 1 then s else s.tmAdvance n
    s1.tmEval n
  else s

/-- The channel whose receiver, or sender, is an endpoint word. -/
def State.chanOf (s : State) (recv : Bool) (ep : Word) : Option Nat :=
  (s.chans.find? (fun c => decide ((if recv then c.2.recvEp else c.2.sendEp) = ep))).map Prod.fst
/-- The endpoint word of KIND, UNIT and SUB (R251). -/
def epWord (kind unit sub : Nat) : Word := BitVec.ofNat 32 (kind * 2 ^ 28 + unit * 2 ^ 16 + sub)

/-- A start (R311, R317): COUNT = PHASE, P = 0, the last evaluated E taken as 0, EN as given, a bound compare input
armed. -/
def State.tmStart (s : State) (n : Nat) (en : Bool) : State :=
  (((s.tmSet n rTmCnt (s.tmVal n rTmPhase)).rput (rTmCtl n) 0 en).modTmr n (fun t =>
    { t with p := 0, lastE := false, armed := (s.chanOf true (epWord 3 n 1)).isSome }))

/-- A write to TMn_CMP lands: it changes the live comparator, which acts in the cycle (R314). -/
def State.tmWriteCmp (s : State) (n : Nat) (v : Word) : State :=
  if (s.tmr n).hasRec then
    (s.setReg (rTmCmp n) v).tmWake (if s.tmOdd n then n - 1 else n)
  else s

/-- A write to TMn_CTL lands: EN and FRZ_DBG are RW, SRC, LINK and PRE are RWL (R12, R312). In an odd timer LINK reads 0. A timer that it
lets run compares in that cycle. -/
def State.tmWriteCtl (s : State) (n : Nat) (v : Word) (rwl : Bool) : State :=
  if (s.tmr n).hasRec then
    let keep : Word := if rwl then 0xFFFF000F#32 else 0x00000009#32
    let w := (s.reg (rTmCtl n) &&& ~~~ keep) ||| (v &&& keep)
    (s.setReg (rTmCtl n) (if n % 2 = 1 then clrBit w 2 else w)).tmWake n
  else s

/-- RWL fields accept writes in BOOT, RECOVERY and TEST (R12). -/
def State.rwlOpen (s : State) : Bool := decide (s.mode = .boot) || decide (s.mode = .recovery) || decide (s.mode = .test)

/-- TMN_CMP_WRITE (R314). -/
def execTmnCmpWrite (n : Fin 64) (v : Word) (s : State) : Out := .next (s.gated (s.tmWriteCmp n v))
/-- TMN_CTL_WRITE (R312). -/
def execTmnCtlWrite (n : Fin 64) (v : Word) (s : State) : Out := .next (s.gated (s.tmWriteCtl n v s.rwlOpen))

/-- TIMER_MATCH (R313, R315): the count meets CMP after a non-match. With SRC = 0 the count has then run up to a CMP above it, which it
reaches in the cycle in which P becomes 0 (R310); with SRC = 1 it stands there. A CMP below the count lies behind the wrap (R314). -/
def execTimerMatch (n : Fin 64) (s : State) : Out :=
  .next (
    let cnt := s.tmVal n rTmCnt
    let cmp := s.tmVal n rTmCmp
    if s.tmRuns n && (if cnt = cmp then !(s.tmr n).lastE else !s.rbit (rTmCtl n) 1 && decide (cnt < cmp)) then
      ((s.tmSet n rTmCnt cmp).modTmr n (fun t => { t with p := if cnt = cmp then t.p else 0, lastE := true })).tmFire n
    else s)

/-- TIMER_WRAP (R316): a running timer with SRC = 0 has counted up to its wrap, past no CMP that has yet to match (R313); the comparator
sees the count 0. -/
def execTimerWrap (n : Fin 64) (s : State) : Out :=
  .next (
    let cnt := s.tmVal n rTmCnt
    let cmp := s.tmVal n rTmCmp
    if s.tmRuns n && !s.rbit (rTmCtl n) 1 && !(decide (cnt < cmp) || (decide (cnt = cmp) && !(s.tmr n).lastE)) then
      (((s.tmSet n rTmCnt 0).modTmr n (fun t => { t with p := 0, lastE := false })).tmWrap n).tmEval n
    else s)

/-! ### Channels and event inputs of timers -/

/-- A unit sender's one-word message (R258): none where the channel has no free word or holds 8 messages. -/
def State.unitPut (s : State) (c : Nat) (w : Word) : Option State :=
  if s.freeWords c < 1 || (s.chan c).fullMsgs then none else some ((s.stage c [w]).publish c)

/-- The next word that a unit receiver takes (R257): an uncorrectable word is received as 0 (R250). -/
def State.unitTake (s : State) (c : Nat) : Option (Word × State) :=
  match (s.chan c).msgs with
  | [] => none
  | m :: _ =>
    match m.words with
    | [] => none
    | w :: _ =>
      let s := s.readWords c 0 1
      if w.bad then some (0#32, (s.poolBad c).takeHead c 1) else some (w.v, s.takeHead c 1)

/-- A capture (R318, R319, R322): CAP takes COUNT; OVR where CAPF is still 1; CAPF; a bound capture output sends the low
word, or drops it with UDROP. -/
def State.tmCapture (s : State) (n : Nat) : State :=
  let v := s.tmVal n rTmCnt
  let s1 := if s.rbit (rTmStat n) 1 then s.rset (rTmStat n) 2 else s
  let s2 := (s1.tmSet n rTmCap v).rset (rTmStat n) 1
  match s2.chanOf false (epWord 3 n 0) with
  | some c => (s2.unitPut c (BitVec.ofNat 32 v)).getD (s2.rset (rMcStat c) 28)
  | none => s2

/-- TIMER_CAPTURE (R318, R320): the capture input takes its event, whether or not the timer runs. -/
def execTimerCapture (n : Fin 64) (s : State) : Out :=
  .next (s.gated (if (s.tmr n).hasRec && !s.tmOdd n && (s.tmr n).capIn then
    (s.modTmr n (fun t => { t with capIn := false })).tmCapture n else s))

/-- TIMER_COUNT_EVENT (R310, R320): with SRC = 1 a running timer takes one event and advances P; with SRC = 0 the event is
taken and discarded. -/
def execTimerCountEvent (n : Fin 64) (s : State) : Out :=
  .next (s.gated (if (s.tmr n).hasRec && !s.tmOdd n && decide (0 < (s.tmr n).held) then
    if s.rbit (rTmCtl n) 1 then
      if s.tmRuns n then ((s.modTmr n (fun t => { t with held := t.held - 1 })).tmAdvance n).tmEval n else s
    else s.modTmr n (fun t => { t with held := t.held - 1 })
  else s))

/-- TIMER_COMPARE_INPUT (R317). -/
def State.tmCompareIn (s : State) (n : Nat) : State :=
  if (s.tmr n).hasRec && (s.tmr n).armed then
    match s.chanOf true (epWord 3 n 1) with
    | none => s
    | some c =>
      match s.unitTake c with
      | none => s
      | some (w, s1) => (s1.modTmr n (fun t => { t with armed := false })).tmWriteCmp n w
  else s
/-- TIMER_COMPARE_INPUT (R317). -/
def execTimerCompareInput (n : Fin 64) (s : State) : Out := .next (s.gated (s.tmCompareIn n))

/-! ### Reads -/

/-- The low half of a register as a word of a 64-bit value. -/
def lowW (v : BitVec 64) : Word := v.setWidth 32
/-- The high half. -/
def highW (v : BitVec 64) : Word := (v >>> 32).setWidth 32

/-- A read of TMn_CAP by a thread or the host clears CAPF; over a linked pair only the even timer's (R318, R322). -/
def State.tmReadCap (s : State) (n : Nat) (m : Master) (wide : Bool) : State :=
  match m with
  | .debugger => s
  | _ =>
    let s1 := if s.tmOdd n then s else s.rclr (rTmStat n) 1
    if wide && decide (n % 2 = 0) && !s.tmLinked n then s1.rclr (rTmStat (n + 1)) 1 else s1

/-- The live word of a timer or block-time register (R323, R330). -/
def State.tmRead (s : State) (a : Nat) : Word :=
  if a = rBtCntLo then lowW s.bt.bt
  else if a = rBtCntHi then highW s.bt.bt
  else if a = rBtCtLo then lowW (s.bt.bt + s.bt.ofs)
  else if a = rBtCtHi then highW (s.bt.bt + s.bt.ofs)
  else if a = rBtOfsLo then lowW s.bt.ofs
  else if a = rBtOfsHi then highW s.bt.ofs
  else if a = rBtStat then putBit (putBit (s.reg a) 1 s.bt.hold) 3 (decide (8 ≤ s.bt.good))
  else match (List.range 64).find? (fun n => decide (a = rTmStat n)) with
    | some n => putBit (putBit (putBit (s.reg a) 8 (s.tmRuns n)) 9 (!s.tmOdd n && s.tmDfrz n)) 10 (s.tmr n).armed
    | none => s.reg a

/-- The high word of the pair whose low word lies at an address (R323). The count and capture registers of an unlinked even timer are
taken as such a pair too, in a host read as in a W64 load: DEDUCED from R323's sentence on them (notes/assumptions/60.md). -/
def pairHigh (a : Nat) : Option Nat :=
  if a = rBtCntLo then some rBtCntHi
  else if a = rBtCtLo then some rBtCtHi
  else if a = rBtPpsCapLo then some rBtPpsCapHi
  else (((List.range 32).map (fun p => [(rTmCnt (2 * p), rTmCnt (2 * p + 1)), (rTmCap (2 * p), rTmCap (2 * p + 1))])).flatten.find?
    (fun q => decide (q.1 = a))).map Prod.snd
/-- The address is a pair's high word (R323). -/
def isPairHigh (a : Nat) : Bool :=
  decide (a = rBtCntHi) || decide (a = rBtCtHi) || decide (a = rBtPpsCapHi) ||
  (List.range 32).any (fun p => decide (a = rTmCnt (2 * p + 1)) || decide (a = rTmCap (2 * p + 1)))

/-- What a read of a capture register clears, by address. -/
def State.capReadAt (s : State) (a : Nat) (m : Master) (wide : Bool) : State :=
  match (List.range 64).find? (fun n => decide (a = rTmCap n)) with
  | some n => s.tmReadCap n m wide
  | none => s

/-- A host read of a pair's low word (R324): the live low word, and the live high word latched under its address. -/
def State.hostPairLow (s : State) (a : Nat) : State :=
  match pairHigh a with
  | some h => { s.capReadAt a (.host true true) false with rdata := s.tmRead a, pairLatch := some (h, s.tmRead h) }
  | none => s
/-- A host read of a pair's high word (R324): the latch where the tag matches, cleared with it; else the live word. A latched capture that
another has overtaken clears no CAPF (R318). -/
def State.hostPairHigh (s : State) (a : Nat) : State :=
  if isPairHigh a then
    match s.pairLatch with
    | some (t, v) =>
      if t = a then { (if v = s.tmRead a then s.capReadAt a (.host true true) false else s) with rdata := v, pairLatch := none }
      else { s.capReadAt a (.host true true) false with rdata := s.tmRead a }
    | none => { s.capReadAt a (.host true true) false with rdata := s.tmRead a }
  else s

/-- TMN_CAP_READ (R318, R323, R324): a host read acts on the host pair latch. -/
def execTmnCapRead (n : Fin 64) (m : Master) (wide : Bool) (s : State) : Out :=
  .next (s.gated (match m with
    | .host _ _ => if n.val % 2 = 0 then s.hostPairLow (rTmCap n) else s.hostPairHigh (rTmCap n)
    | _ => { s.tmReadCap n m wide with rdata := s.reg (rTmCap n) }))

/-- HOST_PAIR_LOW_READ (R324). -/
def execHostPairLowRead (a : Addr) (s : State) : Out := .next (s.gated (s.hostPairLow a.toNat))
/-- HOST_PAIR_HIGH_READ (R324). -/
def execHostPairHighRead (a : Addr) (s : State) : Out := .next (s.gated (s.hostPairHigh a.toNat))

/-! ### Group start (R325) -/

/-- The owner stand of a resource lets a thread of `st` act on it: its own stand, or one it manages (R102, R325). -/
def State.managed (s : State) (t n : Nat) : Bool :=
  decide ((s.thr t).stand = n) || (s.rbit (rStcCfg (s.thr t).stand) 5 && !s.shBad 2 (s.thr t).stand)

/-- SECA and PRIVA of stand `n` as they are taken, under a shadow mismatch of group 2 too (R101, R499). -/
def State.standSec (s : State) (n : Nat) : Bool := s.rbit (rStcCfg n) 3 || s.shBad 2 n
/-- See `State.standSec`. -/
def State.standPriv (s : State) (n : Nat) : Bool := s.rbit (rStcCfg n) 4 || s.shBad 2 n
/-- The attribute of stand `n` admits a request (R101, R497). -/
def State.standAdmits (s : State) (n : Nat) (sec priv : Bool) : Bool :=
  (!s.standSec n || sec) && (!s.standPriv n || priv)

/-- The timers selected in TM_GSEL0 and TM_GSEL1. -/
def State.gsel (s : State) : List Nat := members 64 (fun n => s.rbit (rTmGsel (n / 32)) (n % 32))

/-- A selected timer that a writer may start: it has a record, and is not the odd timer of a pair. -/
def State.mayStart (s : State) (m : Master) (n : Nat) : Bool :=
  (s.tmr n).hasRec &&
  match m with
  | .thread t => s.managed t (s.tmr n).stand
  | _ => true

/-- A group start with the key (R325): a host write that any selected timer refuses is DENIED and starts nothing. -/
def State.groupStart (s : State) (m : Master) : State :=
  let sel := s.gsel.filter (fun n => !s.tmOdd n)
  let refused := match m with
    | .host sec priv | .link sec priv => sel.any (fun n => (s.tmr n).hasRec && !s.standAdmits (s.tmr n).stand sec priv)
    | _ => false
  if refused then s
  else
    let s1 := s.each (sel.filter (s.mayStart m)) (fun s n => (s.tmStart n true).tmWake n)
    let s2 := if sel.all (s.mayStart m) then s1 else s1.rset rTmGstat 2
    s2.rset rTmGstat 1

/-- TM_GSTART (R325). -/
def execTmGstart (m : Master) (key : BitVec 16) (s : State) : Out :=
  .next (s.gated (if key = 0x6A51#16 then s.groupStart m else s))

/-! ### Block time -/

/-- BT advanced by `k` TCLK cycles under a constant ADJ (R328). -/
def BlockTime.advance (b : BlockTime) (adj : Word) (k : Nat) : BlockTime :=
  if b.on then
    let t := b.frac.toNat + k * ((2 ^ 32 : Int) + adj.toInt).toNat
    { b with bt := b.bt + BitVec.ofNat 64 (t / 2 ^ 32), frac := BitVec.ofNat 32 t }
  else b

/-- One TCLK cycle: BT and every timer; none in a freeze (R530). -/
def State.tclk (s : State) : State :=
  s.gated (({ s with bt := s.bt.advance (s.reg rBtAdj) 1 } : State).each (s.tmrs.map Prod.fst) (fun s n => s.tmTick n))

/-- The largest rate trim (R328, R333). -/
def adjMax : Int := 858993
/-- A rate clamped (R328). -/
def clampAdj (v : Int) : Int := if v < -adjMax then -adjMax else if adjMax < v then adjMax else v
/-- A signed number saturated to 32 bits. -/
def sat32 (v : Int) : Word :=
  BitVec.ofInt 32 (if v < -(2 ^ 31 : Int) then -(2 ^ 31 : Int) else if (2 ^ 31 : Int) - 1 < v then (2 ^ 31 : Int) - 1 else v)

/-- BT_DISC.MODE as it acts: 3 is stored as 0. -/
def State.btMode (s : State) : Nat := s.rfld rBtDisc 0 2
/-- LOCKED (R333). -/
def State.btLocked (s : State) : Bool := decide (8 ≤ s.bt.good)

/-- An accepted sample (R333): phase error `p`, interval `d`. LOCKED and HOLD follow; a fall of LOCKED pulses Q266
(R336). -/
def State.btSample (s : State) (p : Int) (d : Nat) (first : Bool) : State :=
  let locked := s.btLocked
  let good := if p.natAbs ≤ 16 then min 8 (s.bt.good + 1) else 0
  let s := { s with bt := { s.bt with first := false, hold := false, good := good } }.setReg rBtPerr (sat32 p)
  let s :=
    if first || (s.rbit rBtDisc 12 && decide ((s.reg rBtStepMax).toNat < p.natAbs)) then
      (({ s with bt := { s.bt with ofs := s.bt.ofs - BitVec.ofInt 64 p } } : State).rset rBtStat 2).rcount rBtStat 16 16 1
    else if d = 0 then s
    else
      let r : Int := Int.tdiv (p * 2 ^ 32) d
      let frq := clampAdj ((s.reg rBtFrq).toInt - r / 2 ^ (s.rfld rBtDisc 8 4))
      let adj := clampAdj (frq - r / 2 ^ (s.rfld rBtDisc 4 4))
      let s := (s.setReg rBtFrq (BitVec.ofInt 32 frq)).setReg rBtAdj (BitVec.ofInt 32 adj)
      if adj = adjMax ∨ adj = -adjMax then s.rset rBtStat 5 else s
  if locked && !s.btLocked then s.pulse 266 else s

/-- p in (−NOM/2, NOM/2] (R331). -/
def phaseErr (v nom : Nat) : Int := if 2 * (v % nom) ≤ nom then (v % nom : Nat) else ((v % nom : Nat) : Int) - nom

/-- PPS_EDGE (R331): BT captured in every mode, the producer pulsed; in MODE 1 the edge gives a sample. -/
def execPpsEdge (cycles : Nat) (s : State) : Out :=
  .next (s.gated (
    let s := { s with bt := s.bt.advance (s.reg rBtAdj) cycles }
    let cap := s.bt.bt
    let s1 := ((s.setReg rBtPpsCapLo (lowW cap)).setReg rBtPpsCapHi (highW cap)).pulse 257
    if s.btMode ≠ 1 then s1
    else
      let nom := s.rfld rBtNom 0 28
      let s2 := { s1 with bt := { s1.bt with prev := some cap } }
      if nom = 0 then ({ s2 with bt := { s2.bt with first := false } } : State).rset rBtStat 0
      else
        let p := phaseErr (cap + s.bt.ofs).toNat nom
        match s.bt.prev with
        | none => s2.btSample p 0 true
        | some q =>
          let d := (cap - q).toNat
          if s.bt.first || decide (3 * nom < d) then s2.btSample p d true
          else if nom - nom / 1024 ≤ d ∧ d ≤ nom + nom / 1024 then s2.btSample p d false
          else s2.rset rBtStat 0))

/-- BT_HOLDOVER (R334): HOLD rises, ADJ is set to FRQ, Q266 pulses (R336). Samples are taken in MODE 1 and 2 only. -/
def execBtHoldover (s : State) : Out :=
  .next (s.gated (if (s.btMode = 1 ∨ s.btMode = 2) ∧ s.bt.hold = false then
    ((({ s with bt := { s.bt with hold := true } } : State).setReg rBtAdj (s.reg rBtFrq))).pulse 266 else s))

/-- A write to BT_OFSLO (R330): held in MODE 0, refused with WREF in other modes. -/
def State.btWriteOfsLo (s : State) (v : Word) : State :=
  if s.btMode = 0 then { s with bt := { s.bt with ofsLo := v } } else s.rset rBtStat 4
/-- BT_OFSHI_WRITE (R330). -/
def State.btWriteOfsHi (s : State) (v : Word) : State :=
  if s.btMode = 0 then { s with bt := { s.bt with ofs := v ++ s.bt.ofsLo } } else s.rset rBtStat 4
/-- BT_ADJ_WRITE (R328, R330). -/
def State.btWriteAdj (s : State) (v : Word) : State :=
  if s.btMode = 0 then s.setReg rBtAdj (BitVec.ofInt 32 (clampAdj v.toInt)) else s.rset rBtStat 4
/-- A write to BT_DISC: MODE 3 is stored as 0; a change of MODE keeps FRQ and ADJ, and the next sample is a first one
(R331, R332, R334). -/
def State.btWriteDisc (s : State) (v : Word) : State :=
  let md := if fld v 0 2 = 3 then 0 else fld v 0 2
  let s1 := s.setReg rBtDisc (setFld (v &&& 0x7FF3#32) 0 2 md)
  if md = s.btMode then s1 else { s1 with bt := { s1.bt with first := true, prev := none } }

/-- BT_OFSHI_WRITE (R330). -/
def execBtOfshiWrite (v : Word) (s : State) : Out := .next (s.gated (s.btWriteOfsHi v))
/-- BT_ADJ_WRITE (R330). -/
def execBtAdjWrite (v : Word) (s : State) : Out := .next (s.gated (s.btWriteAdj v))

end Machine
end Sys2Proof
end

