-- ==== Sys2Proof/Machine/Mailbox.lean ====
section
/-! DEFINITION. Host mailboxes, the unit endpoints of shift engines and timers, and the pool scrubber (R250, R257–R260). -/
namespace Sys2Proof
namespace Machine

/-! ### Host mailboxes (R259, R260) -/

/-- The channel of mailbox `k` and whether the mailbox receives. -/
def State.mailbox (s : State) (k : Nat) : Option (Nat × Bool) :=
  match s.chanOf true (epWord 6 0 k) with
  | some c => some (c, true)
  | none => (s.chanOf false (epWord 6 0 k)).map (fun c => (c, false))

/-- The owner stand of a channel, if it has one (MCn_CFG). -/
def State.chanStand (s : State) (c : Nat) : Option Nat :=
  if s.rbit (rMcCfg c) 28 then some (s.rfld (rMcCfg c) 24 4) else none

/-- The attribute check of a mailbox (R260). -/
def State.mailboxAdmits (s : State) (m : Master) (k : Nat) : Bool :=
  match m with
  | .host sec priv | .link sec priv =>
    match s.mailbox k with
    | some (c, _) =>
      match s.chanStand c with
      | some n => s.standAdmits n sec priv
      | none => true
    | none => true
  | _ => true

/-- MC_HSTATk: CODE, LAST, ERR and COUNT of the last host operation (R259). -/
def State.setHstat (s : State) (k code : Nat) (last : Bool) (err count : Nat) : State :=
  s.setReg (rMcHstat k) (BitVec.ofNat 32 (code % 16 + b2n last * 2 ^ 4 + (err % 8) * 2 ^ 5 + (count % 64) * 2 ^ 8))

/-- MC_HSTATk as it reads (R259): RECV, BOUND and READY are live. -/
def State.mailStat (s : State) (k : Nat) : Word :=
  let live := match s.mailbox k with
    | some (c, true) => 2 ^ 24 + 2 ^ 25 + b2n (!(s.chan c).msgs.isEmpty) * 2 ^ 26
    | some (c, false) => 2 ^ 25 + b2n (decide (0 < s.freeWords c)) * 2 ^ 26
    | none => 0
  s.reg (rMcHstat k) ||| BitVec.ofNat 32 live

/-- The operation that a mailbox access is, as the pool decides it. -/
def mailOp (f : ChanForm) (v : Word) : ChanOp :=
  { form := f, try_ := true, wide := false, port := 0, dataReg := 0, statReg := 0, data := v.setWidth 64, timeout := none, pc := 0#24 }

/-- One host operation on mailbox `k` (R259): the word returned, and the state with MC_HSTATk. An uncorrectable word is
received as 0 (R250). -/
def State.mailOn (s : State) (k : Nat) (f : ChanForm) (v : Word) : Word × State :=
  match s.mailbox k with
  | none => (0#32, s.setHstat k 0 false 1 0)
  | some (c, recv) =>
    if f.isSend == recv then (0#32, s.setHstat k 0 false 2 0)
    else match s.decideOn c (mailOp f v) with
      | none => (0#32, s.setHstat k 1 false 0 0)
      | some (.status code last count data, s1) => (loW (data.getD 0#64), s1.setHstat k code last 0 count)
      | some (.error 6 _, s1) =>
        let left := match (s.chan c).msgs with
          | m :: _ => m.words.length - 1
          | [] => 0
        (0#32, s1.setHstat k 0 (decide (left = 0)) 0 left)
      | some (.error kind _, s1) => (0#32, s1.setHstat k 0 false kind 0)
      | some (.snapshot _, s1) => (0#32, s1)

/-- A mailbox access by a master that the attribute check admits; the word returned goes to the answer. -/
def State.mailAccess (s : State) (m : Master) (k : Nat) (f : ChanForm) (v : Word) : State :=
  if s.mailboxAdmits m k then { (s.mailOn k f v).2 with rdata := (s.mailOn k f v).1 } else s

/-- The next word of a mailbox, not taken: what a debug-port read of MC_HGETk returns (R10, R259). -/
def State.mailPeek (s : State) (k : Nat) : Word :=
  match s.mailbox k with
  | some (c, true) =>
    match (s.chan c).msgs with
    | m :: _ => match m.words with
      | w :: _ => if w.bad then 0#32 else w.v
      | [] => 0#32
    | [] => 0#32
  | _ => 0#32

/-- A read of MC_HGETk (R259, R10). -/
def State.mailGet (s : State) (m : Master) (k : Nat) : State :=
  match m with
  | .debugger => { s with rdata := s.mailPeek k }
  | _ => s.mailAccess m k .get 0#32

/-- A write to MC_HSTATk (R259): more than one of END, ABT and DROP set acts on none. -/
def State.mailStatWrite (s : State) (m : Master) (k : Nat) (v : Word) : State :=
  match v.getLsbD 16, v.getLsbD 17, v.getLsbD 18 with
  | true, false, false => s.mailAccess m k .endm 0#32
  | false, true, false => s.mailAccess m k .abt 0#32
  | false, false, true => s.mailAccess m k .drop 0#32
  | _, _, _ => s

/-- MC_HPUT (R259). -/
def execMcHput (m : Master) (k : Fin 16) (v : Word) (s : State) : Out := .next (s.gated (s.mailAccess m k .put v))
/-- MC_HPUTE (R259). -/
def execMcHpute (m : Master) (k : Fin 16) (v : Word) (s : State) : Out := .next (s.gated (s.mailAccess m k .pute v))
/-- MC_HGET (R259). -/
def execMcHget (m : Master) (k : Fin 16) (s : State) : Out := .next (s.gated (s.mailGet m k))
/-- MC_HSTAT_END (R259). -/
def execMcHstatEnd (m : Master) (k : Fin 16) (s : State) : Out := .next (s.gated (s.mailStatWrite m k 0x10000#32))
/-- MC_HSTAT_ABT (R259). -/
def execMcHstatAbt (m : Master) (k : Fin 16) (s : State) : Out := .next (s.gated (s.mailStatWrite m k 0x20000#32))
/-- MC_HSTAT_DROP (R259). -/
def execMcHstatDrop (m : Master) (k : Fin 16) (s : State) : Out := .next (s.gated (s.mailStatWrite m k 0x40000#32))

/-! ### Unit endpoints (R257, R258) -/

/-- A word moved to the transmit queue of engine `n` while it has room (R257). -/
def State.toTxQueue (s : State) (c n : Nat) : State :=
  if (s.se n).txq.length < s.txCap n then
    match s.unitTake c with
    | some (w, s1) => s1.modSe n (fun e => { e with txq := e.txq ++ [w] })
    | none => s
  else s

/-- A word moved from the receive queue of engine `n`: staged, and published after `per` words; the engine keeps the word where
the channel has no free word or already holds 8 messages (R258). -/
def State.fromRxQueue (s : State) (c n per : Nat) : State :=
  match (s.se n).rxq with
  | [] => s
  | w :: r =>
    if s.freeWords c < 1 || (s.chan c).fullMsgs then s
    else
      let s1 := (s.modSe n (fun e => { e with rxq := r })).stage c [w]
      if (s1.chan c).staged.length < per then s1 else s1.publish c

/-! ### The pool scrubber (R250) -/

/-- The `k`-th word of a list marked uncorrectable. -/
def markBad : List PWord → Nat → List PWord
  | [], _ => []
  | w :: r, 0 => { w with bad := true } :: r
  | w :: r, k + 1 => w :: markBad r k

/-- The `k`-th word of the messages' unread words marked uncorrectable, and what is left of `k` past them. -/
def markMsgs : List Msg → Nat → List Msg × Option Nat
  | [], k => ([], some k)
  | m :: r, k =>
    if k < m.words.length then ({ m with words := markBad m.words k } :: r, none)
    else let q := markMsgs r (k - m.words.length); (m :: q.1, q.2)

/-- The `k`-th word that a channel holds, unread words first, marked uncorrectable. -/
def Chan.markWord (ch : Chan) (k : Nat) : Chan :=
  let q := markMsgs ch.msgs k
  { ch with msgs := q.1, staged := match q.2 with
    | some j => markBad ch.staged j
    | none => ch.staged }

/-- POOL_SCRUB (R250): a row is checked: words in error are corrected and counted, an uncorrectable one is found; a word that is said to
lie in the row and does not is passed over. -/
def execPoolScrub (row : Fin 4096) (r : RowCheck) (s : State) : Out :=
  .next (s.gated (
    let s1 := s.readRow row.val
    let here (c : Fin 4096) (k : Nat) : Bool := decide (k < (s1.chan c).liveWords) && decide (s1.liveAddr c k / 4 = row.val)
    match r with
    | .clean => s1
    | .corrected => s1.rcount rMcPoolErr 0 16 1
    | .bad c k =>
      if here c k then
        (s1.setPool (s1.liveAddr c k) { s1.poolWord (s1.liveAddr c k) with bad := true }).modChan c (fun ch => ch.markWord k)
      else s1
    | .upset c k =>
      if here c k then s1.setPool (s1.liveAddr c k) { s1.poolWord (s1.liveAddr c k) with soft := true } else s1))

end Machine
end Sys2Proof
end

