-- ==== Sys2Proof/Machine/Port.lean ====
section
/-! DEFINITION. What the units ask of the cipher port and of the TRNG port (R63–R68, R74–R76). -/
namespace Sys2Proof
namespace Machine

/-- A cipher request waits for the port (R67). -/
def State.cpAsk (s : State) (r : CpReq) : State := { s with ports := { s.ports with cpWait := s.ports.cpWait ++ [r] } }
/-- A request for random words waits for the TRNG (R74). -/
def State.trAsk (s : State) (u : TrUser) (n : Nat) : State :=
  { s with ports := { s.ports with tr := s.ports.tr ++ [{ user := u, want := n }] } }
/-- Requests of some users withdrawn: those that wait go, and the one in progress is abandoned (R508): the port serves it to its
end, and its result is discarded. -/
def State.cpQuit (s : State) (p : CpUser → Bool) : State :=
  { s with ports := { s.ports with
    cpWait := s.ports.cpWait.filter (fun r => !p r.user)
    cpCur := s.ports.cpCur.map (fun r => if p r.user then { r with user := .gone } else r) } }
/-- A user's requests withdrawn. -/
def State.cpDrop (s : State) (u : CpUser) : State := s.cpQuit (fun v => v == u)
/-- A user that ends with the units of the image, or whose requests a zeroise abandons (R508). -/
def CpUser.ofUnit : CpUser → Bool
  | .link _ | .svc _ => true
  | _ => false
/-- Bytes cut into beats of 16, the last with the rest. -/
def chunks : Nat → List Byte → List (List Byte)
  | 0, _ => []
  | n + 1, b => if b.isEmpty then [] else b.take 16 :: chunks n (b.drop 16)
/-- A beat of a request (R63): CP_KIND (0 IV, 1 AAD, 2 DATA, 3 TAG), its bytes from byte 0 on, whose number is CP_NBYTES, and CP_LAST. -/
structure CpBeat where
  kind : Nat
  bytes : List Byte
  last : Bool := false
  deriving DecidableEq, Repr
/-- CP_LAST on the last beat. -/
def markLast : List CpBeat → List CpBeat
  | [] => []
  | [b] => [{ b with last := true }]
  | b :: r => b :: markLast r
/-- The beats of a request in order: one IV beat of 12 bytes, then AAD, DATA and TAG beats (R63). -/
def CpReq.beats (r : CpReq) : List CpBeat :=
  let of (kind : Nat) (b : List Byte) : List CpBeat := (chunks (b.length + 1) b).map (fun x => { kind := kind, bytes := x })
  markLast ({ kind := 0, bytes := (r.iv ++ List.replicate 12 0#8).take 12 } :: (of 1 r.aad ++ of 2 r.data ++ of 3 r.tag))
/-- The bytes of registers, low word first. -/
def State.regBytes (s : State) (a : Nat → Nat) (n : Nat) : List Byte := ((List.range n).map (fun k => leBytes 4 (s.reg (a k)).toNat)).flatten

/-- Operations of the cipher port (R63). -/
def opTag : Nat := 1
def opCheck : Nat := 2
def opEnc : Nat := 3
def opDec : Nat := 4
def opUnwrap : Nat := 5

end Machine
end Sys2Proof
end

