-- ==== Sys2Proof/Machine/Scratchpad.lean ====
section
/-! DEFINITION. The scratchpad: its code (R358–R362), the word operations of masters and maintenance (R351, R362), and
maintenance (R366–R384). -/
namespace Sys2Proof
namespace Machine

/-! ### GF(2^8) and the code (R358–R361) -/

/-- Multiplication by α = 0x02 modulo x^8 + x^4 + x^3 + x^2 + 1 (R358). -/
def gfDouble (a : Byte) : Byte := if a.getLsbD 7 then (a <<< 1) ^^^ 0x1D#8 else a <<< 1
/-- Product of a symbol with the low `n` bits of another. -/
def gfMulN (a b : Byte) : Nat → Byte
  | 0 => 0#8
  | n + 1 => gfDouble (gfMulN a b n) ^^^ (if b.getLsbD (7 - n) then a else 0#8)
/-- Product in GF(2^8): Horner's rule over the bits of `b`, highest first. -/
def gfMul (a b : Byte) : Byte := gfMulN a b 8
/-- α^n. -/
def gfPow : Nat → Byte
  | 0 => 1#8
  | n + 1 => gfDouble (gfPow n)
/-- The inverse: a^254, as a product of squares. -/
def gfInv (a : Byte) : Byte :=
  let a2 := gfMul a a
  let a4 := gfMul a2 a2
  let a8 := gfMul a4 a4
  let a16 := gfMul a8 a8
  let a32 := gfMul a16 a16
  let a64 := gfMul a32 a32
  let a128 := gfMul a64 a64
  gfMul a2 (gfMul a4 (gfMul a8 (gfMul a16 (gfMul a32 (gfMul a64 a128)))))

/-- The coefficients of g(x), from x^3 down (R358). -/
def genPoly : List Byte := [0x0F#8, 0x36#8, 0x78#8, 0x40#8]
/-- One step of the division by g(x): the next coefficient, highest first, shifted into the remainder r_3 … r_0. -/
def encStep (r : List Byte) (c : Byte) : List Byte :=
  let q := c ^^^ r.getD 0 0#8
  (List.range 4).map (fun i => r.getD (i + 1) 0#8 ^^^ gfMul q (genPoly.getD i 0#8))
/-- The check symbols P0–P3 of the symbols c_4 … c_22 (R358). -/
def checkSyms (c : List Byte) : List Byte := (c.reverse.foldl encStep [0#8, 0#8, 0#8, 0#8]).reverse
/-- The virtual symbols V0, V1, V2 of a physical row of a bank (R358, R359). -/
def virtSyms (b prow : Nat) (poisoned : Bool) : List Byte :=
  [BitVec.ofNat 8 prow, BitVec.ofNat 8 (b % 8 * 32 + prow / 256 % 32), if poisoned then 1#8 else 0#8]
/-- The code word of 16 stored data bytes in a row (R358, R359): check symbols, data, virtual symbols. -/
def codeword (b prow : Nat) (poisoned : Bool) (d : List Byte) : List Byte :=
  checkSyms (d ++ virtSyms b prow poisoned) ++ d ++ virtSyms b prow poisoned

/-- An error pattern: positions of the full-length code with the values added. -/
abbrev ErrPat := List (Nat × Byte)
/-- Syndrome S_j of an error pattern (R360): the code word adds nothing. -/
def syndrome (e : ErrPat) (j : Nat) : Byte := e.foldl (fun s p => s ^^^ gfMul p.2 (gfPow ((p.1 * j) % 255))) 0#8
/-- The four syndromes. -/
def syndromes (e : ErrPat) : List Byte := [syndrome e 0, syndrome e 1, syndrome e 2, syndrome e 3]

/-- The pattern of weight 1 at position `p` with given syndromes, if that is one (R360). -/
def oneErr (sy : List Byte) (p : Nat) : Option ErrPat :=
  match sy with
  | s0 :: _ => if s0 ≠ 0#8 ∧ syndromes [(p, s0)] = sy then some [(p, s0)] else none
  | [] => none
/-- The pattern of weight 2 at positions `p` < `q`, if that is one. -/
def twoErr (sy : List Byte) (p q : Nat) : Option ErrPat :=
  match sy with
  | s0 :: s1 :: _ =>
    let vq := gfMul (s1 ^^^ gfMul s0 (gfPow p)) (gfInv (gfPow q ^^^ gfPow p))
    let vp := s0 ^^^ vq
    if vp ≠ 0#8 ∧ vq ≠ 0#8 ∧ syndromes [(p, vp), (q, vq)] = sy then some [(p, vp), (q, vq)] else none
  | _ => none
/-- The pattern of least weight over the 255 positions whose syndromes are given, of weight 1 or 2 (R360). -/
def leastErr (sy : List Byte) : Option ErrPat :=
  match (List.range 255).findSome? (oneErr sy) with
  | some e => some e
  | none => (List.range 255).findSome? (fun q => (List.range q).findSome? (fun p => twoErr sy p q))

/-- Decoder outcomes (R360). -/
inductive SpOut where
  | clean | corr | addrErr | poison | uncorr
  deriving DecidableEq, Repr

/-- The outcome for a received word that differs from the written one by `e`, and the correction (R360). -/
def decode (e : ErrPat) : SpOut × ErrPat :=
  let sy := syndromes e
  if sy.all (· == 0#8) then (.clean, [])
  else match leastErr sy with
    | none => (.uncorr, [])
    | some c =>
      if c.any (fun p => decide (23 ≤ p.1)) then (.uncorr, [])
      else if c.any (fun p => p.1 == 20 || p.1 == 21) then (.addrErr, [])
      else if c.any (fun p => p.1 == 22) then (.poison, [])
      else (.corr, c)

/-! ### Words of the scratchpad -/

/-- The number of the 16-byte word that holds an address (R348). -/
def wordOf (a : Nat) : Nat := a / 16
/-- The bank of a word: A[8:4] (R348). -/
def wordBank (w : Nat) : Nat := w % 32
/-- The page of a word: A[21:12] (R348). -/
def wordPage (w : Nat) : Nat := w / 256
/-- The logical row of a word: A[21:9] (R348). -/
def wordRow (w : Nat) : Nat := w / 32
/-- Rows of a bank (R348). -/
def State.rowsN (s : State) : Nat := s.kind.rows
/-- SP_CFG.SPAREPAGES (R350). -/
def State.sparePages (s : State) : Nat := s.rfld rSpCfg 16 7
/-- The first page of the retire pool; spare page `i` lies `i` pages on (R350). -/
def State.poolPage (s : State) : Nat := s.kind.pages - s.sparePages
/-- The addresses masters reach: below the retire pool (R350). -/
def State.spLimit (s : State) : Nat := s.kind.spSize - s.sparePages * 4096

/-- The physical row of a logical row under a key, of `n` rows (R349); the three numbers of a bank come from a derivation that is not
published (notes/assumptions/7.md). -/
def physRowOf (key : BitVec 128) (n b r : Nat) : Nat :=
  let q := Config.rowParams key b
  (((r % n) ^^^ (q.1 % n)) * (2 * (q.2.1 % n) + 1) + q.2.2 % n) % n
/-- The physical row of a logical row (R349). -/
def State.physRow (s : State) (b r : Nat) : Nat := physRowOf s.sp.key s.rowsN b r

/-! ### The retire table (R377, R379) -/

/-- The retire entries that are valid. -/
def State.retEntries (s : State) : List Nat := members 64 (fun i => s.rbit (rSpRet i) 31)
/-- The page of the array that holds spare page DST of entry `e` (R350). -/
def State.retDst (s : State) (e : Nat) : Nat := s.poolPage + s.rfld (rSpRet e) 10 6
/-- Where a logical word lies in the array (R377): a word of a retired page in the spare page, but a word that its copy has not
reached yet where the copy reads it (R379). -/
def State.home (s : State) (w : Nat) : Nat :=
  match s.retEntries.find? (fun e => decide (s.rfld (rSpRet e) 0 10 = wordPage w)) with
  | none => w
  | some e => (if s.sp.copy = some e ∧ s.sp.copied ≤ w % 256 then s.sp.copyFrom else s.retDst e) * 256 + w % 256
/-- The logical word that a word of the array holds: that of the retired page for a spare page in use (R363, R377). -/
def State.logWord (s : State) (w : Nat) : Nat :=
  match s.retEntries.find? (fun e => decide (s.retDst e = wordPage w)) with
  | none => w
  | some e => s.rfld (rSpRet e) 0 10 * 256 + w % 256
/-- Where a byte of the scratchpad lies in the array. -/
def State.spAddr (s : State) (a : Nat) : Nat := 16 * s.home (wordOf a) + a % 16
/-- Bytes within one scratchpad word, read through the retire table. -/
def State.spReadLE (s : State) (a n : Nat) : Nat := s.readLE (s.spAddr a) n
/-- Bytes within one scratchpad word, written through the retire table. -/
def State.spWriteLE (s : State) (a n v : Nat) : State := s.writeLE (s.spAddr a) n v

/-! ### Words under a replaced key (R363, R496) -/

/-- The mask of a word of the array under a key (R363): that of the logical row that masters use. -/
def State.maskByte (s : State) (key : BitVec 128) (w j : Nat) : Byte := Config.rowMask key (wordBank w) (wordRow (s.logWord w)) j
/-- What word `w` of the array shows after K was replaced: the physical row that the new map gives it holds what the old map put there,
under the old mask (R349, R363). -/
def State.rekeyByte (s : State) (key : BitVec 128) (mem : List Host.Cell) (w j : Nat) : Byte :=
  let r := ((List.range s.rowsN).find? (fun r => decide (physRowOf key s.rowsN (wordBank w) r = s.physRow (wordBank w) (wordRow w)))).getD 0
  let old := r * 32 + wordBank w
  Bank.get (fun _ => 0#8) mem (16 * old + j) ^^^ s.maskByte key old j ^^^ s.maskByte s.sp.key w j
/-- The poison mark that goes with it: V2 is the physical row's. -/
def State.rekeyBad (s : State) (key : BitVec 128) (bad : List (Nat × Bool)) (w : Nat) : Bool :=
  let r := ((List.range s.rowsN).find? (fun r => decide (physRowOf key s.rowsN (wordBank w) r = s.physRow (wordBank w) (wordRow w)))).getD 0
  Bank.get (fun _ => false) bad (r * 32 + wordBank w)
/-- Word `w` of the array taken over as it shows under the new key. -/
def State.rekey (s : State) (w : Nat) : State :=
  match s.sp.under with
  | none => s
  | some (key, mem, bad) =>
    if s.sp.rekeyed.contains w then s
    else
      let s1 := (List.range 16).foldl (fun (t : State) j => t.setByte (16 * w + j) (s.rekeyByte key mem w j)) s
      { s1 with sp := { s1.sp with
          bad := Bank.put (fun _ => false) s1.sp.bad w (s.rekeyBad key bad w)
          rekeyed := w :: s1.sp.rekeyed } }
/-- The scratchpad part of memory set aside under the key it was written with (R496). -/
def State.setAside (s : State) (key : BitVec 128) : State :=
  if s.sp.under.isSome then s
  else { s with
    mem := s.mem.filter (fun c => decide (s.kind.spSize ≤ c.1))
    sp := { s.sp with bad := [], under := some (key, s.mem.filter (fun c => decide (c.1 < s.kind.spSize)), s.sp.bad), rekeyed := [] } }

/-- The word of the array is a poisoned row's (R359). -/
def State.badAt (s : State) (w : Nat) : Bool := Bank.get (fun _ => false) s.sp.bad w
/-- The logical word is a poisoned row's. -/
def State.spPoisoned (s : State) (w : Nat) : Bool := s.badAt (s.home w)
/-- A word of the array made a poisoned row with data 0 (R359), or a normal one. -/
def State.setBad (s : State) (w : Nat) (b : Bool) : State :=
  let s0 := s.rekey w
  let s1 := { s0 with sp := { s0.sp with bad := Bank.put (fun _ => false) s0.sp.bad w b } }
  if b then s1.writeLE (16 * w) 16 0 else s1
/-- A logical word made clean data 0 (R375). -/
def State.wordZero (s : State) (w : Nat) : State := (s.setBad (s.home w) false).writeLE (16 * s.home w) 16 0

/-- Who found an outcome: a master access, scrub, copy, test restore. -/
inductive Finder where
  | master | scrub | copy | restore
  deriving DecidableEq, Repr

/-- The bin of SP.UNCORR (R382). -/
def uncorrBin (f : Finder) : Nat := match f with
  | .master => 0
  | .scrub => 1
  | .copy => 3
  | .restore => 4

/-- SP_ERRADDR's record of a logical word (R362, R385). -/
def State.spErrAddr (s : State) (w kind : Nat) (maint : Bool) : State :=
  if s.rbit rSpErrAddr 31 then s.rset rSpErrAddr 30
  else s.setReg rSpErrAddr (BitVec.ofNat 32 ((w % 2 ^ 20) * 2 ^ 4 + kind * 2 ^ 24 + b2n maint * 2 ^ 27 + 2 ^ 31 +
    b2n (s.rbit rSpErrAddr 30) * 2 ^ 30))

/-- Counters, flags and recorder updates of an outcome (R362, R382); ADDRERR raises source 14 (R502). -/
def State.spCount (s : State) (w : Nat) (o : SpOut) (f : Finder) : State :=
  let maint := decide (f ≠ .master)
  match o with
  | .clean => s
  | .corr => ((s.rcount rSpErrCnt 0 16 1).rset rSpStat 0).recBin 0x08 0x01 0 (wordBank w / 2) 1
  | .uncorr => (((s.rcount rSpErrCnt 16 16 1).rset rSpStat 1).spErrAddr w 1 maint).recBin 0x08 0x04 (wordPage w) (uncorrBin f) 3
  | .addrErr =>
    ((((s.rcount rSpErrCnt 16 16 1).rset rSpStat 2).spErrAddr w 2 maint).recBin 0x08 0x05 0 (wordBank w / 2) 3).raise 14
  | .poison => (((s.rcount rSpErrCnt 16 16 1).rset rSpStat 3).spErrAddr w 3 maint).recBin 0x08 0x04 (wordPage w) 2 3

/-- Byte `j` of a received and corrected word: what was written, the error and the correction. -/
def fixByte (v : Byte) (j : Nat) (e : ErrPat) : Byte := e.foldl (fun v p => if p.1 = 4 + j then v ^^^ p.2 else v) v

/-- The error pattern of a read of a word of the array: what differs from the word as written and expected; a poisoned row was written
with V2 = 1 (R359). -/
def State.readErr (s : State) (w : Nat) (err : WordErr) : ErrPat :=
  (err.map (fun p => (p.1.val, p.2))) ++ (if s.badAt w then [(22, 1#8)] else [])

/-- Word `w` of the array, which holds logical word `lw`, read through the code (R360, R362): the outcome; the word as it then stands
(corrected, or poisoned after UNCORR). -/
def State.readAt (s0 : State) (w lw : Nat) (err : WordErr) (f : Finder) : SpOut × State :=
  let s := s0.rekey w
  let e := s.readErr w err
  let d := decode e
  let s1 := s.spCount lw d.1 f
  match d.1 with
  | .clean | .corr =>
    (d.1, (List.range 16).foldl (fun s j => s.setByte (16 * w + j) (fixByte (s.byte (16 * w + j)) j (e ++ d.2))) s1)
  | .uncorr => (d.1, s1.setBad w true)
  | _ => (d.1, s1)
/-- A logical word read through the code. -/
def State.spRead (s : State) (w : Nat) (err : WordErr) (f : Finder) : SpOut × State := s.readAt (s.home w) w err f

/-- The outcome serves the access. -/
def SpOut.good (o : SpOut) : Bool := decide (o = .clean) || decide (o = .corr)

/-- The new word of an ATOM (R203). -/
def atomNew (op : AtomOp) (old rs cmp : Word) : Word :=
  match op with
  | .swap => rs
  | .add => old + rs
  | .and => old &&& rs
  | .or => old ||| rs
  | .xor => old ^^^ rs
  | .minu => if old.toNat ≤ rs.toNat then old else rs
  | .maxu => if old.toNat ≤ rs.toNat then rs else old
  | .cas => if old = cmp then rs else old

/-! ### Lanes and the arbiter (R352–R357) -/

/-- The requests of an input of a bank. -/
def State.lane (s : State) (b slot : Nat) : List SpReq := Bank.get (fun _ => []) s.sp.lanes (18 * b + slot)
/-- An input of a bank written. -/
def State.setLane (s : State) (b slot : Nat) (l : List SpReq) : State :=
  { s with sp := { s.sp with lanes := Bank.put (fun _ => []) s.sp.lanes (18 * b + slot) l } }
/-- The requests that wait in the crossing queue of an engine, oldest first (R353). -/
def State.xqueue (s : State) (e : Nat) : List (Nat × Nat × SpReq) := Bank.get (fun _ => []) s.sp.xq e
/-- The crossing queue of an engine written. -/
def State.setXq (s : State) (e : Nat) (l : List (Nat × Nat × SpReq)) : State :=
  { s with sp := { s.sp with xq := Bank.put (fun _ => []) s.sp.xq e l } }
/-- Requests leave the crossing queue of an engine while the lane of the oldest has room (R352, R353); `n`: how many at most. -/
def State.fillLanes (s : State) (e : Nat) : Nat → State
  | 0 => s
  | n + 1 =>
    match s.xqueue e with
    | (b, slot, r) :: l =>
      if (s.lane b slot).length < 4 then ((s.setLane b slot (s.lane b slot ++ [r])).setXq e l).fillLanes e n else s
    | [] => s
/-- The bank of an address: a scratchpad bank, or one of the service ROM, numbered from 32 (R348, R357). -/
def bankOf (a : Nat) : Nat := if a < 0x400000 then wordBank (wordOf a) else 32 + wordOf a % 4
/-- A request of thread `t` sent: through its engine's crossing queue to its lane (R352, R353). -/
def State.pushLane (s : State) (t a : Nat) (r : SpReq) : State :=
  let e := t / 16
  let q := s.xqueue e
  (s.setXq e (q ++ [(bankOf a, e + (if (s.thr t).cls = .strict then 0 else 8), r)])).fillLanes e (q.length + 1)

/-- The first slot with a request among eight or nine, from a pointer on (R354): `n` inputs, slot numbers from `base`; input 8
of P2 is the DMA input, slot 16. -/
def State.robin (s : State) (b base n ptr : Nat) : Option Nat :=
  ((List.range n).map (fun i => (ptr + i) % n)).find? (fun i => !(s.lane b (base + i)).isEmpty)

/-- The grant of bank `b` (R354): the request granted, its slot, and the state with the lane and the pointer moved, and the room in the
lane taken by what waited for it. -/
def State.arbitrate (s : State) (b : Nat) : Option (SpReq × Nat × State) :=
  let take (slot : Nat) (s1 : State) : Option (SpReq × Nat × State) :=
    match s.lane b slot with
    | r :: l =>
      let s2 := s1.setLane b slot l
      some (r, slot, if slot < 16 then s2.fillLanes (slot % 8) (s.xqueue (slot % 8)).length else s2)
    | [] => none
  match s.robin b 0 8 (Bank.get (fun _ => 0) s.sp.p3 b) with
  | some i => take i { s with sp := { s.sp with p3 := Bank.put (fun _ => 0) s.sp.p3 b ((i + 1) % 8) } }
  | none =>
    match s.robin b 8 9 (Bank.get (fun _ => 0) s.sp.p2 b) with
    | some i => take (8 + i) { s with sp := { s.sp with p2 := Bank.put (fun _ => 0) s.sp.p2 b ((i + 1) % 9) } }
    | none => take 17 s
/-- The DMA input's request is granted in the command that makes it, and the P2 pointer moves past it (R354,
notes/assumptions/27.md). -/
def State.dmaGrant (s : State) (b : Nat) : State := { s with sp := { s.sp with p2 := Bank.put (fun _ => 0) s.sp.p2 b 0 } }

/-- No request is present at bank `b`: P0 has the bank (R354). -/
def State.bankIdle (s : State) (b : Nat) : Bool := (List.range 18).all (fun i => (s.lane b i).isEmpty)

/-- A late P3 grant (R356). -/
def State.p3Late (s : State) (wait : Nat) : State :=
  if 8 < wait then
    let s1 := (s.rcount rSpP3Late 0 16 1).rset rSpStat 7
    (s1.rsetFld rSpP3Late 16 8 (max (s1.rfld rSpP3Late 16 8) (min 255 wait))).recVal 0x08 0x0A 0 wait 1
  else s

/-! ### Who may write (R366) -/

/-- A maintenance writer (R366). -/
def State.maint (s : State) (m : Master) : Bool :=
  match m with
  | .thread t => s.rbit (rStcCfg (s.thr t).stand) 5 && !s.shBad 2 (s.thr t).stand
  | .host sec priv | .link sec priv => sec && priv
  | .recov => true
  | .debugger => true

/-- What a refused maintenance write leaves: a thread's sets SP_STAT.REFUSED; a host's is DENIED (R366). -/
def State.spRefused (s : State) (m : Master) : State :=
  match m with
  | .thread _ => s.rset rSpStat 6
  | _ => s

/-! ### The maintenance sequencer (R367) -/

/-- The row of a bank is in the region under test: a test that is past WAIT (R368, R370). -/
def State.underTest (s : State) (b row : Nat) : Bool :=
  decide (2 ≤ s.sp.ttStep) && decide (s.rfld rSpTtStat 3 5 = b) && decide (s.rfld rSpTtStat 8 7 = row / 64)
/-- A word of the array lies in the region under test. -/
def State.inTest (s : State) (w : Nat) : Bool := s.underTest (wordBank w) (s.physRow (wordBank w) (wordRow w))
/-- The test's restore has work in a bank. -/
def State.restoreIn (s : State) (b : Nat) : Bool := decide (s.sp.ttStep = 4) && decide (s.rfld rSpTtStat 3 5 = b)
/-- The words of the array that the copy of entry `e` reads and writes for word `i` of the page (R379). -/
def State.copySrc (s : State) (i : Nat) : Nat := s.sp.copyFrom * 256 + i
/-- See `State.copySrc`. -/
def State.copyDst (s : State) (e i : Nat) : Nat := s.retDst e * 256 + i
/-- The copy waits at word `i` for the restore of the region under test (R373, R379). -/
def State.copyWaits (s : State) (e i : Nat) : Bool := s.inTest (s.copySrc i) || s.inTest (s.copyDst e i)
/-- The retire copy has work in a bank: its next word lies there. -/
def State.copyIn (s : State) (b : Nat) : Bool :=
  match s.sp.copy with
  | none => false
  | some e => decide (s.sp.copied < 256) && decide (s.sp.copied % 32 = b) && !s.copyWaits e s.sp.copied
/-- The word clear has work in a bank. -/
def State.wclrIn (s : State) (b : Nat) : Bool :=
  match s.sp.wclr with
  | none => false
  | some w => decide (wordBank w = b)
/-- The copy of entry `e` can take word `i`: its bank is idle and has no restore work (R354, R367). -/
def State.copyCan (s : State) (e i : Nat) : Bool := s.bankIdle (i % 32) && !s.restoreIn (i % 32) && !s.copyWaits e i

/-! ### Scrub (R368, R369, R381) -/

/-- The scrub pointer of a bank: the next physical row. -/
def State.scrubPtr (s : State) (b : Nat) : Nat := Bank.get (fun _ => 0) s.sp.scrub b
/-- A page of the array is the source of a retire entry, or a spare page marked bad (R368). -/
def State.scrubSkips (s : State) (page : Nat) : Bool :=
  s.retEntries.any (fun i => decide (s.rfld (rSpRet i) 0 10 = page)) ||
  (decide (s.poolPage ≤ page) && s.rbit (rSpSpareBad ((page - s.poolPage) / 32)) ((page - s.poolPage) % 32))

/-- A correction by scrub or restore met by the hard-fault tracker (R372, R381). -/
def State.trackHard (s : State) (row page bank : Nat) : State :=
  let laps := max 1 (s.rfld rSpCfg 8 4)
  match s.sp.track.find? (fun e => e.1 = row) with
  | some (_, n, seen) =>
    if seen then s
    else if laps ≤ n + 1 then
      (({ s with sp := { s.sp with track := s.sp.track.filter (fun e => e.1 ≠ row) } } : State).recBin 0x08 0x02 page (bank / 2) 2).rset rSpStat 5
    else { s with sp := { s.sp with track := s.sp.track.map (fun e => if e.1 = row then (row, n + 1, true) else e) } }
  | none =>
    if 16 ≤ s.sp.track.length then s
    else if laps ≤ 1 then (s.recBin 0x08 0x02 page (bank / 2) 2).rset rSpStat 5
    else { s with sp := { s.sp with track := s.sp.track ++ [(row, 1, true)] } }

/-- A word of the array checked by scrub or by a restore (R362, R368, R372): a correction meets the tracker, under its physical row and
its logical page. -/
def State.checkWord (s : State) (w : Nat) (err : WordErr) (f : Finder) : State :=
  let q := s.readAt w (s.logWord w) err f
  if q.1 = .corr then
    q.2.trackHard (wordBank w * s.rowsN + s.physRow (wordBank w) (wordRow w)) (wordPage (s.logWord w)) (wordBank w)
  else q.2

/-- SCRUB_GRANT (R367, R368): a bank that no request and no other maintenance takes reads and checks the row under its pointer, which
moves on. `lrow`: the logical row that lies there; the command that names another is none. -/
def execScrubGrant (bank : Fin 32) (lrow : Fin 8192) (err : WordErr) (s : State) : Out :=
  .next (
    let p := s.scrubPtr bank
    if decide (s.mode = .run) && s.rbit rSpCfg 0 && decide (p < s.rowsN) && decide (lrow.val < s.rowsN) && decide (s.physRow bank lrow = p) &&
        s.bankIdle bank && !s.restoreIn bank && !s.copyIn bank && !s.wclrIn bank then
      let s1 := { s with sp := { s.sp with scrub := Bank.put (fun _ => 0) s.sp.scrub bank (p + 1) } }
      if s.underTest bank p || s.scrubSkips (lrow / 8) then s1 else s1.checkWord (lrow * 32 + bank) err .scrub
    else s)

/-- A lap starts (R369): every pointer at row 0, the alarm not raised, no time elapsed. -/
def State.lapStart (s : State) : State :=
  ({ s with sp := { s.sp with scrub := [], lapAlarmed := false } } : State).setReg rSpLapNow 0#32

/-- SCRUB_LAP_END (R369, R381): every pointer has passed its last row; the lap time is recorded and a new lap starts. -/
def execScrubLapEnd (us : Word) (s : State) : Out :=
  .next (if decide (s.mode = .run) && (List.range 32).all (fun b => decide (s.rowsN ≤ s.scrubPtr b)) then
    let s1 := s.setReg rSpLapLast us
    let s2 := if (s1.reg rSpLapMax).toNat < us.toNat then s1.setReg rSpLapMax us else s1
    let kept := (s2.sp.track.filter (fun e => e.2.2)).map (fun e => (e.1, e.2.1, false))
    ({ s2 with sp := { s2.sp with track := kept } } : State).lapStart.recVal 0x08 0x06 0 us.toNat 0
  else s)

/-- LAP_ALARM (R369): the running lap's time exceeds a non-zero SP_LAPALARM, once in the lap. -/
def execLapAlarm (us : Word) (s : State) : Out :=
  .next (
    let lim := (s.reg rSpLapAlarm).toNat
    if decide (s.mode = .run) && s.rbit rSpCfg 0 && decide (0 < lim) && decide (lim < us.toNat) && !s.sp.lapAlarmed then
      (((({ s with sp := { s.sp with lapAlarmed := true } } : State).setReg rSpLapNow us).rset rSpStat 4).pulse 262).recBin 0x08 0x07 0 0 2
    else s)

/-! ### Transparent test (R370–R374) -/

/-- A running copy has a row of its source or destination page in the region (R373). -/
def State.copyInRegion (s : State) (b k : Nat) : Bool :=
  match s.sp.copy with
  | none => false
  | some e => (List.range 8).any (fun j =>
      decide (s.physRow b (8 * s.sp.copyFrom + j) / 64 = k) || decide (s.physRow b (8 * s.retDst e + j) / 64 = k))

/-- A test begun on a region (R370, R373): SAVE, or WAIT for the copy. -/
def State.ttBegin (s : State) (b k : Nat) : State :=
  let s1 := s.setReg rSpTtStat (setFld (setFld (s.reg rSpTtStat) 3 5 b) 8 7 k)
  if s.copyInRegion b k then ({ s1 with sp := { s1.sp with ttStep := 1 } } : State).rset rSpTtStat 17
  else { s1 with sp := { s1.sp with ttStep := 2 } }

/-- A keyed START (R373). -/
def State.ttStart (s : State) (m : Master) (key b k : Nat) : State :=
  if !s.maint m then s.spRefused m
  else if key ≠ 0x7E57 ∨ s.sp.ttStep ≠ 0 ∨ s.rowsN / 64 ≤ k then s.rset rSpStat 6
  else s.ttBegin b k
/-- STOP (R373): the walk ends after the current region. -/
def State.ttStop (s : State) (m : Master) (key : Nat) : State :=
  if !s.maint m then s.spRefused m
  else if key ≠ 0x7E57 then s.rset rSpStat 6
  else { s with sp := { s.sp with walk := false } }
/-- TT_START (R373). -/
def execTtStart (m : Master) (key : BitVec 16) (bank : Fin 32) (region : Fin 128) (s : State) : Out :=
  .next (s.gated (s.ttStart m key.toNat bank region))
/-- TT_STOP (R373). -/
def execTtStop (m : Master) (key : BitVec 16) (s : State) : Out := .next (s.gated (s.ttStop m key.toNat))

/-- What the march reads of a row that works: March C− ⇕(w0); ⇑(r0,w1); ⇑(r1,w0); ⇓(r0,w1); ⇓(r1,w0); ⇕(r0) on the raw 160 bits (R370). -/
def marchExpected : List (BitVec 160) := [0#160, BitVec.allOnes 160, 0#160, BitVec.allOnes 160, 0#160]
/-- A row fails when a read of the march returns another bit (R370). -/
def marchFails (reads : List (BitVec 160)) : Bool := decide (reads ≠ marchExpected)

/-- A row that a test's end names lies where it says: `off` in the region, its logical row `lrow`. -/
def State.ttRow (s : State) (off : Fin 64) (lrow : Fin 8192) : Bool :=
  decide (lrow.val < s.rowsN) && decide (s.physRow (s.rfld rSpTtStat 3 5) lrow = 64 * s.rfld rSpTtStat 8 7 + off)
/-- The poisoned words of the region under test that are not named in `errs`. -/
def State.ttPoisoned (s : State) (errs : List (Fin 64 × Fin 8192 × WordErr)) : List Nat :=
  let b := s.rfld rSpTtStat 3 5
  (s.sp.bad.filter (fun e => e.2 && decide (wordBank e.1 = b) && decide (s.physRow b (wordRow e.1) / 64 = s.rfld rSpTtStat 8 7) &&
    !errs.any (fun p => decide (p.2.1.val = wordRow e.1)))).map Prod.fst
/-- The restore (R362, R372): it counts as the scrub of its rows; those not named read as they were written. -/
def State.ttRestore (s : State) (errs : List (Fin 64 × Fin 8192 × WordErr)) : State :=
  let s1 := errs.foldl (fun s p => s.checkWord (p.2.1.val * 32 + s.rfld rSpTtStat 3 5) p.2.2 .restore) s
  (s.ttPoisoned errs).foldl (fun s w => s.checkWord w [] .restore) s1

/-- Failing rows of a march recorded (R372): `fails` by row offset and logical row. -/
def State.ttFail (s : State) (fails : List (Fin 64 × Fin 8192)) : State :=
  match fails with
  | [] => s
  | f :: _ =>
    let b := s.rfld rSpTtStat 3 5
    let k := s.rfld rSpTtStat 8 7
    let s1 := (s.rset rSpTtStat 16).rcount rSpTtRes 24 8 1
    let s2 := s1.setReg rSpTtRes (setFld (setFld (setFld (s1.reg rSpTtRes) 0 6 f.1) 8 5 b) 16 7 k)
    fails.foldl (fun s p => s.recBin 0x08 0x03 (wordPage (s.logWord (p.2 * 32 + b))) (b / 2) 2) s2

/-- The next region of the walk: bank by bank, then region by region (R373). -/
def State.nextRegion (s : State) (b k : Nat) : Nat × Nat := if b < 31 then (b + 1, k) else (0, (k + 1) % (s.rowsN / 64))

/-- TEST_REGION_DONE (R367, R370, R372): what is left of SAVE and MARCH, and the restore of the region, complete in grants that no
request takes; the walk goes on. `march`: rows by offset and logical row, with what the march read of them; a row not named read as it
must. `errs`: saved words that differ from what was written. -/
def execTestRegionDone (march : List (Fin 64 × Fin 8192 × List (BitVec 160))) (errs : List (Fin 64 × Fin 8192 × WordErr)) (s : State) : Out :=
  .next (
    let b := s.rfld rSpTtStat 3 5
    if decide (s.mode = .run) && decide (2 ≤ s.sp.ttStep) && s.bankIdle b && (decide (s.sp.ttStep = 4) || (!s.copyIn b && !s.wclrIn b)) &&
        march.all (fun r => s.ttRow r.1 r.2.1) && errs.all (fun r => s.ttRow r.1 r.2.1) then
      let fails := (march.filter (fun r => marchFails r.2.2)).map (fun r => (r.1, r.2.1))
      let s1 := ((s.ttFail fails).ttRestore errs).rset rSpTtStat 19
      let s2 := { s1 with sp := { s1.sp with ttStep := 0 } }
      if s2.sp.walk && s2.rbit rSpCfg 1 then
        let n := s2.nextRegion b (s.rfld rSpTtStat 8 7)
        s2.ttBegin n.1 n.2
      else s2
    else s)

/-- At release a lap starts, and with TTAUTO = 1 the walk (R369, R373). -/
def State.spRelease (s : State) : State :=
  let s1 := s.lapStart
  if s1.rbit rSpCfg 1 then ({ s1 with sp := { s1.sp with walk := true } } : State).ttBegin 0 0 else s1

/-! ### Word clear (R375) -/

/-- SP_WCLR with key and word (R375). -/
def State.wclr (s : State) (m : Master) (key w : Nat) : State :=
  if !s.maint m then s.spRefused m
  else if key ≠ 0xC7 ∨ s.sp.wclr.isSome ∨ s.spLimit ≤ 16 * w then s.rset rSpStat 6
  else { s with sp := { s.sp with wclr := some w } }
/-- SP_WCLR (R375). -/
def execSpWclr (m : Master) (key : Byte) (w : Fin 262144) (s : State) : Out := .next (s.gated (s.wclr m key.toNat w))
/-- WORD_CLEAR_DONE (R367, R375): the word is clean data 0. -/
def execWordClearDone (s : State) : Out :=
  .next (match s.sp.wclr with
    | none => s
    | some w =>
      let b := wordBank w
      if decide (s.mode = .run) && s.bankIdle b && !s.restoreIn b && !s.copyIn b then
        (({ s with sp := { s.sp with wclr := none } } : State).wordZero w).rset rSpStat 8
      else s)

/-! ### Page retirement (R377–R380) -/

/-- Spare pages neither used by an entry nor marked bad (R378). -/
def State.freeSpares (s : State) : List Nat :=
  members s.sparePages (fun i =>
    !(s.retEntries.any (fun e => decide (s.rfld (rSpRet e) 10 6 = i))) && !s.rbit (rSpSpareBad (i / 32)) (i % 32))

/-- A refusal with its REASON (R378). -/
def State.retRefuse (s : State) (reason : Nat) : State :=
  let s1 := (s.rset rSpRetStat 2).rsetFld rSpRetStat 4 3 reason
  if reason = 2 then s1.recBin 0x08 0x09 0 0 3 else if reason = 3 then s1.recBin 0x08 0x09 0 1 3 else s1

/-- The copy of entry `e` begun: the entry redirects `page` to spare page `d`, and the copy reads page `src` of the array (R379, R380). -/
def State.copyBegin (s : State) (e page d src : Nat) : State :=
  let s1 := (s.setReg (rSpRet e) (BitVec.ofNat 32 (page + d * 2 ^ 10 + 2 ^ 31))).rsetFld rSpRetStat 24 8 0
  { s1 with sp := { s1.sp with copy := some e, copyFrom := src, copied := 0 } }

/-- RETIRE (R378–R380): a page that has an entry copies from its spare page, which is marked bad. -/
def State.retirePage (s : State) (m : Master) (key cmd page : Nat) : State :=
  if !s.maint m then s.spRefused m
  else if key ≠ 0x9E71 ∨ cmd ≠ 1 then s.retRefuse 6
  else if s.kind ≠ .veteran then s.retRefuse 1
  else if s.poolPage ≤ page then s.retRefuse 4
  else if s.sp.copy.isSome then s.retRefuse 5
  else
    let old := s.retEntries.find? (fun e => decide (s.rfld (rSpRet e) 0 10 = page))
    match old, (List.range 64).find? (fun i => !s.rbit (rSpRet i) 31), s.freeSpares with
    | none, none, _ => s.retRefuse 2
    | _, _, [] => s.retRefuse 3
    | some e, _, d :: _ =>
      let was := s.rfld (rSpRet e) 10 6
      (s.rset (rSpSpareBad (was / 32)) (was % 32)).copyBegin e page d (s.poolPage + was)
    | none, some e, d :: _ => s.copyBegin e page d page

/-- RETIRE (R378). -/
def execRetire (m : Master) (key : BitVec 16) (cmd : Fin 16) (page : Fin 1024) (s : State) : Out :=
  .next (s.gated (s.retirePage m key.toNat cmd page))

/-- A copy grant (R362, R379): the next word of the page goes to the destination row; one that the code refuses poisons it. -/
def State.copyGrant (s : State) (e : Nat) (err : WordErr) : State :=
  let i := s.sp.copied
  let src := s.copySrc i
  let dst := s.copyDst e i
  let q := s.readAt src (s.logWord dst) err .copy
  let s1 := if q.1.good then (q.2.setBad dst false).writeLE (16 * dst) 16 (q.2.readLE (16 * src) 16)
    else (q.2.setBad dst true).rsetFld rSpRetStat 24 8 (min 255 (q.2.rfld rSpRetStat 24 8 + 1))
  { s1 with sp := { s1.sp with copied := i + 1 } }
/-- Copy grants for the next `n` words, each with what its read meets. -/
def State.copyRest (s : State) (e : Nat) (errs : List (Fin 256 × WordErr)) : Nat → State
  | 0 => s
  | n + 1 =>
    (s.copyGrant e (match errs.find? (fun p => decide (p.1.val = s.sp.copied)) with
      | some p => p.2
      | none => [])).copyRest e errs n

/-- RETIRE_COPY_DONE (R379): the words not copied yet are copied, in grants that no request and no restore takes; COPY clears, DONE is
set, SP.RETIRE is updated; a test that waited starts (R373). -/
def execRetireCopyDone (errs : List (Fin 256 × WordErr)) (s : State) : Out :=
  .next (match s.sp.copy with
    | none => s
    | some e =>
      if decide (s.mode = .run) && (List.range (256 - s.sp.copied)).all (fun j => s.copyCan e (s.sp.copied + j)) then
        let s1 := ((s.copyRest e errs (256 - s.sp.copied)).rset rSpRetStat 1).recBin 0x08 0x08 0 (e / 4) 1
        { s1 with sp := { s1.sp with copy := none, ttStep := if s1.sp.ttStep = 1 then 2 else s1.sp.ttStep } }
      else s)

/-- The sequencer's part in the time that passes (R367): whether the test takes its next step, and whether the copy takes a word, is
free (notes/assumptions/45.md). -/
def State.seqPass (s : State) : State :=
  if s.mode ≠ .run then s
  else
    let s1 := if 2 ≤ s.sp.ttStep ∧ s.sp.ttStep < 4 then
      { s.drew with sp := { s.sp with ttStep := s.sp.ttStep + s.free.toNat % 2 } } else s
    match s1.sp.copy with
    | none => s1
    | some e => if decide (s1.sp.copied < 256) && s1.copyCan e s1.sp.copied && s1.free.getLsbD 0 then s1.drew.copyGrant e [] else s1

/-! ### Registers of the unit -/

/-- The live word of an SP register. -/
def State.spReg (s : State) (a : Nat) : Word :=
  if a = rSpStat then putBit (putBit (s.reg a) 16 (s.rbit rSpCfg 0 && decide (s.mode = .run))) 17 s.sp.wclr.isSome
  else if a = rSpTtStat then setFld (s.reg a) 0 3 s.sp.ttStep
  else if a = rSpRetStat then
    setFld (setFld (putBit (s.reg a) 0 s.sp.copy.isSome) 8 7 s.retEntries.length) 16 7 s.freeSpares.length
  else if inRun a (rSpRet 0) 4 64 then putBit (s.reg a) 30 (decide (s.sp.copy = some ((a - rSpRet 0) / 4)))
  else if a = rSpCfg then putBit (s.reg a) 24 (decide (s.kind = .veteran))
  else s.reg a

/-- A register that acts only for a maintenance writer (R366). -/
def spGuarded (a : Nat) : Bool :=
  decide (a = rSpCfg) || decide (a = rSpLapAlarm) || decide (a = rSpWclr) || decide (a = rSpTtCtl) || decide (a = rSpRetCmd) ||
  (List.range 8).any (fun n => decide (a = rSpHwinBase n) || decide (a = rSpHwinLim n) || decide (a = rSpHwinAttr n))

/-- A write to a register of the unit that a maintenance writer makes (R366, R373, R375, R378). Writing TTAUTO = 1 starts the
walk. -/
def State.spWrite (s : State) (m : Master) (a : Nat) (v : Word) : State :=
  if a = rSpWclr then s.wclr m (fld v 24 8) (fld v 4 20)
  else if a = rSpTtCtl then
    if fld v 16 2 = 1 then s.ttStart m (fld v 0 16) (fld v 18 5) (fld v 23 7)
    else if fld v 16 2 = 2 then s.ttStop m (fld v 0 16)
    else if s.maint m then s.rset rSpStat 6 else s.spRefused m
  else if a = rSpRetCmd then s.retirePage m (fld v 0 16) (fld v 16 4) (fld v 20 10)
  else if !s.maint m then (if spGuarded a then s.spRefused m else s)
  else if a = rSpCfg then
    let s1 := s.setReg a ((s.reg a &&& ~~~ 0xF03#32) ||| (v &&& 0xF03#32))
    if v.getLsbD 1 && !s.rbit a 1 then
      let s2 := { s1 with sp := { s1.sp with walk := true } }
      if s2.sp.ttStep = 0 ∧ s2.mode = .run then s2.ttBegin 0 0 else s2
    else if v.getLsbD 1 then s1 else { s1 with sp := { s1.sp with walk := false } }
  else if a = rSpLapAlarm then s.setReg a v
  else if (List.range 8).any (fun n => decide (a = rSpHwinBase n) || decide (a = rSpHwinLim n)) then s.setReg a (v &&& 0xFFF000#32)
  else if (List.range 8).any (fun n => decide (a = rSpHwinAttr n)) then s.setReg a (v &&& 0xF#32)
  else s

/-- A window admits a host or link request to the scratchpad (R365); a mismatched window is off (R499, group 3). -/
def State.windowAdmits (s : State) (a : Nat) (sec priv wr : Bool) : Bool :=
  (List.range 8).any (fun n =>
    s.rbit (rSpHwinAttr n) 0 && !s.shBad 3 n &&
    decide (s.rfld (rSpHwinBase n) 12 12 ≤ a / 4096) && decide (a / 4096 ≤ s.rfld (rSpHwinLim n) 12 12) &&
    (!s.rbit (rSpHwinAttr n) 2 || sec) && (!s.rbit (rSpHwinAttr n) 3 || priv) && (!wr || s.rbit (rSpHwinAttr n) 1))

end Machine
end Sys2Proof
end

