-- ==== Sys2Proof/Machine/Service.lean ====
section
/-! DEFINITION. The built-in services but for DNP3 and the link bridge: messages, start, UART, Modbus, SDI-12, SPI, I2C and
pulse counting (R405–R421, R429–R434, R436). -/
namespace Sys2Proof
namespace Machine

/-! ### Instances, endpoints, parameters -/

/-- A row of the endpoint table of R410: type, endpoint, whether it is the SEND end, the role of its thread, its port, whether it
may be left unbound, the minimum WORDS. -/
structure SvEp where
  type : Nat
  ep : Nat
  send : Bool
  role : Nat
  port : Nat
  opt : Bool
  min : Nat
  deriving DecidableEq, Repr

/-- The endpoints at the line of types 0x01 to 0x04 (R410). -/
def lineEps (t : Nat) : List SvEp := [⟨t, 16, true, 0, 4, false, 8⟩, ⟨t, 17, false, 0, 5, false, 16⟩]
/-- The request and response endpoints of types 0x04 to 0x06 (R410). -/
def askEps (t : Nat) : List SvEp := [⟨t, 0, false, 0, 0, false, 32⟩, ⟨t, 1, true, 0, 1, false, 32⟩]
/-- The bus endpoints of types 0x05 and 0x06 (R410). -/
def busEps (t : Nat) : List SvEp := [⟨t, 16, true, 0, 4, false, 8⟩, ⟨t, 17, false, 0, 5, false, 8⟩]
/-- The endpoints of a service type (R410). -/
def svEndpoints (t : Nat) : List SvEp :=
  match t with
  | 1 => [⟨1, 0, false, 0, 0, false, 8⟩, ⟨1, 1, true, 0, 1, false, 2⟩, ⟨1, 2, true, 0, 2, true, 32⟩] ++ lineEps 1
  | 2 => ⟨2, 0, true, 0, 0, true, 4⟩ :: lineEps 2
  | 3 => [⟨3, 0, true, 1, 0, false, 16⟩, ⟨3, 1, false, 1, 1, false, 4⟩, ⟨3, 2, false, 1, 2, false, 16⟩] ++ lineEps 3 ++
      [⟨3, 18, true, 0, 6, false, 64⟩, ⟨3, 19, false, 1, 6, false, 64⟩, ⟨3, 20, true, 1, 7, false, 64⟩, ⟨3, 21, false, 0, 7, false, 64⟩]
  | 4 => askEps 4 ++ lineEps 4
  | 5 => askEps 5 ++ busEps 5
  | 6 => askEps 6 ++ busEps 6
  | 7 => [⟨7, 0, true, 0, 0, true, 4⟩, ⟨7, 16, false, 0, 5, false, 16⟩]
  | 8 => [⟨8, 0, false, 0, 0, false, 32⟩, ⟨8, 1, true, 0, 1, false, 32⟩]
  | _ => []

/-- The resources of a type (R405): threads, shift engines, channels, PLEN, workspace bytes. -/
def svSize (t : Nat) : Option (Nat × Nat × Nat × Nat × Nat) :=
  match t with
  | 1 => some (1, 2, 2, 16, 512)
  | 2 => some (1, 2, 2, 44, 1024)
  | 3 => some (2, 2, 4, 48, 32768)
  | 4 => some (1, 2, 2, 8, 512)
  | 5 => some (1, 1, 2, 12, 256)
  | 6 => some (1, 1, 2, 8, 256)
  | 7 => some (1, 1, 1, 12, 64)
  | 8 => some (1, 0, 0, 4, 0)
  | _ => none

/-- What runs inside instance `i`. -/
def State.svc (s : State) (i : Nat) : Svc := Bank.get (fun _ => ({} : Svc)) s.svcs i
/-- Instance `i` changed. -/
def State.modSvc (s : State) (i : Nat) (f : Svc → Svc) : State :=
  { s with svcs := Bank.put (fun _ => ({} : Svc)) s.svcs i (f (s.svc i)) }
/-- The image's record of instance `i` (R405). -/
def State.svRec (s : State) (i : Nat) : Option SvcRec :=
  match s.image with
  | some m => m.svcs.find? (fun r => decide (r.n = i))
  | none => none
/-- A field of the parameter block, `n` bytes from an offset (R140). -/
def SvcRec.par (r : SvcRec) (off n : Nat) : Nat := leNat ((r.params.drop off).take n)
/-- Bit `k` of a parameter byte. -/
def SvcRec.parBit (r : SvcRec) (off k : Nat) : Bool := (r.par off 1 / 2 ^ k) % 2 = 1
/-- WSADDR. -/
def SvcRec.ws (r : SvcRec) : Nat := r.par 0 4

/-- SVi_STAT with the live STATE (R436): HELD while a thread of the instance is halted or its stand lies between Fence and
Release. -/
def State.svStat (s : State) (i : Nat) : Word :=
  let w := s.reg (rSvStat i)
  match s.svRec i with
  | none => w
  | some r =>
    if fld w 0 2 = 0 then w
    else if r.thr.any (fun t => (s.thr t).halted) || decide (s.standState r.stand ≠ 1) then setFld w 0 2 3 else w

/-- Counter `k` of an instance counted up (R436). -/
def State.svCount (s : State) (i k n : Nat) : State := s.rcount (rSvCnt i k) 0 32 n
/-- A flag of SVi_STAT set: 8 FAULT, 9 NOTELOST, 10 BADMSG, 11 CFGERR, 12 CIPHER, 13 LINEERR. -/
def State.svFlag (s : State) (i k : Nat) : State := s.rset (rSvStat i) k

/-- A running instance of a type: its record. -/
def State.svOn (s : State) (i type : Nat) : Option SvcRec :=
  match s.svRec i with
  | some r => if r.type = type ∧ s.mode = .run ∧ fld (s.svStat i) 0 2 = 2 then some r else none
  | none => none

/-- The channel bound to the port of a thread of the instance, if any (R410). -/
def State.svChan (s : State) (r : SvcRec) (role p : Nat) : Option Nat :=
  let b := (s.thr (r.thr.getD role 0)).port p
  if b.bound then some b.ch else none

/-! ### Messages (R411–R413) -/

/-- Bytes packed into words, four in each, the rest 0 (R411). -/
def packBytes (b : List Byte) : List Word := (List.range ((b.length + 3) / 4)).map (fun k => BitVec.ofNat 32 (leNat ((b.drop (4 * k)).take 4)))
/-- The first `n` bytes of data words (R411). -/
def unpackBytes (n : Nat) (ws : List Word) : List Byte := ((ws.map (fun w => leBytes 4 w.toNat)).flatten).take n
/-- Word 0 of a message (R411). -/
def svHead (opc tag nbytes : Nat) (more : Bool) (status : Nat) : Word :=
  BitVec.ofNat 32 (opc % 256 + (tag % 256) * 2 ^ 8 + (nbytes % 128) * 2 ^ 16 + b2n more * 2 ^ 23 + (status % 256) * 2 ^ 24)
/-- A message: head, fixed words, data (R411). -/
def svMsg (opc tag status : Nat) (more : Bool) (fixed : List Word) (data : List Byte) : List Word :=
  svHead opc tag data.length more status :: (fixed ++ packBytes data)
/-- OPC of a message. -/
def mOpc (m : List Word) : Nat := fld (m.headD 0#32) 0 8
/-- TAG of a message. -/
def mTag (m : List Word) : Nat := fld (m.headD 0#32) 8 8
/-- NBYTES of a message. -/
def mLen (m : List Word) : Nat := fld (m.headD 0#32) 16 7
/-- Fixed word `k` of a message (from 1). -/
def mWord (m : List Word) (k : Nat) : Word := m.getD k 0#32
/-- The data of a message with `f` fixed words. -/
def mData (m : List Word) (f : Nat) : List Byte := unpackBytes (mLen m) (m.drop (1 + f))
/-- The message has exactly the words that F and NBYTES give (R411). -/
def mSized (m : List Word) (f : Nat) : Bool := decide (m.length = 1 + f + (mLen m + 3) / 4)

/-- A message put into a channel whole, if it has room (R413). -/
def State.putMsg (s : State) (c : Nat) (ws : List Word) : Option State :=
  if s.freeWords c < ws.length || (s.chan c).fullMsgs then none else some ((s.stage c ws).publish c)

/-- The service thread that sends on a channel parks there like any other (R254, R256, R413). -/
def State.svPark (s : State) (i c : Nat) : State :=
  let ep := (s.chan c).sendEp
  let t := epUnit ep
  if (s.thr t).park.isSome then s
  else
    ({ s with stamp := s.stamp + 1 } : State).modThr t (fun h => { h with
      stall := .chan
      park := some { stamp := s.stamp + 1, svc := some i, op :=
        { form := .pute, try_ := false, wide := false, port := epSub ep, dataReg := 0, statReg := 0, data := 0#64, timeout := none, pc := h.pc } } })
/-- Its operation completes. -/
def State.svUnpark (s : State) (c : Nat) : State :=
  let t := epUnit (s.chan c).sendEp
  if (s.thr t).park.any (·.svc.isSome) then s.modThr t (fun h => { h with park := none, stall := .none }) else s
/-- Held messages of an instance sent while their channels have room (R413). -/
def State.svFlushN (s : State) (i : Nat) : List (Nat × List Word) → State
  | [] => s.modSvc i (fun v => { v with out := [] })
  | (c, ws) :: r =>
    match s.putMsg c ws with
    | some s1 => (s1.svUnpark c).svFlushN i r
    | none => (s.modSvc i (fun v => { v with out := (c, ws) :: r })).svPark i c
/-- See `svFlushN`. -/
def State.svFlush (s : State) (i : Nat) : State := s.svFlushN i (s.svc i).out

/-- A message sent with a blocking form (R413): a full channel holds it, and the service with it. An unbound optional endpoint
skips it (R410). -/
def State.svSend (s : State) (i : Nat) (c : Option Nat) (ws : List Word) : State :=
  match c with
  | some c => (s.modSvc i (fun v => { v with out := v.out ++ [(c, ws)] })).svFlush i
  | none => s

/-- A message sent with a try form (R420, R434): dropped where the channel is full, with NOTELOST. -/
def State.svTry (s : State) (i : Nat) (c : Option Nat) (ws : List Word) : Bool × State :=
  match c with
  | some c =>
    match s.putMsg c ws with
    | some s1 => (true, s1)
    | none => (false, s.svFlag i 9)
  | none => (true, s)

/-- Any trap but a table BUSERR (R414): FAULT, and the handler's DEFTRAP restarts the instance's thread. -/
def State.svTrap (s : State) (i : Nat) (r : SvcRec) (role : Nat) : State :=
  (s.svFlag i 8).askRestart (r.thr.getD role 0)

/-- The head message of a channel (R413), taken: none where there is none, or messages of the instance are still held. An
uncorrectable word is a CHANERR trap of the thread (R233, R414). -/
def State.svTake (s : State) (i : Nat) (r : SvcRec) (role p : Nat) : Option (List Word) × State :=
  let s := s.svFlush i
  if !(s.svc i).out.isEmpty then (none, s)
  else match s.svChan r role p with
    | none => (none, s)
    | some c =>
      match (s.chan c).msgs with
      | [] => (none, s)
      | m :: _ =>
        let s := s.readWords c 0 m.words.length
        if m.words.any (·.bad) then (none, ((s.poolBads c m.words).freeHead c).svTrap i r role)
        else (some (m.words.map (·.v)), s.freeHead c)

/-- A response to a request (R411): OPC + 0x80, TAG echoed. -/
def State.svAnswer (s : State) (i : Nat) (r : SvcRec) (role p : Nat) (m : List Word) (status : Nat) (fixed : List Word)
    (data : List Byte) : State :=
  s.svSend i (s.svChan r role p) (svMsg (mOpc m + 0x80) (mTag m) status false fixed data)

/-- A response whose data is continued with MORE (R411, R430): at most `n` bytes a message. -/
def State.svAnswerMore (s : State) (i : Nat) (c : Option Nat) (m : List Word) (fixed : List Word) (n : Nat) : Nat → List Byte → State
  | 0, _ => s
  | k + 1, d =>
    if d.length ≤ n then s.svSend i c (svMsg (mOpc m + 0x80) (mTag m) 0 false fixed d)
    else (s.svSend i c (svMsg (mOpc m + 0x80) (mTag m) 0 true fixed (d.take n))).svAnswerMore i c m fixed n k (d.drop n)

/-- The most data bytes that a message with `f` fixed words takes on a channel (R411, R227). -/
def State.svRoom (s : State) (c : Option Nat) (f : Nat) : Nat :=
  match c with
  | some c => 4 * (s.msgMax c - 1 - f)
  | none => 4 * (31 - f)

/-! ### The scratchpad as a service's tables -/

/-- A table word read (R414): none for a BUSERR. -/
def State.svRead (s : State) (a : Nat) : Option Word × State :=
  if s.spLimit ≤ a then (none, s)
  else
    let r := (s.dmaGrant (wordBank (wordOf a))).spRead (wordOf a) [] .master
    if r.1.good then (some (BitVec.ofNat 32 (r.2.spReadLE (a / 4 * 4) 4)), r.2) else (none, r.2)

/-- Table words read in turn (R420): none at the first BUSERR. -/
def State.svReads (s : State) : List Nat → Option (List Word) × State
  | [] => (some [], s)
  | a :: l =>
    match s.svRead a with
    | (none, s1) => (none, s1)
    | (some w, s1) =>
      match s1.svReads l with
      | (some ws, s2) => (some (w :: ws), s2)
      | (none, s2) => (none, s2)

/-- A table word changed: true unless a BUSERR (R420, R223). -/
def State.svMod (s : State) (a : Nat) (f : Word → Word) : Bool × State :=
  match s.svRead a with
  | (some w, s1) => (true, s1.spWriteLE (a / 4 * 4) 4 (f w).toNat)
  | (none, s1) => (false, s1)

/-- Table words changed in turn up to the first BUSERR. -/
def State.svMods (s : State) : List (Nat × (Word → Word)) → Bool × State
  | [] => (true, s)
  | (a, f) :: l =>
    match s.svMod a f with
    | (true, s1) => s1.svMods l
    | (false, s1) => (false, s1)

/-! ### Start (R414) -/

/-- An instance begins to initialise: STATE INIT, nothing of what ran before. -/
def State.svBegin (s : State) (i : Nat) : State :=
  ((s.rsetFld (rSvStat i) 0 2 1).cpDrop (.svc i)).modSvc i (fun _ => {})

/-- The data tables that the parameters name (R414): their first words. -/
def svTables (r : SvcRec) : List Nat :=
  match r.type with
  | 2 => (if r.par 20 2 = 0 then [] else [r.par 16 4]) ++ (if r.par 22 2 = 0 then [] else [r.par 24 4]) ++
      (if r.par 32 2 = 0 then [] else [r.par 28 4]) ++ (if r.par 34 2 = 0 then [] else [r.par 36 4]) ++ [r.par 40 4]
  | 3 => (List.range 16).map (fun k => r.par 44 4 + 4 * k)
  | _ => []

/-! ### Parked operations decided again (R256) -/

/-- PARKED_OP_REDECIDE (R256): a parked operation completes if it can; one that a debugger abort or a BREAK has named ends
with ABORTED or BROKEN where it cannot complete normally. A service that parked sends on; ABORTED or BROKEN is a trap of its thread
(DESIGN CHOICE, notes/assumptions/63.md). -/
def execParkedOpRedecide (t : Tid) (s : State) : Out :=
  .next (s.gated (match (s.thr t).park with
    | none => s
    | some p =>
      match p.svc with
      | some i =>
        let s1 := if p.aborted then s else s.svFlush i
        if (p.aborted || p.broken) && decide ((s1.thr t).park = some p) then
          ((s1.modThr t (fun h => { h with park := none, stall := .none })).svFlag i 8).askRestart t
        else s1
      | none =>
        if p.aborted then s.answer t p.op (.status 4 false 0 none)
        else match s.poolDecide t p.op with
          | some (a, s) => s.answer t p.op a
          | none => if p.broken then s.answer t p.op (.status 3 false 0 none) else s))

/-! ### UART (R415–R417) -/

/-- UART_SEND (R416): one request transmitted as one burst and answered; anything else is BADREQ. -/
def execUartSend (i : Fin 64) (s : State) : Out :=
  .next (match s.svOn i 1 with
    | none => s
    | some r =>
      match s.svTake i r 0 0 with
      | (none, s1) => s1
      | (some m, s1) =>
        if mOpc m = 0x11 ∧ 1 ≤ mLen m ∧ mSized m 0 then
          let d := mData m 0
          (((s1.svCount i 0 d.length).modSvc i (fun v => { v with line := d })).svAnswer i r 0 1 m 0 [] [])
        else s1.svAnswer i r 0 1 m 1 [] [])

/-- A DATA message of the characters collected (R417); its TAG tells too whether any were lost since the last message. -/
def State.uartFlush (s : State) (i : Nat) (r : SvcRec) (tag : Nat) : State :=
  (s.svSend i (s.svChan r 0 2) (svMsg 0x12 (tag + 8 * b2n (s.svc i).missed) 0 false [] (s.svc i).rx)).modSvc i
    (fun v => { v with rx := [], missed := false })

/-- Characters collected one by one; RXMAX of them end a message (R417). -/
def State.uartChars (s : State) (i : Nat) (r : SvcRec) : List Byte → State
  | [] => s
  | c :: l =>
    let s1 := (s.modSvc i (fun v => { v with rx := v.rx ++ [c] })).svCount i 1 1
    if (s1.svc i).rx.length < r.par 13 1 then s1.uartChars i r l
    else if l.isEmpty then s1 else (s1.uartFlush i r 0).uartChars i r l

/-- UART_DATA (R417): characters received; a parity or framing error, a break or RXMAX ends the message. `overrun`: se1 has lost
characters before these. -/
def execUartData (i : Fin 64) (chars : List Byte) (parity framing brk overrun : Bool) (s : State) : Out :=
  .next (match s.svOn i 1 with
    | none => s
    | some r =>
      let s0 := if overrun then ((s.svFlush i).svCount i 3 1).modSvc i (fun v => { v with missed := true }) else s.svFlush i
      let s1 := s0.uartChars i r chars
      let bad := parity || framing || brk
      let s2 := if bad then (s1.svCount i 2 1).svFlag i 13 else s1
      if bad || decide (r.par 13 1 ≤ (s2.svc i).rx.length) then s2.uartFlush i r (b2n parity + 2 * b2n framing + 4 * b2n brk) else s2)

/-- UART_IDLE_FLUSH (R417): the gap ends a message in progress, with flag 4. -/
def execUartIdleFlush (i : Fin 64) (s : State) : Out :=
  .next (match s.svOn i 1 with
    | none => s
    | some r => if (s.svc i).rx.isEmpty then s else s.uartFlush i r 16)

/-! ### Modbus (R418–R421) -/

/-- A CRC register after bytes (R246). -/
def crcOf (sel : Nat) (init : Word) (b : List Byte) : Word := crcBytes sel init b
/-- A big-endian 16-bit field of a frame. -/
def be16 (b : List Byte) (k : Nat) : Nat := (b.getD k 0#8).toNat * 256 + (b.getD (k + 1) 0#8).toNat
/-- A 16-bit number as big-endian bytes. -/
def beBytes (v : Nat) : List Byte := [BitVec.ofNat 8 (v / 256), BitVec.ofNat 8 v]

/-- What a request comes to: an exception, or the response after the function code with the write that it made (start,
quantity). -/
inductive MbRes where
  | exc (code : Nat) (note : Option (Nat × Nat) := none)
  | ok (body : List Byte) (note : Option (Nat × Nat))
  deriving DecidableEq, Repr

/-- The word addresses of bits a to a + n − 1, each once. -/
def bitWords (base a n : Nat) : List Nat := (List.range ((a % 32 + n + 31) / 32)).map (fun k => base + 4 * (a / 32 + k))

/-- Read Coils, Read Discrete Inputs (R419, R420). -/
def State.mbReadBits (s : State) (base count a n : Nat) : MbRes × State :=
  if n = 0 ∨ 2000 < n then (.exc 3, s)
  else if count < a + n then (.exc 2, s)
  else match s.svReads (bitWords base a n) with
    | (none, s1) => (.exc 4, s1)
    | (some ws, s1) =>
      let bit (k : Nat) : Nat := b2n ((ws.getD ((a % 32 + k) / 32) 0#32).getLsbD ((a % 32 + k) % 32))
      let byte (j : Nat) : Byte := BitVec.ofNat 8 (((List.range 8).map (fun b => if 8 * j + b < n then bit (8 * j + b) * 2 ^ b else 0)).sum)
      (.ok (BitVec.ofNat 8 ((n + 7) / 8) :: (List.range ((n + 7) / 8)).map byte) none, s1)

/-- Read registers (R419, R420). -/
def State.mbReadRegs (s : State) (base count a n : Nat) : MbRes × State :=
  if n = 0 ∨ 125 < n then (.exc 3, s)
  else if count < a + n then (.exc 2, s)
  else match s.svReads ((List.range n).map (fun k => base + 4 * (a + k))) with
    | (none, s1) => (.exc 4, s1)
    | (some ws, s1) => (.ok (BitVec.ofNat 8 (2 * n) :: (ws.map (fun w => beBytes (fld w 0 16))).flatten) none, s1)

/-- Registers written one by one, [31:16] = 0 (R420). -/
def regMods (base a : Nat) (vs : List Nat) : List (Nat × (Word → Word)) :=
  (List.range vs.length).map (fun k => (base + 4 * (a + k), fun _ => BitVec.ofNat 32 (vs.getD k 0)))
/-- Coils written one by one with ATOM OR and ATOM AND (R420). -/
def coilMods (base a : Nat) (vs : List Bool) : List (Nat × (Word → Word)) :=
  (List.range vs.length).map (fun k => (base + 4 * ((a + k) / 32), fun w => putBit w ((a + k) % 32) (vs.getD k false)))
/-- What writes come to: exception 04 at a BUSERR. -/
def mbWrote (q : Bool × State) (body : List Byte) (a n : Nat) : MbRes × State :=
  if q.1 then (.ok body (some (a, n)), q.2) else (.exc 4, q.2)
/-- The 16-bit fields of a byte list from an offset. -/
def be16s (b : List Byte) (off n : Nat) : List Nat := (List.range n).map (fun k => be16 b (off + 2 * k))

/-- `n` bytes of the DEVID block (R420). -/
def State.devBytes (s : State) (a n : Nat) : Option (List Byte) × State :=
  match s.svReads ((List.range ((a % 4 + n + 3) / 4)).map (fun k => a / 4 * 4 + 4 * k)) with
  | (some ws, s1) => (some ((unpackBytes (4 * ws.length) ws).drop (a % 4) |>.take n), s1)
  | (none, s1) => (none, s1)
/-- The objects of a block: a length byte and the bytes of each, within `room` bytes; none for a BUSERR, or where they do not fit. -/
def State.devObjects (s : State) : Nat → Nat → Nat → Option (List (List Byte)) × State
  | 0, _, _ => (some [], s)
  | n + 1, a, room =>
    match s.devBytes a 1 with
    | (some (l :: _), s1) =>
      if room < 1 + l.toNat then (none, s1)
      else match s1.devBytes (a + 1) l.toNat with
        | (some o, s2) =>
          match s2.devObjects n (a + 1 + l.toNat) (room - (1 + l.toNat)) with
          | (some os, s3) => (some (o :: os), s3)
          | (none, s3) => (none, s3)
        | (none, s2) => (none, s2)
    | (_, s1) => (none, s1)
/-- The DEVID block at an address (R420): none for a BUSERR, or where it breaks the layout: 3 to 7 objects, 220 bytes at most. -/
def State.devBlock (s : State) (a : Nat) : Option (List (List Byte)) × State :=
  match s.devBytes a 1 with
  | (some (n :: _), s1) => if 3 ≤ n.toNat ∧ n.toNat ≤ 7 then s1.devObjects n.toNat (a + 1) 219 else (none, s1)
  | (_, s1) => (none, s1)
/-- An object as a response carries it: identifier, length, bytes. -/
def devObj (k : Nat) (o : List Byte) : List Byte := BitVec.ofNat 8 k :: BitVec.ofNat 8 o.length :: o
/-- Objects from one identifier on, below a limit. -/
def devList (os : List (List Byte)) (from_ lim : Nat) : List (Nat × List Byte) :=
  ((List.range os.length).filter (fun k => decide (from_ ≤ k) && decide (k < lim))).map (fun k => (k, os.getD k []))

/-- Read Device Identification (R419, R420): basic objects, all objects, or one; More Follows is never set. -/
def State.mbDevId (s : State) (i : Nat) (r : SvcRec) (b : List Byte) : MbRes × State :=
  if b.getD 0 0#8 ≠ 14#8 then (.exc 1, s)
  else
    let code := (b.getD 1 0#8).toNat
    let id := (b.getD 2 0#8).toNat
    if code = 0 ∨ 4 < code ∨ b.length ≠ 3 then (.exc 3, s)
    else match s.devBlock (r.par 40 4) with
      | (none, s1) => (.exc 4, s1.svFlag i 11)
      | (some os, s1) =>
        if code = 4 then
          if id < os.length then (.ok ([14#8, 4#8, 0x82#8, 0#8, 0#8, 1#8] ++ devObj id (os.getD id [])) none, s1) else (.exc 2, s1)
        else
          let lim := if code = 1 then 3 else 7
          let l := devList os (if id < min lim os.length then id else 0) lim
          (.ok ([14#8, BitVec.ofNat 8 (min code 2), 0x82#8, 0#8, 0#8, BitVec.ofNat 8 l.length] ++
            (l.map (fun p => devObj p.1 p.2)).flatten) none, s1)

/-- A function performed (R419): `b` is the request after the function code. Quantities and byte counts are checked before
addresses. -/
def State.mbPerform (s : State) (i : Nat) (r : SvcRec) (fc : Nat) (b : List Byte) : MbRes × State :=
  let a := be16 b 0
  let n := be16 b 2
  let coils := r.par 16 4
  let hold := r.par 28 4
  if fc = 1 ∨ fc = 2 then
    if b.length ≠ 4 then (.exc 3, s)
    else if fc = 1 then s.mbReadBits coils (r.par 20 2) a n else s.mbReadBits (r.par 24 4) (r.par 22 2) a n
  else if fc = 3 ∨ fc = 4 then
    if b.length ≠ 4 then (.exc 3, s)
    else if fc = 3 then s.mbReadRegs hold (r.par 32 2) a n else s.mbReadRegs (r.par 36 4) (r.par 34 2) a n
  else if fc = 5 then
    if b.length ≠ 4 ∨ (n ≠ 0xFF00 ∧ n ≠ 0) then (.exc 3, s)
    else if r.par 20 2 ≤ a then (.exc 2, s)
    else mbWrote (s.svMods (coilMods coils a [decide (n ≠ 0)])) b a 1
  else if fc = 6 then
    if b.length ≠ 4 then (.exc 3, s)
    else if r.par 32 2 ≤ a then (.exc 2, s)
    else mbWrote (s.svMods (regMods hold a [n])) b a 1
  else if fc = 15 then
    if n = 0 ∨ 1968 < n ∨ (b.getD 4 0#8).toNat ≠ (n + 7) / 8 ∨ b.length ≠ 5 + (n + 7) / 8 then (.exc 3, s)
    else if r.par 20 2 < a + n then (.exc 2, s)
    else mbWrote (s.svMods (coilMods coils a ((List.range n).map (fun k => (b.getD (5 + k / 8) 0#8).getLsbD (k % 8))))) (b.take 4) a n
  else if fc = 16 then
    if n = 0 ∨ 123 < n ∨ (b.getD 4 0#8).toNat ≠ 2 * n ∨ b.length ≠ 5 + 2 * n then (.exc 3, s)
    else if r.par 32 2 < a + n then (.exc 2, s)
    else mbWrote (s.svMods (regMods hold a (be16s b 5 n))) (b.take 4) a n
  else if fc = 23 then
    let wa := be16 b 4
    let wn := be16 b 6
    if n = 0 ∨ 125 < n ∨ wn = 0 ∨ 121 < wn ∨ (b.getD 8 0#8).toNat ≠ 2 * wn ∨ b.length ≠ 9 + 2 * wn then (.exc 3, s)
    else if r.par 32 2 < a + n ∨ r.par 32 2 < wa + wn then (.exc 2, s)
    else match s.svMods (regMods hold wa (be16s b 9 wn)) with
      | (false, s1) => (.exc 4, s1)
      | (true, s1) =>
        match s1.mbReadRegs hold (r.par 32 2) a n with
        | (.ok body _, s2) => (.ok body (some (wa, wn)), s2)
        | (.exc code _, s2) => (.exc code (some (wa, wn)), s2)
  else if fc = 43 then s.mbDevId i r b
  else (.exc 1, s)

/-- Characters put on the line after the address: with CRC, low byte first (R418). -/
def mbLine (b : List Byte) : List Byte := b ++ leBytes 2 (crcOf 0 0xFFFF#32 b).toNat

/-- MODBUS_FRAME (R418–R420): a frame discarded is counted; else it is performed and answered, or raises an exception; a
broadcast of FC 5, 6, 15 or 16 is performed with no response. A write sends a NOTE. -/
def execModbusFrame (i : Fin 64) (frame : List Byte) (bad : Bool) (s : State) : Out :=
  .next (match s.svOn i 2 with
    | none => s
    | some r =>
      let n := frame.length
      let crcBad := decide (4 ≤ n) && decide (n ≤ 256) && crcOf 0 0xFFFF#32 frame != 0#32
      let ad := (frame.getD 0 0#8).toNat
      let fc := (frame.getD 1 0#8).toNat
      if bad || decide (n < 4) || decide (256 < n) || crcBad then
        let s1 := (s.svCount i 3 1).svFlag i 13
        if crcBad && !bad then s1.svCount i 1 1 else s1
      else if ad ≠ 0 ∧ ad ≠ r.par 12 1 then s.svCount i 3 1
      else if ad = 0 ∧ ¬ (fc = 5 ∨ fc = 6 ∨ fc = 15 ∨ fc = 16) then s
      else
        let q := s.mbPerform i r fc ((frame.drop 2).take (n - 4))
        let say (s : State) (b : List Byte) : State :=
          if ad = 0 then s
          else (s.modSvc i (fun v => { v with line := mbLine (BitVec.ofNat 8 ad :: b) })).svCount i 0 1
        let noted (note : Option (Nat × Nat)) : State := match note with
          | some (a, k) => (q.2.svTry i (q.2.svChan r 0 0)
              (svMsg 0x21 0 0 false [BitVec.ofNat 32 (fc + a * 2 ^ 16), BitVec.ofNat 32 k] [])).2
          | none => q.2
        match q.1 with
        | .exc code note =>
          if ad = 0 then noted note
          else (say (noted note) [BitVec.ofNat 8 (fc + 128), BitVec.ofNat 8 code]).svCount i 2 1
        | .ok body note => say (noted note) (BitVec.ofNat 8 fc :: body))

/-! ### SDI-12 (R429, R430) -/

/-- An ASCII character. -/
def ch (c : Char) : Byte := BitVec.ofNat 8 c.toNat
/-- A decimal digit. -/
def isDigit (b : Byte) : Bool := decide (48 ≤ b.toNat) && decide (b.toNat ≤ 57)

/-- The command, without address and "!", is one the service supports (R429); what it is: true for a measurement. -/
def sdiKind (cmd : List Byte) : Option Bool :=
  match cmd with
  | [a, e] => if e = ch '!' then some false else if a = ch '?' then none else none
  | [_, k, e] =>
    if e ≠ ch '!' then none
    else if k = ch 'I' ∨ k = ch 'V' then some false
    else if k = ch 'M' ∨ k = ch 'C' then some true
    else if k = ch 'X' then some false else none
  | [_, k, d, e] =>
    if e ≠ ch '!' then none
    else if k = ch 'A' then some false
    else if k = ch 'X' then some false
    else if (k = ch 'M' ∨ k = ch 'C') ∧ (d = ch 'C' ∨ (isDigit d ∧ d ≠ ch '0')) then some true
    else if (k = ch 'D' ∨ k = ch 'R') ∧ isDigit d then some false else none
  | [_, k, c, d, e] =>
    if e ≠ ch '!' then none
    else if k = ch 'X' then some false
    else if (k = ch 'M' ∨ k = ch 'C') ∧ c = ch 'C' ∧ isDigit d ∧ d ≠ ch '0' then some true
    else if k = ch 'R' ∧ c = ch 'C' ∧ isDigit d then some false else none
  | _ :: k :: r => if k = ch 'X' ∧ r.getLast? = some (ch '!') then some false else none
  | _ => none

/-- The command asks for a CRC in its response: aRC forms (R429). -/
def sdiCrcCmd (cmd : List Byte) : Bool := cmd.getD 1 0#8 == ch 'R' && cmd.getD 2 0#8 == ch 'C'
/-- The measurement command asks for CRCs in its D responses: MC and CC forms. -/
def sdiCrcMeas (cmd : List Byte) : Bool := cmd.getD 2 0#8 == ch 'C'

/-- The three CRC characters (R429). -/
def sdiCrc (b : List Byte) : List Byte :=
  let c := (crcOf 0 0#32 b).toNat
  [BitVec.ofNat 8 (0x40 + (c / 2 ^ 12) % 16), BitVec.ofNat 8 (0x40 + (c / 2 ^ 6) % 64), BitVec.ofNat 8 (0x40 + c % 64)]

/-- A response is good (R429): no character fault, the right address, CR LF, the right CRC; its text without CR LF and CRC. -/
def sdiText (addr : Byte) (crc : Bool) (q : SdiRsp) : Option (List Byte) :=
  let n := q.text.length
  let body := q.text.take (n - 2)
  if q.bad || decide (n < 3) || q.text.drop (n - 2) != [13#8, 10#8] then none
  else if addr ≠ ch '?' ∧ body.getD 0 0#8 ≠ addr then none
  else if crc then
    let v := body.take (body.length - 3)
    if body.length < 4 ∨ body.drop (body.length - 3) ≠ sdiCrc v then none else some v
  else some body

/-- How a run of attempts ended: its text, whether the last failure was a missing response, attempts failed, responses left. -/
structure SdiEnd where
  text : Option (List Byte)
  silent : Bool
  failed : Nat
  rest : List SdiRsp
  deriving DecidableEq, Repr

/-- Attempts at one command, `left` of them at most (R429); a response that is not there did not start in time. -/
def sdiRun (addr : Byte) (crc : Bool) : Nat → Nat → List SdiRsp → SdiEnd
  | 0, k, rs => ⟨none, false, k, rs⟩
  | _ + 1, k, [] => ⟨none, true, k, []⟩
  | left + 1, k, q :: rs =>
    match sdiText addr crc q with
    | some t => ⟨some t, false, k, rs⟩
    | none => sdiRun addr crc left (k + 1) rs

/-- 3 × (RETRIES + 1) attempts (R429). -/
def sdiMax (r : SvcRec) : Nat := 3 * (r.par 4 1 + 1)

/-- Counters of attempts: commands, retries, invalid responses (R436). -/
def State.sdiCounts (s : State) (i : Nat) (e : SdiEnd) : State :=
  let sent := e.failed + b2n e.text.isSome + b2n e.silent
  ((s.svCount i 0 sent).svCount i 1 (sent - 1)).svCount i 2 e.failed

/-- A request that ended without a response: TIMEOUT or LINEERR (R429). -/
def State.sdiFail (s : State) (i : Nat) (r : SvcRec) (m : List Word) (silent : Bool) (fixed : List Word) : State :=
  let s1 := (s.svCount i 3 1).modSvc i (fun v => { v with tries := 0 })
  if silent then s1.svAnswer i r 0 1 m 2 fixed [] else (s1.svFlag i 13).svAnswer i r 0 1 m 4 fixed []

/-- SDI12_RAW (R429): the head request's command is sent until a response is good or its attempts are spent. Where the line's
answers end before that, the attempt waits (`SDI12_RESPONSE_TIMEOUT` fails it). -/
def execSdi12Raw (i : Fin 64) (rs : List SdiRsp) (s : State) : Out :=
  .next (match s.svOn i 4 with
    | none => s
    | some r =>
      match s.svTake i r 0 0 with
      | (none, s1) => s1
      | (some m, s1) =>
        let cmd := mData m 0
        if mOpc m = 0x42 then s
        else if mOpc m ≠ 0x41 ∨ !mSized m 0 ∨ cmd.length < 2 ∨ 36 < cmd.length ∨ sdiKind cmd = none then s1.svAnswer i r 0 1 m 1 [] []
        else
          let e := sdiRun (cmd.getD 0 0#8) (sdiCrcCmd cmd) (sdiMax r - (s.svc i).tries) 0 rs
          let s2 := s1.sdiCounts i { e with silent := false }
          match e.text with
          | some t => (s2.modSvc i (fun v => { v with tries := 0, line := cmd })).svAnswer i r 0 1 m 0 [] t
          | none =>
            if e.silent then (s.sdiCounts i { e with silent := false }).modSvc i (fun v => { v with tries := v.tries + e.failed })
            else s2.sdiFail i r m false [])

/-- SDI12_RESPONSE_TIMEOUT (R429): the attempt at the head request fails; the last one ends it with TIMEOUT. -/
def execSdi12ResponseTimeout (i : Fin 64) (s : State) : Out :=
  .next (match s.svOn i 4 with
    | none => s
    | some r =>
      match s.svTake i r 0 0 with
      | (none, s1) => s1
      | (some m, s1) =>
        if (s.svc i).tries + 1 < sdiMax r then
          (((s.svFlush i).svCount i 0 1).svCount i 1 1).modSvc i (fun v => { v with tries := v.tries + 1 })
        else (s1.svCount i 0 1).sdiFail i r m true (if mOpc m = 0x42 then [0#32] else []))

/-- The digits of a field as a number. -/
def sdiNum (b : List Byte) : Nat := b.foldl (fun n d => 10 * n + (d.toNat - 48)) 0
/-- The values in a D response: each begins with a sign (R430). -/
def sdiValues (b : List Byte) : Nat := (b.filter (fun c => c == ch '+' || c == ch '-')).length

/-- The aD0! to aD9! commands of a measurement (R430): values collected until n are there or D9 has been answered. -/
def sdiData (addr : Byte) (crc : Bool) (max n : Nat) : Nat → Nat → List Byte → List SdiRsp → Option (Nat × List Byte) × Nat × Bool × List SdiRsp
  | 0, got, d, rs => (some (got, d), 0, false, rs)
  | k + 1, got, d, rs =>
    if n ≤ got then (some (got, d), 0, false, rs)
    else
      let e := sdiRun addr crc max 0 rs
      match e.text with
      | none => (none, e.failed, e.silent, e.rest)
      | some t =>
        let v := t.drop 1
        let q := sdiData addr crc max n k (got + sdiValues v) (d ++ v) e.rest
        (q.1, q.2.1 + e.failed, q.2.2.1, q.2.2.2)

/-- SDI12_MEASURE (R430): the measurement command, the announced wait, the D commands; the values concatenated, continued with
MORE. M forms wait for the service request, which ends the wait early and is no failure when it does not come. -/
def execSdi12Measure (i : Fin 64) (rs : List SdiRsp) (s : State) : Out :=
  .next (match s.svOn i 4 with
    | none => s
    | some r =>
      match s.svTake i r 0 0 with
      | (none, s1) => s1
      | (some m, s1) =>
        let cmd := mData m 0
        let addr := cmd.getD 0 0#8
        if mOpc m ≠ 0x42 then s
        else if !mSized m 0 ∨ sdiKind cmd ≠ some true then s1.svAnswer i r 0 1 m 1 [0#32] []
        else
          let e := sdiRun addr false (sdiMax r - (s.svc i).tries) 0 rs
          let s2 := s1.sdiCounts i e
          match e.text with
          | none => s2.sdiFail i r m e.silent [0#32]
          | some t =>
            let n := sdiNum (t.drop 4)
            let rest := match e.rest with
              | q :: l => if cmd.getD 1 0#8 = ch 'M' ∧ q.text = [addr, 13#8, 10#8] then l else q :: l
              | [] => []
            let q := sdiData addr (sdiCrcMeas cmd) (sdiMax r) n 10 0 [] rest
            let s3 := (s2.svCount i 2 q.2.1).modSvc i (fun v => { v with tries := 0, line := cmd })
            match q.1 with
            | none => s3.sdiFail i r m q.2.2.1 [BitVec.ofNat 32 (n % 256)]
            | some (got, d) =>
              let c := s3.svChan r 0 1
              s3.svAnswerMore i c m [BitVec.ofNat 32 (n % 256 + (got % 256) * 256)] (s3.svRoom c 1) (d.length + 1) d)

/-! ### SPI and I2C (R431, R432) -/

/-- SPI_XFER (R431). -/
def execSpiXfer (i : Fin 64) (miso : List Byte) (s : State) : Out :=
  .next (match s.svOn i 5 with
    | none => s
    | some r =>
      match s.svTake i r 0 0 with
      | (none, s1) => s1
      | (some m, s1) =>
        if mOpc m = 0x51 ∧ mSized m 1 ∧ 1 ≤ mLen m ∧ mLen m ≤ 120 ∧ fld (mWord m 1) 0 2 < r.par 5 1 then
          let n := mLen m
          (((s1.svCount i 0 1).svCount i 1 n).modSvc i (fun v => { v with line := mData m 1 })).svAnswer i r 0 1 m 0 []
            ((List.range n).map (fun k => miso.getD k 0#8))
        else s1.svAnswer i r 0 1 m 1 [] [])

/-- A valid I2C XFER (R432). -/
def i2cOk (m : List Word) : Bool :=
  decide (mOpc m = 0x61) && mSized m 1 && decide (mLen m ≤ 116) && decide (fld (mWord m 1) 8 8 ≤ 120)

/-- I2C_XFER (R432): OK with the bytes read, NACK with the byte's index, or BUSY. -/
def execI2cXfer (i : Fin 64) (nack : Option Byte) (busy : Bool) (read : List Byte) (s : State) : Out :=
  .next (match s.svOn i 6 with
    | none => s
    | some r =>
      match s.svTake i r 0 0 with
      | (none, s1) => s1
      | (some m, s1) =>
        if i2cOk m then
          let s2 := (s1.svCount i 0 1).modSvc i (fun v => { v with line := mData m 1 })
          if busy then ((s2.svCount i 2 1).svFlag i 13).svAnswer i r 0 1 m 5 [0#32] []
          else match nack with
            | some k => (s2.svCount i 1 1).svAnswer i r 0 1 m 3 [k.setWidth 32] []
            | none => s2.svAnswer i r 0 1 m 0 [0#32] ((List.range (fld (mWord m 1) 8 8)).map (fun k => read.getD k 0#8))
        else s1.svAnswer i r 0 1 m 1 [0#32] [])

/-- I2C_STRETCH_TIMEOUT (R432): the transfer of the head request ends with TIMEOUT. -/
def execI2cStretchTimeout (i : Fin 64) (s : State) : Out :=
  .next (match s.svOn i 6 with
    | none => s
    | some r =>
      match s.svTake i r 0 0 with
      | (none, s1) => s1
      | (some m, s1) =>
        if i2cOk m then ((s1.svCount i 0 1).svCount i 3 1).svAnswer i r 0 1 m 2 [0#32] []
        else s1.svAnswer i r 0 1 m 1 [0#32] [])

/-! ### Pulse and quadrature counting (R433, R434) -/

/-- One input's filter: a level counts once it has held FILT + 1 samples. -/
def pulseFilt (filt : Nat) (x : Bool) (l : Option Bool) (run : Nat) : Option Bool × Nat :=
  if l = some x then (l, 0)
  else if filt + 1 ≤ run + 1 then (some x, 0) else (l, run + 1)

/-- What a filtered change counts: the step, or an illegal change of both inputs (R433). -/
def pulseStep (mode : Nat) (a b a' b' : Bool) : Int × Nat :=
  let up : Int := if (a' != b) then 1 else -1
  if mode % 8 ≤ 1 then
    if a' != a && ((a' && (mode / 16) % 2 == 1) || (!a' && (mode / 32) % 2 == 1)) then
      (if mode % 8 = 1 ∧ b' = true then -1 else 1, 0)
    else (0, 0)
  else if a' != a && b' != b then (0, 1)
  else if a' != a then
    if mode % 8 = 2 then (if b' then 0 else (if a' then 1 else -1), 0) else (up, 0)
  else if b' != b then (if mode % 8 = 4 then (if a' == b' then 1 else -1) else 0, 0)
  else (0, 0)

/-- The samples of a period counted: the pulse state, the count, the illegal changes, the last interval. -/
def pulseRun (mode filt : Nat) : List (Bool × Bool) → Pulse → Int → Nat → Option Nat → Pulse × Int × Nat × Option Nat
  | [], p, d, e, iv => (p, d, e, iv)
  | (x, y) :: l, p, d, e, iv =>
    let fa := pulseFilt filt x p.a p.ra
    let fb := pulseFilt filt y p.b p.rb
    let st : Int × Nat := match p.a, p.b, fa.1, fb.1 with
      | some a, some b, some a', some b' => pulseStep mode a b a' b'
      | some a, none, some a', none => if mode % 8 = 0 then pulseStep mode a false a' false else (0, 0)
      | _, _, _, _ => (0, 0)
    let q : Pulse := { a := fa.1, b := fb.1, ra := fa.2, rb := fb.2, since := if st.1 == (0 : Int) then p.since + 1 else 0 }
    pulseRun mode filt l q (d + st.1) (e + st.2) (if st.1 == (0 : Int) then iv else some (p.since + 1))

/-- PULSE_REPORT (R434): PERIOD sample words of 16 samples have been decoded; the result block is written in order, and REPORT is
sent with a try form. The sample messages taken are freed. -/
def execPulseReport (i : Fin 64) (samples : List (Bool × Bool)) (lost : Nat) (s : State) : Out :=
  .next (match s.svOn i 7 with
    | none => s
    | some r =>
      if samples.length ≠ 16 * r.par 8 4 then s
      else
        let q := pulseRun (r.par 4 1) (r.par 5 1) samples (s.svc i).pulse 0 0 none
        let s0 := match s.svChan r 0 5 with
          | some c => ((s.chan c).msgs).foldl (fun (s : State) _ => s.freeHead c) s
          | none => s
        let s1 := s0.modSvc i (fun v => { v with pulse := q.1 })
        let w := r.ws
        let sat (n : Nat) (x : Word) : Word := BitVec.ofNat 32 (satAdd 32 x.toNat n)
        let ok := s1.svReads ((List.range 7).map (fun k => w + 4 * k))
        match ok.1 with
        | none => ok.2.svTrap i r 0
        | some b =>
          let pos : BitVec 64 := ((b.getD 1 0#32) ++ (b.getD 0 0#32)) + BitVec.ofInt 64 q.2.1
          let seq := b.getD 3 0#32 + 1#32
          let s2 := (ok.2.spWriteLE (w + 16) 4 (sat q.2.2.1 (b.getD 4 0#32)).toNat).spWriteLE (w + 20) 4 (sat lost (b.getD 5 0#32)).toNat
          let s3 := match q.2.2.2 with
            | some v => s2.spWriteLE (w + 24) 4 v
            | none => s2
          let s4 := ((s3.spWriteLE (w + 8) 4 (BitVec.ofInt 32 q.2.1).toNat).spWriteLE w 8 pos.toNat).spWriteLE (w + 12) 4 seq.toNat
          let t := s4.svTry i (s4.svChan r 0 0)
            (svMsg 0x71 (fld seq 0 8) 0 false [BitVec.ofInt 32 q.2.1, lowW pos, highW pos] [])
          let s5 := ((t.2.svCount i 0 1).svCount i 1 q.2.2.1).svCount i 2 lost
          if t.1 then s5 else s5.svCount i 3 1)

end Machine
end Sys2Proof
end

