-- ==== Sys2Proof/Machine/DnpObj.lean ====
section
/-! DEFINITION. The object octets of DNP3 responses (R7, R423, R424). Their layouts are those of IEEE 1815-2012, which the spec names and does
not print (PRESUMED, notes/assumptions/65.md). -/
namespace Sys2Proof
namespace Machine

/-- The point-map entry of a static group (R424). -/
def staticEntry (g : Nat) : Option Nat :=
  match g with
  | 1 => some 0
  | 3 => some 1
  | 10 => some 2
  | 20 => some 3
  | 21 => some 4
  | 30 => some 5
  | 40 => some 6
  | _ => none
/-- The group of a point-map entry's events. -/
def eventGroup (entry : Nat) : Nat := if entry = 0 then 2 else if entry = 1 then 4 else if entry = 3 then 22 else 32
/-- The variation that a request for variation 0, or for a class, is answered with: the lowest of R423. -/
def defaultVar (g : Nat) : Nat := if g = 10 then 2 else 1

/-- The flags octet of a binary point (R424): a table's octet less its state bits, 0x01 for 0, with the state in the top bits. -/
def binFlags (w : Word) (nstate : Nat) : Byte :=
  let f := fld w 8 8 % 2 ^ (8 - nstate)
  BitVec.ofNat 8 ((if f = 0 then 1 else f) + fld w 0 nstate * 2 ^ (8 - nstate))
/-- A signed value clamped to 16 bits, and whether it was out of range. -/
def clamp16 (w : Word) : Nat × Bool :=
  let v := w.toInt
  if 32767 < v then (0x7FFF, true) else if v < -32768 then (0x8000, true) else (w.toNat % 65536, false)
/-- A value with a flags octet (ONLINE, and OVER_RANGE) of 16 or 32 bits, or without flags. -/
def analogOct (w : Word) (flag short : Bool) : List Byte :=
  if short then
    let c := clamp16 w
    (if flag then [BitVec.ofNat 8 (1 + 32 * b2n c.2)] else []) ++ leBytes 2 c.1
  else (if flag then [1#8] else []) ++ leBytes 4 w.toNat
/-- A counter likewise; 16 bits are its low half. -/
def counterOct (w : Word) (flag short : Bool) : List Byte :=
  (if flag then [1#8] else []) ++ leBytes (if short then 2 else 4) w.toNat
/-- Six octets of time. -/
def timeOct (ms : Nat) : List Byte := leBytes 6 ms

/-- One point of a static group and variation; `frz`: the time of the last freeze. -/
def staticOct (g v : Nat) (w : Word) (frz : Nat) : List Byte :=
  match g with
  | 1 | 10 => [binFlags w 1]
  | 3 => [binFlags w 2]
  | 20 => counterOct w (v < 3) (v = 2 || v = 6)
  | 21 => counterOct w true (v = 2 || v = 6) ++ (if v < 3 then [] else timeOct frz)
  | 30 => if v = 5 then 1#8 :: leBytes 4 w.toNat else analogOct w (v < 3) (v = 2 || v = 4)
  | _ => analogOct w true (v = 2)
/-- Bits packed into octets, `n` to a point, from the low end. -/
def packed (n : Nat) (ws : List Word) : List Byte :=
  let v := ws.foldr (fun w a => fld w 0 n + 2 ^ n * a) 0
  leBytes ((n * ws.length + 7) / 8) v
/-- One event of group and variation (R425); a relative time follows a common time of occurrence of 0 offset. -/
def eventOct (g v : Nat) (point w : Word) (ms : Nat) : List Byte :=
  let fl := fld point 16 8
  let flags (state : Nat) (top : Nat) : Byte := BitVec.ofNat 8 ((if fl % top = 0 then 1 else fl % top) + state * top)
  let time : List Byte := timeOct ms
  match g with
  | 2 => flags (fld w 0 1) 128 :: (if v = 2 then time else if v = 3 then [0#8, 0#8] else [])
  | 4 => flags (fld w 0 2) 64 :: (if v = 2 then time else if v = 3 then [0#8, 0#8] else [])
  | 22 => flags 0 256 :: (counterOct w false (v = 2 || v = 6) ++ (if v < 3 then [] else time))
  | _ =>
    if v = 5 ∨ v = 7 then flags 0 256 :: (leBytes 4 w.toNat ++ (if v = 7 then time else []))
    else
      let short := v = 2 || v = 4
      let c := clamp16 w
      (flags 0 256 ||| BitVec.ofNat 8 (32 * b2n (short && c.2))) :: ((if short then leBytes 2 c.1 else leBytes 4 w.toNat) ++ (if v < 3 then [] else time))

/-- An object header with a range of points. -/
def rangeHead (g v a b : Nat) : List Byte :=
  [BitVec.ofNat 8 g, BitVec.ofNat 8 v] ++ (if b < 256 then [0#8, BitVec.ofNat 8 a, BitVec.ofNat 8 b] else 1#8 :: (leBytes 2 a ++ leBytes 2 b))
/-- An event with its header and 16-bit index. -/
def eventObj (g v : Nat) (point w : Word) (ms : Nat) : List Byte :=
  (if v = 3 ∧ (g = 2 ∨ g = 4) then [51#8, 1#8, 7#8, 1#8] ++ timeOct ms else []) ++
  [BitVec.ofNat 8 g, BitVec.ofNat 8 v, 0x28#8, 1#8, 0#8] ++ leBytes 2 (fld point 0 16) ++ eventOct g v point w ms

/-- The points that a qualifier and its range octets name of `n`: none where one is not there (R423). -/
def pickPoints (q : Nat) (r : List Byte) (n : Nat) : Option (List Nat) :=
  let two (k : Nat) : Nat := leNat ((r.drop k).take 2)
  let run (a b : Nat) : Option (List Nat) := if a ≤ b ∧ b < n then some ((List.range (b + 1 - a)).map (a + ·)) else none
  let all (l : List Nat) : Option (List Nat) := if l.all (fun k => decide (k < n)) then some l else none
  match q with
  | 0x00 => run (r.getD 0 0#8).toNat (r.getD 1 0#8).toNat
  | 0x01 => run (two 0) (two 2)
  | 0x06 => some (List.range n)
  | 0x07 => some (List.range (min n (r.getD 0 0#8).toNat))
  | 0x08 => some (List.range (min n (two 0)))
  | 0x17 => all ((List.range (r.getD 0 0#8).toNat).map (fun k => (r.getD (1 + k) 0#8).toNat))
  | _ => all ((List.range (two 0)).map (fun k => two (2 + 2 * k)))

/-- A list cut into runs of at most `n`. -/
def cutRuns {α : Type} (n : Nat) : Nat → List α → List (List α)
  | 0, _ => []
  | k + 1, l => if l.isEmpty then [] else l.take n :: cutRuns n k (l.drop n)

/-- Points of a static group as objects of at most 64 points each: by range, or by index where the request names indexes. -/
def staticObjs (g v q : Nat) (pts : List (Nat × Word)) (frz : Nat) : List (List Byte) :=
  (cutRuns 64 (pts.length + 1) pts).map (fun l =>
    let a := (l.headD (0, 0#32)).1
    if q = 0x17 ∨ q = 0x28 then
      let v := if (g = 1 ∨ g = 3) ∧ v = 1 then 2 else v
      [BitVec.ofNat 8 g, BitVec.ofNat 8 v, 0x28#8] ++ leBytes 2 l.length ++
        (l.map (fun p => leBytes 2 p.1 ++ staticOct g v p.2 frz)).flatten
    else
      rangeHead g v a (a + l.length - 1) ++
        (if (g = 1 ∨ g = 3) ∧ v = 1 then packed (if g = 1 then 1 else 2) (l.map Prod.snd) else (l.map (fun p => staticOct g v p.2 frz)).flatten))

/-- A control request's objects with the status octets put in, as a response repeats them. -/
def ctlEcho : Nat → List Byte → List Nat → List Byte
  | 0, _, _ => []
  | k + 1, b, codes =>
    match b with
    | g :: v :: q :: r =>
      let bsz := if g = 12#8 then 11 else if v = 1#8 then 5 else 3
      let isz := if q = 0x17#8 then 1 else 2
      let n := leNat (r.take isz)
      let obj (j : Nat) : List Byte := (((r.drop isz).drop (j * (isz + bsz))).take (isz + bsz - 1)) ++ [BitVec.ofNat 8 (codes.getD j 0)]
      [g, v, q] ++ r.take isz ++ ((List.range n).map obj).flatten ++ ctlEcho k ((r.drop isz).drop (n * (isz + bsz))) (codes.drop n)
    | _ => []

/-- An authentication object, group 120 (R426). -/
def g120Obj (v : Nat) (b : List Byte) : List Byte := [120#8, BitVec.ofNat 8 v, 0x5B#8, 1#8] ++ leBytes 2 b.length ++ b

/-! ### Transport and link layers (R422) -/

/-- The transport segments of a fragment: FIN, FIR and SEQ, and up to 249 octets. -/
def tpSegs (seq : Nat) (b : List Byte) : List (List Byte) :=
  let parts := cutRuns 249 (b.length + 1) b
  (List.range parts.length).map (fun k =>
    BitVec.ofNat 8 (128 * b2n (decide (k + 1 = parts.length)) + 64 * b2n (decide (k = 0)) + (seq + k) % 64) :: parts.getD k [])
/-- As many objects as a fragment of 2,048 octets holds, and the rest. -/
def takeFit : Nat → List (List Byte) → List (List Byte) × List (List Byte)
  | _, [] => ([], [])
  | room, o :: r =>
    if o.length ≤ room then
      let q := takeFit (room - o.length) r
      (o :: q.1, q.2)
    else ([], o :: r)

end Machine
end Sys2Proof
end

