-- ==== Sys2Proof/Machine/Dnp3.lean ====
section
/-! DEFINITION. The DNP3 outstation (R422–R428): link and transport layers by octets; of the application layer everything the
spec states (function codes, IIN bits, controls, time, freeze, events, unsolicited responses, Secure Authentication). The
object octets are in Machine/DnpObj.lean. -/
namespace Sys2Proof
namespace Machine

/-- The outstation of instance `i` changed. -/
def State.modDnp (s : State) (i : Nat) (f : Dnp → Dnp) : State := s.modSvc i (fun v => { v with dnp := f v.dnp })
/-- The outstation of instance `i`. -/
def State.dnp (s : State) (i : Nat) : Dnp := (s.svc i).dnp

/-! ### Link layer (R422) -/

/-- The CRC octets of a block (R246, R422). -/
def dlCrc (b : List Byte) : List Byte := leBytes 2 ((crcOf 1 0#32 b) ^^^ 0xFFFF#32).toNat

/-- User data with a CRC after each 16 octets. -/
def dlBlocks : Nat → List Byte → List Byte
  | 0, _ => []
  | n + 1, d => if d.isEmpty then [] else d.take 16 ++ dlCrc (d.take 16) ++ dlBlocks n (d.drop 16)

/-- A link frame. -/
def dlFrame (ctrl dst src : Nat) (d : List Byte) : List Byte :=
  let h := [0x05#8, 0x64#8, BitVec.ofNat 8 (5 + d.length), BitVec.ofNat 8 ctrl] ++ leBytes 2 dst ++ leBytes 2 src
  h ++ dlCrc h ++ dlBlocks (d.length + 1) d

/-- The user data of a received frame's blocks: none where a CRC is wrong or octets are missing. -/
def dlData : Nat → Nat → List Byte → Option (List Byte)
  | 0, _, _ => none
  | k + 1, n, b =>
    if n = 0 then (if b.isEmpty then some [] else none)
    else
      let m := min 16 n
      if b.length < m + 2 ∨ (b.drop m).take 2 ≠ dlCrc (b.take m) then none
      else (dlData k (n - m) (b.drop (m + 2))).map (b.take m ++ ·)

/-- A received frame: control octet, destination, source, user data. -/
structure DlFrame where
  ctrl : Nat
  dst : Nat
  src : Nat
  data : List Byte
  deriving DecidableEq, Repr

/-- A frame with right start octets, length and CRCs. -/
def dlParse (b : List Byte) : Option DlFrame :=
  let len := (b.getD 2 0#8).toNat
  if b.length < 10 ∨ b.take 2 ≠ [0x05#8, 0x64#8] ∨ len < 5 ∨ (b.drop 8).take 2 ≠ dlCrc (b.take 8) then none
  else (dlData 20 (len - 5) (b.drop 10)).map (fun d =>
    { ctrl := (b.getD 3 0#8).toNat, dst := leNat ((b.drop 4).take 2), src := leNat ((b.drop 6).take 2), data := d })

/-- A secondary frame on the line: function code of the link layer. -/
def State.dlReply (s : State) (i : Nat) (r : SvcRec) (fc : Nat) : State :=
  s.modSvc i (fun v => { v with line := dlFrame fc (r.par 14 2) (r.par 12 2) [] })

/-! ### Application responses -/

/-- Canopy time in ms (R423): 0 with BT_NOM = 0. -/
def State.dnpMs (s : State) : Nat :=
  let nom := (s.reg rBtNom).toNat
  if nom = 0 then 0 else (s.bt.bt + s.bt.ofs).toNat * 1000 / nom
/-- DNP3 time (R423). -/
def State.dnpTime (s : State) (i : Nat) : Nat :=
  if s.reg rBtNom = 0#32 then 0 else (s.dnpMs + (s.dnp i).tofs.toNat) % 2 ^ 48

/-- The IIN bits of a response (R423): 1.0 broadcast, 1.1–1.3 events of a class, 1.4 need time, 1.7 restart, 2.0–2.3. -/
def Dnp.iinNow (d : Dnp) : BitVec 16 :=
  d.iin ||| BitVec.ofNat 16 (maskOf 4 (fun c => decide (1 ≤ c) && d.events.any (fun e => decide (e.cls = c))))

/-- An IIN bit set. -/
def State.iinSet (s : State) (i k : Nat) : State := s.modDnp i (fun d => { d with iin := d.iin ||| BitVec.ofNat 16 (2 ^ k) })
/-- IIN bits cleared. -/
def State.iinClear (s : State) (i : Nat) (mask : BitVec 16) : State := s.modDnp i (fun d => { d with iin := d.iin &&& ~~~ mask })

/-- The segment that waits for a link confirmation, on the line as confirmed user data. -/
def State.dlPush (s : State) (i : Nat) (r : SvcRec) : State :=
  match (s.dnp i).out with
  | [] => s
  | b :: _ => s.modSvc i (fun v => { v with line := dlFrame (0x53 + 0x20 * b2n v.dnp.ofcb) (r.par 14 2) (r.par 12 2) b })
/-- A fragment handed to the transport and link layers: with DLCONF each segment waits for the confirmation of the one before it. -/
def State.dlSend (s : State) (i : Nat) (r : SvcRec) (b : List Byte) : State :=
  let segs := tpSegs (s.dnp i).tseq b
  let s1 := s.modDnp i (fun d => { d with tseq := (d.tseq + segs.length) % 64, sent := b })
  if r.par 16 1 = 1 then
    (s1.modDnp i (fun d => { d with out := d.out ++ segs, dlTries := some (d.dlTries.getD 0) })).dlPush i r
  else s1.modSvc i (fun v => { v with line := (segs.map (fun x => dlFrame 0x44 (r.par 14 2) (r.par 12 2) x)).flatten })

/-- A fragment of an application response or unsolicited response sent (R422): as many of the objects as fit; where more follow, it asks
for a confirmation. The bits of one request (broadcast, 2.0–2.2) are then clear. -/
def State.appFrag (s : State) (i : Nat) (r : SvcRec) (fc seq : Nat) (first con : Bool) (objs : List (List Byte)) : State :=
  let fit := takeFit 2044 objs
  let d := s.dnp i
  let ac := 128 * b2n first + 64 * b2n fit.2.isEmpty + 32 * b2n (con || !fit.2.isEmpty) + 16 * b2n (fc == 130) + seq % 16
  let b := [BitVec.ofNat 8 ac, BitVec.ofNat 8 fc] ++ leBytes 2 d.iinNow.toNat ++ fit.1.flatten
  (s.modDnp i (fun d => { d with iin := d.iin &&& ~~~ 0x0701#16, more := fit.2, mseq := seq })).dlSend i r b
/-- A response sent, from its first fragment on. -/
def State.appSendObjs (s : State) (i : Nat) (r : SvcRec) (fc seq : Nat) (con : Bool) (objs : List (List Byte)) : State :=
  s.appFrag i r fc seq true con objs
/-- A response without objects. -/
def State.appSend (s : State) (i : Nat) (r : SvcRec) (fc seq : Nat) (con : Bool) : State := s.appSendObjs i r fc seq con []

/-! ### Events and unsolicited responses (R425) -/

/-- Events of enabled classes that wait. -/
def Dnp.pendingEvents (d : Dnp) : Nat := (d.events.filter (fun e => decide ((d.classes / 2 ^ e.cls) % 2 = 1))).length

/-- The objects of the events that a response carries, in the variation asked for (0: the default). -/
def Dnp.eventObjs (d : Dnp) (hit : DnpEvent → Option Nat) : List (List Byte) :=
  d.events.filterMap (fun e => (hit e).map (fun v =>
    let g := eventGroup (fld e.point 24 3)
    eventObj g (if v = 0 then defaultVar g else v) e.point e.value e.ms))

/-- One unsolicited response sent: all waiting events of enabled classes are in it. -/
def State.unsol (s : State) (i : Nat) (r : SvcRec) (tries : Nat) : State :=
  let s1 := s.modDnp i (fun d =>
    { d with
      unsolWait := some tries
      useq := if tries = 0 then d.useq + 1 else d.useq
      events := if d.null then d.events
        else d.events.map (fun e => if (d.classes / 2 ^ e.cls) % 2 = 1 then { e with sent := true } else e) })
  s1.appSendObjs i r 130 (s1.dnp i).useq true (if (s1.dnp i).null then [] else (s1.dnp i).eventObjs (fun e => if e.sent then some 0 else none))

/-- SERVICE_INIT (R414): the whole workspace is written 0, the data tables are read (one that cannot be read sets CFGERR), and
STATE becomes RUNNING. A DNP3 outstation starts with IIN1.7 and IIN1.4 set (R423) and, with UNSOL[0], sends the null unsolicited response (R425). -/
def execServiceInit (i : Fin 64) (s : State) : Out :=
  .next (match s.svRec i with
    | none => s
    | some r =>
      if s.mode ≠ .run ∨ fld (s.svStat i) 0 2 ≠ 1 then s
      else
        let n := match svSize r.type with
          | some z => z.2.2.2.2
          | none => 0
        let s1 := (List.range (n / 16)).foldl (fun s k => s.wordZero (r.ws / 16 + k)) s
        let q := s1.svReads (svTables r)
        let s2 := if q.1.isSome then q.2 else q.2.svFlag i 11
        let null := decide (r.type = 3) && r.parBit 22 0
        let s3 := (s2.rsetFld (rSvStat i) 0 2 2).modDnp i (fun d => { d with iin := 0x0090#16, null := null })
        if null then s3.unsol i r 0 else s3)

/-- An unsolicited response may be sent: allowed, none waiting for confirmation. -/
def State.unsolFree (s : State) (i : Nat) (r : SvcRec) : Bool := r.parBit 22 0 && (s.dnp i).unsolWait.isNone

/-- A confirmation ends what was sent: reported events leave the buffer; where fragments of the response are left, the next is sent. -/
def State.dnpConfirm (s : State) (i : Nat) (r : SvcRec) (uns : Bool) : State :=
  if uns && (s.dnp i).unsolWait.isNone then s
  else if !uns && !(s.dnp i).more.isEmpty then s.appFrag i r 129 ((s.dnp i).mseq + 1) false true (s.dnp i).more
  else s.modDnp i (fun d =>
    { d with events := d.events.filter (fun e => !e.sent), null := if uns then false else d.null,
             unsolWait := if uns then none else d.unsolWait })

/-- An event stored, or dropped with IIN2.3 (R425); UCOUNT of them make an unsolicited response due. -/
def State.dnpStore (s : State) (i : Nat) (r : SvcRec) (e : DnpEvent) : State :=
  if r.par 42 2 ≤ (s.dnp i).events.length then s.iinSet i 11
  else
    let s1 := s.modDnp i (fun d => { d with events := d.events ++ [e] })
    if s1.unsolFree i r && decide (r.par 26 2 ≤ (s1.dnp i).pendingEvents) then s1.unsol i r 0 else s1

/-- DNP3_EVENT (R425, R428): a message of the events endpoint; a malformed one sets BADMSG. -/
def execDnp3Event (i : Fin 64) (s : State) : Out :=
  .next (match s.svOn i 3 with
    | none => s
    | some r =>
      match s.svTake i r 1 2 with
      | (none, s1) => s1
      | (some m, s1) =>
        let p := mWord m 1
        let en := fld p 24 3
        if mOpc m ≠ 0x32 ∨ mLen m ≠ 0 ∨ (m.length ≠ 3 ∧ m.length ≠ 5) ∨ ¬ (en = 0 ∨ en = 1 ∨ en = 3 ∨ en = 5) then s1.svFlag i 10
        else
          match s1.svRead (r.par 44 4 + 8 * en + 4) with
          | (none, s2) => s2.svFlag i 11
          | (some cfg, s2) =>
            let cls := if fld p 28 2 = 0 then fld cfg 16 2 else fld p 28 2
            if cls = 0 then s2
            else
              let ms := if m.length = 5 then ((mWord m 3).toNat + (mWord m 4).toNat * 2 ^ 32) % 2 ^ 48 else s2.dnpTime i
              s2.dnpStore i r { cls := cls, point := p, value := mWord m 2, ms := ms })

/-- DNP3_UNSOL_HOLD (R425): UHOLD ms after the first event of an enabled class. -/
def execDnp3UnsolHold (i : Fin 64) (s : State) : Out :=
  .next (match s.svOn i 3 with
    | none => s
    | some r => if s.unsolFree i r && decide (0 < (s.dnp i).pendingEvents) then s.unsol i r 0 else s)

/-- DNP3_CONFIRM_TIMEOUT (R425): the unsolicited response is repeated URETRY times, without limit for 255 and for the null
response; then it is given up. -/
def execDnp3ConfirmTimeout (i : Fin 64) (s : State) : Out :=
  .next (match s.svOn i 3 with
    | none => s
    | some r =>
      match (s.dnp i).unsolWait with
      | none => s
      | some k =>
        if (s.dnp i).null || r.par 23 1 = 255 || decide (k < r.par 23 1) then s.unsol i r (k + 1)
        else s.modDnp i (fun d => { d with unsolWait := none, events := d.events.map (fun e => { e with sent := false }) }))

/-- DNP3_LINK_CONFIRM_TIMEOUT (R422): a primary frame repeated up to DLRETRY times; then what waits is given up. -/
def execDnp3LinkConfirmTimeout (i : Fin 64) (s : State) : Out :=
  .next (match s.svOn i 3 with
    | none => s
    | some r =>
      match (s.dnp i).dlTries with
      | none => s
      | some k =>
        if k < r.par 17 1 then (s.modDnp i (fun d => { d with dlTries := some (k + 1) })).dlPush i r
        else s.modDnp i (fun d => { d with dlTries := none, out := [] }))

/-! ### Controls (R428) -/

/-- Words 1 to 4 of a CONTROL message. -/
def ctlWords (idx fc kind : Nat) (a b c : Word) : List Word :=
  [BitVec.ofNat 32 (idx % 2 ^ 16 + fc * 2 ^ 16 + kind * 2 ^ 24), a, b, c]

/-- A notice to the application (R428): KIND 4 to 7; no reply is expected. -/
def State.dnpNotice (s : State) (i kind fc : Nat) : State :=
  s.modDnp i (fun d => { d with todo := d.todo ++ [(ctlWords 0 fc kind 0#32 0#32 0#32, false)] })

/-- Little-endian word at an offset. -/
def le32 (b : List Byte) (k n : Nat) : Word := BitVec.ofNat 32 (leNat ((b.drop k).take n))

/-- `n` indexed control objects: kind, octets of an index, octets of a body. -/
def ctlObjs (fc kind isz bsz : Nat) : Nat → List Byte → Option (List (List Word) × List Byte)
  | 0, b => some ([], b)
  | n + 1, b =>
    if b.length < isz + bsz then none
    else
      let idx := leNat (b.take isz)
      let v := b.drop isz
      let w := if kind = 1 then ctlWords idx fc 1 (le32 v 0 2) (le32 v 2 4) (le32 v 6 4)
        else if kind = 2 then ctlWords idx fc 2 (le32 v 0 4) 0#32 0#32
        else ctlWords idx fc 3 (sext 16 (leNat (v.take 2))) 0#32 0#32
      (ctlObjs fc kind isz bsz n (b.drop (isz + bsz))).map (fun q => (w :: q.1, q.2))

/-- The control objects of a request (R423, R428): an error is the IIN bit that it sets. -/
def ctlParse (fc : Nat) : Nat → List Byte → Except Nat (List (List Word))
  | 0, _ => .error 10
  | k + 1, b =>
    match b with
    | [] => .ok []
    | g :: v :: q :: r =>
      let kind := if g = 12#8 ∧ v = 1#8 then 1 else if g = 41#8 ∧ v = 1#8 then 2 else if g = 41#8 ∧ v = 2#8 then 3 else 0
      let bsz := if kind = 1 then 11 else if kind = 2 then 5 else 3
      let isz := if q = 0x17#8 then 1 else if q = 0x28#8 then 2 else 0
      if kind = 0 then .error 9
      else if isz = 0 then .error 10
      else match ctlObjs fc kind isz bsz (leNat (r.take isz)) (r.drop isz) with
        | none => .error 10
        | some (ws, rest) =>
          match ctlParse fc k rest with
          | .ok l => .ok (ws ++ l)
          | .error e => .error e
    | _ => .error 10

/-- DNP3_CONTROL (R428): the next CONTROL or notice is sent with a blocking form, one with a reply at a time. -/
def execDnp3Control (i : Fin 64) (s : State) : Out :=
  .next (match s.svOn i 3 with
    | none => s
    | some r =>
      match (s.dnp i).todo, (s.dnp i).ctlTag, s.svChan r 1 0 with
      | (w, rep) :: l, none, some c =>
        match s.putMsg c (svMsg 0x31 (s.dnp i).tag 0 false w []) with
        | none => s
        | some s1 => s1.modDnp i (fun d =>
            { d with todo := l, tag := (d.tag + 1) % 256, ctlTag := if rep then some d.tag else none })
      | _, _, _ => s)

/-- The control that waits has its status; the last one of a request answers the master (R428). -/
def State.ctlDone (s : State) (i : Nat) (r : SvcRec) (code : Nat) : State :=
  let s1 := s.modDnp i (fun d => { d with ctlTag := none, codes := d.codes ++ [code] })
  if (s1.dnp i).todo.any (·.2) then s1
  else match (s1.dnp i).req with
    | some (seq, ack) =>
      let s2 := s1.modDnp i (fun d => { d with req := none })
      let d := s1.dnp i
      if ack then s2.appSendObjs i r 129 seq false [ctlEcho (d.ctl.length + 1) d.ctl d.codes] else s2
    | none => s1

/-- DNP3_CONTROL_REPLY (R428): a reply with another tag is late and discarded; a malformed one sets BADMSG. -/
def execDnp3ControlReply (i : Fin 64) (s : State) : Out :=
  .next (match s.svOn i 3 with
    | none => s
    | some r =>
      match s.svTake i r 1 1 with
      | (none, s1) => s1
      | (some m, s1) =>
        let st := fld (m.headD 0#32) 24 8
        if mOpc m ≠ 0xB1 ∨ m.length ≠ 1 ∨ mLen m ≠ 0 ∨ 127 < st then s1.svFlag i 10
        else if (s1.dnp i).ctlTag = some (mTag m) then s1.ctlDone i r st else s1)

/-- DNP3_APPRSP_TIMEOUT (R428): the control is answered with status 1 (TIMEOUT). -/
def execDnp3ApprspTimeout (i : Fin 64) (s : State) : Out :=
  .next (match s.svOn i 3 with
    | none => s
    | some r => if (s.dnp i).ctlTag.isSome then s.ctlDone i r 1 else s)

/-! ### Application layer (R423) -/

/-- The groups and variations that a READ may name (R423); variation 0 asks for the default. -/
def readable (g v : Nat) : Bool :=
  let top := if g = 1 ∨ g = 3 ∨ g = 40 ∨ g = 51 then 2 else if g = 2 ∨ g = 4 then 3 else if g = 60 then 4 else if g = 30 then 5 else 0
  if 0 < top then decide (v ≤ top)
  else if g = 10 then decide (v = 0 ∨ v = 2)
  else if g = 20 ∨ g = 21 ∨ g = 22 then decide (v = 0 ∨ v = 1 ∨ v = 2 ∨ v = 5 ∨ v = 6)
  else if g = 32 then decide (v ≤ 5 ∨ v = 7)
  else if g = 50 then decide (v = 1 ∨ v = 3)
  else decide (g = 52 ∧ v = 2) || decide (g = 80 ∧ v = 1)

/-- The events that a group and variation select. -/
def selects (g v : Nat) (e : DnpEvent) : Bool :=
  if g = 60 then decide (2 ≤ v) && decide (e.cls = v - 1)
  else decide (g = 2 ∧ fld e.point 24 3 = 0) || decide (g = 4 ∧ fld e.point 24 3 = 1) ||
    decide (g = 22 ∧ fld e.point 24 3 = 3) || decide (g = 32 ∧ fld e.point 24 3 = 5)

/-- The octets of a range field under a qualifier (R423). -/
def rangeLen (q : Byte) (r : List Byte) : Option Nat :=
  match q.toNat with
  | 0x00 => some 2
  | 0x01 => some 4
  | 0x06 => some 0
  | 0x07 => some 1
  | 0x08 => some 2
  | 0x17 => some (1 + leNat (r.take 1))
  | 0x28 => some (2 + 2 * leNat (r.take 2))
  | _ => none

/-- An object header of a READ: group, variation, qualifier and range octets. -/
structure RdHead where
  g : Nat
  v : Nat
  q : Nat
  r : List Byte
  deriving DecidableEq, Repr

/-- The object headers of a READ: an error is the IIN bit that it sets. -/
def readParse : Nat → List Byte → Except Nat (List RdHead)
  | 0, _ => .error 10
  | k + 1, b =>
    match b with
    | [] => .ok []
    | g :: v :: q :: r =>
      if !readable g.toNat v.toNat then .error 9
      else match rangeLen q r with
        | none => .error 10
        | some n =>
          if r.length < n then .error 10
          else match readParse k (r.drop n) with
            | .ok l => .ok ({ g := g.toNat, v := v.toNat, q := q.toNat, r := r.take n } :: l)
            | .error e => .error e
    | _ => .error 10

/-- The points of a table copied to another: counters to frozen counters (R424). -/
def State.dnpFreeze (s : State) (i : Nat) (r : SvcRec) (fc : Nat) : State :=
  let p := r.par 44 4
  match s.svReads [p + 24, p + 28, p + 32, p + 36] with
  | (some [src, n, dst, m], s1) =>
    let k := min (fld n 0 16) (fld m 0 16)
    match s1.svReads ((List.range k).map (fun j => src.toNat + 4 * j)) with
    | (some ws, s2) =>
      let q := s2.svMods ((List.range k).map (fun j => (dst.toNat + 4 * j, fun _ => ws.getD j 0#32)))
      if q.1 then (q.2.modDnp i (fun d => { d with frz := BitVec.ofNat 48 (q.2.dnpTime i) })).dnpNotice i 7 fc else (q.2.iinSet i 10).svFlag i 11
    | (none, s2) => (s2.iinSet i 10).svFlag i 11
  | (_, s1) => (s1.iinSet i 10).svFlag i 11

/-- A WRITE (R423): g80 v1 index 7 clears IIN1.7; g50 v1 or v3 sets TOFS and, with BT_NOM not 0, clears IIN1.4. -/
def State.dnpWrite (s : State) (i : Nat) (b : List Byte) : State :=
  match b with
  | g :: v :: q :: r =>
    if g = 80#8 ∧ v = 1#8 then
      if q = 0x00#8 ∧ r.take 2 = [7#8, 7#8] then s.iinClear i 0x0080#16 else s.iinSet i 10
    else if g = 50#8 ∧ (v = 1#8 ∨ v = 3#8) then
      if q = 0x07#8 ∧ r.length = 7 ∧ r.getD 0 0#8 = 1#8 then
        let t := BitVec.ofNat 48 (leNat (r.drop 1))
        let s1 := s.modDnp i (fun d => { d with tofs := t - BitVec.ofNat 48 s.dnpMs, timeSet := true })
        (if s.reg rBtNom = 0#32 then s1 else s1.iinClear i 0x0010#16).dnpNotice i 6 2
      else s.iinSet i 10
    else s.iinSet i 9
  | _ => s.iinSet i 10

/-- The classes of an ENABLE or DISABLE UNSOLICITED request. -/
def classMask (l : List RdHead) : Nat := maskOf 4 (fun c => l.any (fun p => decide (p.g = 60 ∧ p.v = c + 1) && decide (1 ≤ c)))

/-! ### READ (R423) -/

/-- The objects of one static group: its points from the table (R424). An error is the IIN bit that it sets. -/
def State.dnpStatic (s : State) (i : Nat) (r : SvcRec) (h : RdHead) : Except Nat (List (List Byte)) × State :=
  match staticEntry h.g with
  | none => (.ok [], s)
  | some e =>
    let p := r.par 44 4 + 8 * e
    match s.svReads [p, p + 4] with
    | (some [tab, cfg], s1) =>
      (match pickPoints h.q h.r (fld cfg 0 16) with
      | none => (.error 10, s1)
      | some l =>
        match s1.svReads (l.map (fun k => tab.toNat + 4 * k)) with
        | (some ws, s2) =>
          let v := if h.v = 0 then defaultVar h.g else h.v
          -- an integer form of a floating-point point, and the reverse, are no conversion that the spec states
          let odd := (h.g = 30 || h.g = 40) && (cfg.getLsbD 18 != (h.g = 30 && v = 5))
          let ws := if odd then ws.mapIdx (fun k _ => Config.freeWord (s2.draws + k)) else ws
          let s3 : State := if odd then { s2 with draws := s2.draws + ws.length } else s2
          (.ok (staticObjs h.g v h.q (l.zip ws) (s.dnp i).frz.toNat), s3)
        | (none, s2) => (.error 10, s2.svFlag i 11))
    | (_, s1) => (.error 10, s1.svFlag i 11)

/-- What one header of a READ is answered with, events apart: static points, class 0, times and internal indications. -/
def State.dnpHeadObjs (s : State) (i : Nat) (r : SvcRec) (h : RdHead) : Except Nat (List (List Byte)) × State :=
  if h.g = 60 ∧ h.v ≤ 1 then
    ([1, 3, 10, 20, 21, 30, 40] : List Nat).foldl (fun (q : Except Nat (List (List Byte)) × State) g =>
      match q.1 with
      | .error k => (.error k, q.2)
      | .ok a =>
        let t := q.2.dnpStatic i r { g := g, v := 0, q := 6, r := [] }
        (match t.1 with
        | .error k => .error k
        | .ok b => .ok (a ++ b), t.2)) (.ok [], s)
  else if h.g = 50 then (.ok [[50#8, 1#8, 7#8, 1#8] ++ timeOct (s.dnpTime i)], s)
  else if h.g = 80 then (.ok [[80#8, 1#8, 0#8, 0#8, 15#8] ++ leBytes 2 (s.dnp i).iinNow.toNat], s)
  else s.dnpStatic i r h

/-- A READ (R423): the events that its headers select are sent with the response and wait for its confirmation. -/
def State.dnpRead (s : State) (i : Nat) (r : SvcRec) (seq : Nat) (l : List RdHead) : State :=
  let pick (e : DnpEvent) : Option Nat := (l.find? (fun p => selects p.g p.v e)).map (fun p => if p.g = 60 then 0 else p.v)
  let evs := l.any (fun p => decide (p.g = 60 ∧ 2 ≤ p.v) || decide (p.g = 2 ∨ p.g = 4 ∨ p.g = 22 ∨ p.g = 32))
  let s1 := s.modDnp i (fun d => { d with events := d.events.map (fun e => if (pick e).isSome then { e with sent := true } else e) })
  let q := l.foldl (fun (q : List (List Byte) × State) h =>
    let t := q.2.dnpHeadObjs i r h
    match t.1 with
    | .ok a => (q.1 ++ a, t.2)
    | .error k => (q.1, t.2.iinSet i k)) ([], s1)
  let s2 := q.2.appSendObjs i r 129 seq ((s1.dnp i).events.any (fun e => (pick e).isSome)) ((s1.dnp i).eventObjs pick ++ q.1)
  if evs then s2.iinClear i 0x0800#16 else s2

/-- A control request (R428): SELECT and direct operates go to the application; an OPERATE is matched with its SELECT first. -/
def State.dnpOperate (s : State) (i : Nat) (r : SvcRec) (fc seq : Nat) (b : List Byte) (late : Bool) : State :=
  let ack := decide (fc ≠ 6)
  match ctlParse fc (b.length + 1) b with
  | .error k => if ack then (s.iinSet i k).appSend i r 129 seq false else s
  | .ok ws =>
    if fc = 4 ∧ ((s.dnp i).sel ≠ some b ∨ late = true) then
      (s.modDnp i (fun d => { d with codes := ws.map (fun _ => if late then 1 else 2), sel := none })).appSendObjs i r 129 seq false
        [ctlEcho (b.length + 1) b (ws.map (fun _ => if late then 1 else 2))]
    else s.modDnp i (fun d =>
      { d with ctl := b, todo := d.todo ++ ws.map (fun w => (w, true)), req := some (seq, ack), codes := [],
               sel := if fc = 3 then some b else if fc = 4 then none else d.sel })

/-- A request performed (R423). `b`: the objects. -/
def State.dnpRequest (s : State) (i : Nat) (r : SvcRec) (fc seq : Nat) (b : List Byte) (late : Bool) : State :=
  let rsp (s : State) : State := s.appSend i r 129 seq false
  if fc = 1 then
    match readParse (b.length + 1) b with
    | .error k => rsp (s.iinSet i k)
    | .ok l => s.dnpRead i r seq l
  else if fc = 2 then rsp (s.dnpWrite i b)
  else if fc = 3 ∨ fc = 4 ∨ fc = 5 ∨ fc = 6 then s.dnpOperate i r fc seq b late
  else if 7 ≤ fc ∧ fc ≤ 10 then
    let g := (b.getD 0 0#8).toNat
    let s1 := if g = 20 ∨ g = 22 then s.dnpFreeze i r fc else s.iinSet i 9
    if fc = 7 ∨ fc = 9 then rsp s1 else s1
  else if fc = 13 then (s.appSendObjs i r 129 seq false [[52#8, 2#8, 7#8, 1#8] ++ leBytes 2 1000]).dnpNotice i 4 13
  else if fc = 14 then (s.appSendObjs i r 129 seq false [[52#8, 2#8, 7#8, 1#8] ++ leBytes 2 1000]).dnpNotice i 5 14
  else if fc = 20 ∨ fc = 21 then
    match readParse (b.length + 1) b with
    | .error k => rsp (s.iinSet i k)
    | .ok l =>
      let m := classMask l
      rsp (s.modDnp i (fun d => { d with classes := if fc = 20 then d.classes ||| m else d.classes &&& (15 - m) }))
  else if fc = 23 then (s.appSendObjs i r 129 seq false [[52#8, 2#8, 7#8, 1#8] ++ leBytes 2 s.free.toNat]).drew
  else if fc = 24 then rsp s
  else rsp (s.iinSet i 8)

/-! ### Secure Authentication (R426) -/

/-- An authentication failure: CNT3; three in a row end the session keys. -/
def State.dnpAuthFail (s : State) (i : Nat) : State :=
  (s.svCount i 3 1).modDnp i (fun d =>
    { d with auth := .none, held := [], fails := d.fails + 1, keys := if 3 ≤ d.fails + 1 then false else d.keys })

/-- A held request performed once its sender is authenticated; KCC of them end the session keys. -/
def State.dnpAuthOk (s : State) (i : Nat) (r : SvcRec) : State :=
  let h := (s.dnp i).held
  let s1 := s.modDnp i (fun d =>
    { d with auth := .none, held := [], fails := 0, asdus := d.asdus + 1, keys := if r.par 40 2 ≤ d.asdus + 1 then false else d.keys })
  s1.dnpRequest i r (h.getD 1 0#8).toNat ((h.getD 0 0#8).toNat % 16) (h.drop 2) false

/-- A cipher request of the outstation. The IV that IEEE 1815-2012 gives for AES-GMAC is not printed in the spec: free bytes (R426,
notes/assumptions/65.md). -/
def State.dnpCipher (s : State) (i : Nat) (a : DnpAuth) (op slot dslot : Nat) (aad data tag : List Byte) : State :=
  let iv := if op = opUnwrap then [] else leBytes 4 (Config.freeWord s.draws).toNat ++ leBytes 4 (Config.freeWord (s.draws + 1)).toNat ++
    leBytes 4 (Config.freeWord (s.draws + 2)).toNat
  (s.drew.drew.drew.cpAsk { user := .svc i, op := op, slot := slot, dslot := dslot, iv := iv, aad := aad, data := data, tag := tag }).modDnp i
    (fun d => { d with auth := a })

/-- The key-status message, g120 v5: KSQ, user 1, AES-256 wrap, the key status, AES-GMAC, no challenge data. -/
def Dnp.keyStatus (d : Dnp) : List Byte := g120Obj 5 (leBytes 4 d.csq.toNat ++ [1#8, 0#8, 2#8, if d.keys then 1#8 else 2#8, 6#8, 0#8, 0#8])
/-- GMAC_TAG under UKSLOT over the key-status message (R426). -/
def State.dnpKeyStatus (s : State) (i : Nat) (r : SvcRec) : State :=
  s.dnpCipher i .status opTag (r.par 33 1) 0 (s.dnp i).keyStatus [] []

/-- An authentication message, g120 of variation `v` with its octets after the object header (R426). -/
def State.dnpG120 (s : State) (i : Nat) (r : SvcRec) (v seq : Nat) (b : List Byte) : State :=
  if v = 1 then
    (s.modDnp i (fun d => { d with chal := b })).dnpCipher i .tag opTag (r.par 34 1 + 1) 0 (b ++ (s.dnp i).sent) [] []
  else if v = 2 then
    if (s.dnp i).auth = .reply then
      if (s.dnp i).keys then s.dnpCipher i .check opCheck (r.par 34 1) 0 ((s.dnp i).chal ++ (s.dnp i).held) [] (b.drop 6) else s.dnpAuthFail i
    else s
  else if v = 4 then s.dnpKeyStatus i r
  else if v = 6 then s.dnpCipher i .unwrap opUnwrap (r.par 33 1) (r.par 34 1) [] (b.drop 6) []
  else if v = 7 ∨ v = 5 then s
  else (s.iinSet i 9).appSend i r 129 seq false

/-- The end of a cipher request of instance `i`: 0 OK; 1 failed after its re-issue; 2 AUTHFAIL, 3 SLOTERR (R426). `rdata`: the result beats;
12 octets of a tag are the MAC of g120 v2, that of a key status is discarded. -/
def State.svCipherEnd (s : State) (i stat : Nat) (rdata : List Byte) : State :=
  match s.svRec i with
  | none => s
  | some r =>
    let d := s.dnp i
    if stat = 0 then
      match d.auth with
      | .check => s.dnpAuthOk i r
      | .unwrap => (s.modDnp i (fun d => { d with keys := true, fails := 0, asdus := 0 })).dnpKeyStatus i r
      | .status => (s.modDnp i (fun d => { d with auth := .none })).appSendObjs i r 131 0 false [d.keyStatus]
      | .tag => (s.modDnp i (fun d => { d with auth := .none })).appSendObjs i r 131 0 false
          [g120Obj 2 (d.chal.take 4 ++ [1#8, 0#8] ++ rdata.take 12)]
      | _ => s
    else (if stat = 1 then s.svFlag i 12 else s).dnpAuthFail i

/-- The challenge words of instance `i` are here: g120 v1 is sent, with sequence number, user 1, AES-GMAC, the reason critical and the 16
bytes (R426). -/
def State.svRandom (s : State) (i : Nat) (ws : List Word) : State :=
  match s.svRec i with
  | none => s
  | some r =>
    if (s.dnp i).auth = .words then
      let c := leBytes 4 ((s.dnp i).csq + 1#32).toNat ++ [1#8, 0#8, 6#8, 1#8] ++ (ws.map (fun w => leBytes 4 w.toNat)).flatten
      (s.modDnp i (fun d => { d with auth := .reply, csq := d.csq + 1#32, chal := c })).appSendObjs i r 131 0 false [g120Obj 1 c]
    else s

/-- DNP3_SESSION_KEY_EXPIRY (R426). -/
def execDnp3SessionKeyExpiry (i : Fin 64) (s : State) : Out :=
  .next (match s.svOn i 3 with
    | none => s
    | some _ => s.modDnp i (fun d => { d with keys := false, asdus := 0 }))

/-! ### Fragments and frames (R422) -/

/-- A fragment received: a confirmation, an authentication message, a critical request that is challenged first, or a request
performed. -/
def State.dnpFragment (s : State) (i : Nat) (r : SvcRec) (f : List Byte) (late bcast : Bool) : State :=
  let ac := (f.getD 0 0#8).toNat
  let fc := (f.getD 1 0#8).toNat
  let seq := ac % 16
  let g := (f.getD 2 0#8).toNat
  let v := (f.getD 3 0#8).toNat
  if f.length < 2 then s
  else
    let s1 := (s.svCount i 2 1)
    let s1 := if bcast then s1.iinSet i 0 else s1
    if fc = 0 then s1.dnpConfirm i r ((ac / 16) % 2 = 1)
    else if fc = 32 ∨ fc = 33 then
      if r.parBit 32 0 ∧ g = 120 then s1.dnpG120 i r v seq (f.drop 8) else (s1.iinSet i 8).appSend i r 129 seq false
    else if r.parBit 32 0 ∧ fc ≠ 1 ∧ fc ≠ 23 then
      if (s1.dnp i).auth ≠ .none then s1
      else if g = 120 ∧ v = 3 then
        -- aggressive mode: g120 v3 with CSQ and user stands first, g120 v9 with the MAC last
        if r.parBit 32 1 ∧ (s1.dnp i).keys then
          (s1.modDnp i (fun d => { d with held := f.take 2 ++ (f.drop 12).take (f.length - 30) })).dnpCipher i .check opCheck (r.par 34 1) 0
            ((s1.dnp i).chal ++ f.take (f.length - 12)) [] (f.drop (f.length - 12))
        else (s1.iinSet i 9).appSend i r 129 seq false
      else
        (s1.trAsk (.svc i) 4).modDnp i (fun d =>
          { d with auth := .words, held := f, sel := if late ∧ fc = 4 then none else d.sel })
    else s1.dnpRequest i r fc seq (f.drop 2) late

/-- A transport segment (R422): FIR starts a fragment, a segment out of sequence discards it, FIN ends it. -/
def State.dnpSegment (s : State) (i : Nat) (r : SvcRec) (d : List Byte) (late bcast : Bool) : State :=
  match d with
  | [] => s
  | t :: b =>
    let seq := t.toNat % 64
    let before := if t.getLsbD 6 then some []
      else match (s.dnp i).seg with
        | some (n, l) => if n = seq then some l else none
        | none => none
    match before with
    | none => s.modDnp i (fun d => { d with seg := none })
    | some l =>
      if t.getLsbD 7 then
        let s1 := s.modDnp i (fun d => { d with seg := none })
        if (l ++ b).length ≤ 2048 then s1.dnpFragment i r (l ++ b) late bcast else s1
      else s.modDnp i (fun d => { d with seg := some ((seq + 1) % 64, l ++ b) })

/-- A frame with right CRCs, from MADDR, to this outstation or to a broadcast address (R422). -/
def State.dnpFrame (s : State) (i : Nat) (r : SvcRec) (f : DlFrame) (late : Bool) : State :=
  let bcast := decide (0xFFFD ≤ f.dst)
  let fc := f.ctrl % 16
  let fcb := decide ((f.ctrl / 32) % 2 = 1)
  if (f.ctrl / 64) % 2 = 0 then
    if fc = 0 ∧ bcast = false then
      (s.modDnp i (fun d => { d with dlTries := if d.out.tail.isEmpty then none else some 0, out := d.out.tail, ofcb := !d.ofcb })).dlPush i r
    else if fc = 1 ∧ bcast = false then s.dlPush i r
    else s
  else if bcast then (if fc = 4 then s.dnpSegment i r f.data late true else s)
  else if fc = 0 then (s.modDnp i (fun d => { d with reset := true, fcb := true })).dlReply i r 0
  else if fc = 2 then
    if !(s.dnp i).reset then s.dlReply i r 1
    else if fcb = (s.dnp i).fcb then (s.modDnp i (fun d => { d with fcb := !d.fcb })).dlReply i r 0 else s.dlReply i r 0
  else if fc = 3 then
    if !(s.dnp i).reset then s.dlReply i r 1
    else if fcb = (s.dnp i).fcb then
      ((s.modDnp i (fun d => { d with fcb := !d.fcb })).dlReply i r 0).dnpSegment i r f.data late false
    else s.dlReply i r 0
  else if fc = 4 then s.dnpSegment i r f.data late false
  else if fc = 9 then s.dlReply i r 11
  else s.dlReply i r 15

/-- DNP3_LINK_FRAME (R422): a frame with a wrong CRC counts in CNT1; a valid one in CNT0. -/
def execDnp3LinkFrame (i : Fin 64) (frame : List Byte) (late : Bool) (s : State) : Out :=
  .next (match s.svOn i 3 with
    | none => s
    | some r =>
      match dlParse frame with
      | none => (s.svCount i 1 1).svFlag i 13
      | some f =>
        let s1 := s.svCount i 0 1
        if f.src = r.par 14 2 ∧ (f.dst = r.par 12 2 ∨ 0xFFFD ≤ f.dst) then s1.dnpFrame i r f late else s1)

end Machine
end Sys2Proof
end

