-- ==== Sys2Proof/Machine/LinkLine.lean ====
section
/-! DEFINITION. Link frames as they stand on the line: the bytes of R441, the 8b/10b symbols of FAST mode (R438), the characters of SLOW
mode with LnDE (R439, R440). -/
namespace Sys2Proof
namespace Machine

/-! ### Bytes (R441) -/

/-- The TYPE code of a frame (R442). -/
def FType.code : FType → Nat
  | .hello => 0x01
  | .ack => 0x02
  | .cdata => 0x03
  | .credit => 0x04
  | .sync => 0x05
  | .grant => 0x06
  | .bdata => 0x07
  | .freeze => 0x08
  | .time => 0x09
  | .recov => 0x0A

/-- The bytes before the payload: 24, or 32 with ENC = 1. -/
def frameHead (ty : FType) (f : LinkFrame) : List Byte :=
  let cr := f.credit.getD (0, 0, 0)
  leBytes 4 f.dst.toNat ++ leBytes 4 f.src.toNat ++ [BitVec.ofNat 8 ty.code, BitVec.ofNat 8 f.ttl] ++ leBytes 2 f.payload.length ++
  leBytes 2 f.seq ++ leBytes 2 f.ack ++ leBytes 2 (f.chan % 4096) ++ leBytes 2 (cr.1 % 4096 + 2 ^ 15 * b2n f.credit.isSome) ++
  [BitVec.ofNat 8 cr.2.1, BitVec.ofNat 8 cr.2.2, BitVec.ofNat 8 (b2n f.enc + 2 * b2n f.retx + 4 * b2n f.insec), BitVec.ofNat 8 f.rwin] ++
  (if f.enc then leBytes 4 f.session.toNat ++ leBytes 4 f.txcnt else [])
/-- CRC-32, selector 2 of R246, low byte first. -/
def frameCrc (b : List Byte) : List Byte := leBytes 4 (~~~ crcBytes 2 0xFFFFFFFF#32 b).toNat
/-- The bytes of a frame, in the order in which they go onto the line. -/
def frameBytes (ty : FType) (f : LinkFrame) : List Byte :=
  let b := frameHead ty f ++ f.payload ++ (if f.enc then f.tag else [])
  b ++ frameCrc b

/-! ### FAST mode: 8b/10b (R438) -/

/-- The 5b/6b code words at negative running disparity, bits abcdei from the high end, by the low 5 bits of a byte. -/
def code6 : List Nat := [
  0b100111, 0b011101, 0b101101, 0b110001, 0b110101, 0b101001, 0b011001, 0b111000,
  0b111001, 0b100101, 0b010101, 0b110100, 0b001101, 0b101100, 0b011100, 0b010111,
  0b011011, 0b100011, 0b010011, 0b110010, 0b001011, 0b101010, 0b011010, 0b111010,
  0b110011, 0b100110, 0b010110, 0b110110, 0b001110, 0b101110, 0b011110, 0b101011]
/-- The 3b/4b code words at negative running disparity, bits fghj from the high end, by the high 3 bits of a byte. -/
def code4 : List Nat := [0b1011, 0b1001, 0b0101, 0b1100, 0b1101, 0b1010, 0b0110, 0b1110]
/-- The ones among the low `n` bits. -/
def ones (n v : Nat) : Nat := ((List.range n).filter (fun k => (v / 2 ^ k) % 2 = 1)).length
/-- A sub-block of `n` bits at running disparity `rd` (true: positive): unbalanced words, and the balanced word `alt`, are complemented at a
positive one; and the disparity after it. -/
def subBlock (n alt v : Nat) (rd : Bool) : Nat × Bool :=
  let even := decide (2 * ones n v = n)
  (if rd && (!even || v = alt) then 2 ^ n - 1 - v else v, if even then rd else !rd)
/-- The symbol of a data byte, first bit on the line at the high end, and the disparity after it. -/
def dataSymbol (b : Byte) (rd : Bool) : Nat × Bool :=
  let x := b.toNat % 32
  let y := b.toNat / 32
  let p := subBlock 6 0b111000 (code6.getD x 0) rd
  let a7 := decide (y = 7) && (if p.2 then x = 11 || x = 13 || x = 14 else x = 17 || x = 18 || x = 20)
  let q := subBlock 4 0b1100 (if a7 then 0b0111 else code4.getD y 0) p.2
  (p.1 * 16 + q.1, q.2)
/-- A control symbol, given at negative running disparity: K27.7, K29.7, K28.5. -/
def ctlSymbol (v : Nat) (rd : Bool) : Nat × Bool := (if rd then 1023 - v else v, if ones 10 v = 5 then rd else !rd)
/-- K27.7 opens a frame. -/
def kOpen : Nat := 0b1101101000
/-- K29.7 closes it. -/
def kClose : Nat := 0b1011101000
/-- K28.5 stands between frames. -/
def kIdle : Nat := 0b0011111010
/-- The symbols of data bytes. -/
def dataSymbols : List Byte → Bool → List Nat × Bool
  | [], rd => ([], rd)
  | b :: r, rd =>
    let p := dataSymbol b rd
    let q := dataSymbols r p.2
    (p.1 :: q.1, q.2)
/-- The symbols of a frame, with the K28.5 that separates it from the next. -/
def fastSymbols (b : List Byte) (rd : Bool) : List Nat :=
  let o := ctlSymbol kOpen rd
  let d := dataSymbols b o.2
  let c := ctlSymbol kClose d.2
  o.1 :: (d.1 ++ [c.1, (ctlSymbol kIdle c.2).1])

/-! ### SLOW mode: characters and LnDE (R439, R440) -/

/-- The characters of a frame: flags, and escapes inside. -/
def slowChars (b : List Byte) : List Byte :=
  0x7E#8 :: ((b.map (fun x => if x = 0x7E#8 ∨ x = 0x7D#8 then [0x7D#8, x ^^^ 0x20#8] else [x])).flatten ++ [0x7E#8])
/-- The bits of a character: start bit, 8 data bits LSB first, stop bit. -/
def charBits (b : Byte) : List Bool := false :: ((List.range 8).map (fun k => b.getLsbD k) ++ [true])
/-- LnDE and LnTXD, bit time by bit time, for frames of which each is ready before LnDE falls after the one before: DE leads by DELEAD
characters, stays high over the frames, and falls one character after the last closing flag. -/
def slowWave (delead : Nat) (frames : List (List Byte)) : List (Bool × Bool) :=
  List.replicate (10 * delead) (true, true) ++
  ((frames.map (fun b => ((slowChars b).map charBits).flatten)).flatten).map (fun x => (true, x)) ++
  List.replicate 10 (true, true) ++ [(false, true)]

end Machine
end Sys2Proof
end

