-- ==== Sys2Proof/Machine/Link.lean ====
section
/-! DEFINITION. Canopy links (R437–R466): establishment, the window, forwarding, channel credits, broadcasts, freeze, time. A
frame is a value with the fields of R441; its bytes and what it is on the line are in Machine/LinkLine.lean. -/
namespace Sys2Proof
namespace Machine

/-! ### Links, nodes, routes -/

/-- Link `n`. -/
def State.lk (s : State) (n : Nat) : Link := Bank.get (fun _ => ({} : Link)) s.links n
/-- Link `n` changed. -/
def State.modLk (s : State) (n : Nat) (f : Link → Link) : State :=
  { s with links := Bank.put (fun _ => ({} : Link)) s.links n (f (s.lk n)) }
/-- The line mode in force: 0 off, 1 FAST, 2 SLOW (R437, R146). -/
def State.lkMode (s : State) (n : Nat) : Nat :=
  if (s.lk n).recov then (if (s.lk n).rfast then 1 else 2) else s.rfld (rLkCfg n) 0 2
/-- GCM of the link (R450). -/
def State.lkGcm (s : State) (n : Nat) : Bool := s.rbit (rLkCfg n) 4 && !(s.lk n).recov
/-- This node's identifier (R454). -/
def State.nodeId (s : State) : Word := s.reg rLkNodeId
/-- An identifier names a node (R454). -/
def isNode (w : Word) : Bool := w != 0#32 && w != 0xFFFFFFFF#32
/-- The link runs: in RUN with a mode, or in RECOVERY as the recovery link; the node has an identifier (R146, R445, R454). -/
def State.lkOn (s : State) (n : Nat) : Bool :=
  isNode s.nodeId &&
  ((decide (s.mode = .run) && decide (s.rfld (rLkCfg n) 0 2 ≠ 0)) || (decide (s.mode = .recovery) && (s.lk n).recov))
/-- The route entries (R454). -/
def State.routes (s : State) : List (Word × Nat) := match s.image with
  | some m => m.nodes
  | none => []
/-- LK_ROUTE.DEFLINK. -/
def State.defLink (s : State) : Nat := s.rfld rLkRoute 16 8
/-- The node that a link endpoint names (R251). -/
def State.epNode (s : State) (ep : Word) : Word := (s.routes.getD (epSub ep) (0#32, 0)).1
/-- The link on which frames to a node leave (R455). -/
def State.routeTo (s : State) (dst : Word) : Option Nat :=
  match s.routes.find? (fun p => decide (p.1 = dst)) with
  | some p => some p.2
  | none => if s.defLink = 255 then none else some s.defLink
/-- The links of a child (R445). -/
def State.isChild (s : State) (n : Nat) : Bool := (s.lk n).up && s.rbit (rLkPeerF n) 0
/-- The links on which a broadcast from a source leaves (R456). -/
def State.castLinks (s : State) (src : Nat) : List Nat :=
  members 4 (fun n => decide (n ≠ src) &&
    ((decide (n = s.defLink) && (decide (src = 4) || s.isChild src)) ||
     (s.isChild n && (decide (src = 4) || decide (src = s.defLink) || s.isChild src))))

/-- 16-bit sequence arithmetic (R447). -/
def seqSub (a b : Nat) : Nat := (a + 65536 - b % 65536) % 65536
/-- The canopy time (R330). -/
def State.ct (s : State) : BitVec 64 := s.bt.bt + s.bt.ofs

/-- Free places of the receive store of link `n` (R441): frames not in order yet, and frames still waiting to be forwarded. -/
def State.rfree (s : State) (n : Nat) : Nat :=
  64 - (s.lk n).rstore.length - ((members 4 (fun _ => true)).map (fun m => ((s.lk m).wait.filter (fun e => decide (e.src = n))).length)).sum

/-- A frame dropped (R455, R457, R460): kind 0 NOROUTE, 1 TTL, 2 STALE, 3 DENY. -/
def State.lkDrop (s : State) (n kind : Nat) : State := (s.rcount (rLkDrop n) (8 * kind) 8 1).recBin 0x0A 0x03 0 (4 * n + kind) 1

/-! ### Sending -/

/-- The TXCNT from which a GCM link sends no new sequenced frame (R549). -/
def txHold : Nat := 0xFFFF0000
/-- The last TXCNT of a session (R446). -/
def txLast : Nat := 0xFFFFFFFF
/-- A new session word asked for link `n` (R446, R549), once. -/
def State.lkRenew (s : State) (n : Nat) : State :=
  if s.ports.tr.any (fun r => decide (r.user = .session n)) then s else s.trAsk (.session n) 1

/-- The IV of a frame's cipher request (R451): NODEID of the sender, SESSION, TXCNT. -/
def lkIv (node : Word) (f : LinkFrame) : List Byte := leBytes 4 node.toNat ++ leBytes 4 f.session.toNat ++ leBytes 4 f.txcnt

/-- LnDE and LnTXD of link `n` for the frame put on its line last, bit time by bit time (R439, R440); in FAST mode LnDE stays 0. -/
def State.lkWave (s : State) (n : Nat) : List (Bool × Bool) :=
  match (s.lk n).line with
  | some (ty, f) => if s.lkMode n = 2 then slowWave (s.rfld (rLkCtl n) 8 8) [frameBytes ty f] else []
  | none => []
/-- LnDE of link `n`, `k` bit times after the frame on its line was ready (R440). -/
def State.lkDe (s : State) (n k : Nat) : Bool := ((s.lkWave n).getD k (false, true)).1
/-- The 10-bit symbols of link `n` in FAST mode for that frame, at a running disparity (R438). -/
def State.lkSymbols (s : State) (n : Nat) (rd : Bool) : List Nat :=
  match (s.lk n).line with
  | some (ty, f) => if s.lkMode n = 1 then fastSymbols (frameBytes ty f) rd else []
  | none => []

/-- A frame on the line of link `n`: counted where it is sent for the first time (LKn_TXF), and the departure of a TIME frame stamped
(R462). `pay`: its plain payload. -/
def State.lkLine (s : State) (n : Nat) (ty : FType) (f : LinkFrame) (pay : List Byte) : State :=
  let s1 := if f.retx then s else s.rcount (rLkTxf n) 0 32 1
  s1.modLk n (fun l => { l with line := some (ty, f), deps := if ty = .time then (leNat (pay.take 2), s.ct) :: l.deps.take 1 else l.deps })

/-- A frame leaves on link `n` (R441, R447, R451): ACK, RWIN, session and TXCNT are filled in; on a GCM link it waits for its
cipher request, and where TXCNT would pass its last value the session is renewed in its place (R549). -/
def State.lkPut (s : State) (n : Nat) (ty : FType) (f : LinkFrame) : State :=
  let l := s.lk n
  let gcm := s.lkGcm n
  let f := { f with ack := l.next, rwin := s.rfree n, enc := gcm, tag := [], session := if gcm then l.session else 0#32,
                    txcnt := if gcm then l.txcnt + 1 else 0 }
  if gcm && decide (txLast ≤ l.txcnt) then s.lkRenew n
  else if gcm then
    (s.cpAsk { user := .link n, op := if f.payload.isEmpty then opTag else opEnc, slot := s.rfld (rLkCfg n) 8 8
               iv := lkIv s.nodeId f, aad := frameHead ty f, data := f.payload }).modLk n
      (fun l => { l with txcnt := l.txcnt + 1, jobs := l.jobs ++ [.send ty f], ackDue := false })
  else (s.modLk n (fun l => { l with ackDue := false })).lkLine n ty f f.payload

/-- An unsequenced frame to the direct peer (its DST and TTL: DESIGN CHOICE, notes/assumptions/80.md). -/
def State.lkSay (s : State) (n : Nat) (ty : FType) (payload : List Byte) : State :=
  s.lkPut n ty { dst := s.reg (rLkPeer n), src := s.nodeId, ttl := max 1 (s.rfld rLkGCfg 0 8), payload := payload }

/-- The first waiting entry of a source. -/
def takeSrc (p : LkEnt → Bool) : List LkEnt → Option (LkEnt × List LkEnt)
  | [] => none
  | e :: r => if p e then some (e, r) else (takeSrc p r).map (fun q => (q.1, e :: q.2))

/-- The frame that leaves next (R457, R461): a FREEZE first, else sources take turns. -/
def nextEnt (turn : Nat) (w : List LkEnt) : Option (LkEnt × List LkEnt) :=
  match takeSrc (fun e => decide (e.ty = .freeze)) w with
  | some q => some q
  | none => ((List.range 5).map (fun k => (turn + k) % 5)).findSome? (fun k => takeSrc (fun e => decide (e.src = k)) w)

/-- Waiting frames sent while the window allows (R447) and, on a GCM link, TXCNT is below the limit of R549. -/
def State.lkPumpN (s : State) (n : Nat) : Nat → State
  | 0 => s
  | k + 1 =>
    let l := s.lk n
    if !l.up || decide (min 64 l.peerRwin ≤ seqSub l.seq l.peerAck) || (s.lkGcm n && decide (txHold ≤ l.txcnt)) then s
    else match nextEnt l.turn l.wait with
      | none => s
      | some (e, w) =>
        let e := { e with f := { e.f with seq := l.seq } }
        let s1 := s.modLk n (fun l =>
          { l with seq := (l.seq + 1) % 65536, store := l.store ++ [e], wait := w, turn := (e.src + 1) % 5 })
        (s1.lkPut n e.ty e.f).lkPumpN n k
/-- See `lkPumpN`. -/
def State.lkPump (s : State) (n : Nat) : State := s.lkPumpN n (s.lk n).wait.length

/-- A frame enters an outbound link (R457). -/
def State.lkEnter (s : State) (n : Nat) (e : LkEnt) : State :=
  (s.modLk n (fun l => { l with wait := l.wait ++ [e] })).lkPump n

/-- The channels that a link endpoint sends to or receives from. -/
def State.linkChans (s : State) : List Nat :=
  (s.chans.map Prod.fst).filter (fun c => epKind (s.chan c).sendEp = 4 ∨ epKind (s.chan c).recvEp = 4)

/-- The first channel with credit to return to a node, with the credit (R443). -/
def State.owedTo (s : State) (dst : Word) : Option Nat :=
  s.linkChans.find? (fun c => epKind (s.chan c).sendEp = 4 && decide (s.epNode (s.chan c).sendEp = dst) && decide (0 < (s.chan c).owedM))
/-- The credit of a channel taken: CRCH, CRW, CRM (R443, R261). -/
def State.takeCredit (s : State) (c : Nat) : (Nat × Nat × Nat) × State :=
  ((epUnit (s.chan c).sendEp, (s.chan c).owedW, (s.chan c).owedM), s.modChan c (fun h => { h with owedW := 0, owedM := 0 }))

/-- A sequenced frame of this node (R443, R455, R456): it carries a credit that waits for its destination. -/
def State.lkOriginate (s : State) (ty : FType) (dst : Word) (chan : Nat) (payload : List Byte) (origin : Option Nat) : State :=
  let f : LinkFrame := { dst := dst, src := s.nodeId, ttl := max 1 (s.rfld rLkGCfg 0 8), chan := chan, payload := payload }
  if dst = 0xFFFFFFFF#32 then
    let num := match origin with
      | some c => ((s.chan c).sentM - 1#16).toNat
      | none => 0
    s.each (s.castLinks 4) (fun s n => s.lkEnter n { ty := ty, f := f, src := 4, origin := origin, num := num })
  else
    let q : Option (Nat × Nat × Nat) × State := match s.owedTo dst with
      | some c => let r := s.takeCredit c; (some r.1, r.2)
      | none => (none, s)
    match s.routeTo dst with
    | some n => q.2.lkEnter n { ty := ty, f := { f with credit := q.1 }, src := 4, origin := origin }
    | none => s

/-! ### Channels across links (R261–R263, R458–R460) -/

/-- Little-endian words of a payload. -/
def wordsOf (b : List Byte) : List Word := (List.range (b.length / 4)).map (fun k => BitVec.ofNat 32 (leNat ((b.drop (4 * k)).take 4)))
/-- The bytes of words. -/
def bytesOf (ws : List Word) : List Byte := (ws.map (fun w => leBytes 4 w.toNat)).flatten

/-- The head message of a sending half sent under credit, or discarded where the far channel can never hold it: its whole credit
is here (8 messages) and its words do not suffice (R263). An uncorrectable word goes as 0 and counts (R250). -/
def State.lkSendHead (s : State) (c : Nat) : State :=
  let ch := s.chan c
  let dst := s.epNode ch.recvEp
  match ch.msgs.filter (fun m => !m.sent) with
  | [] => s
  | m :: _ =>
    let k := (ch.msgs.filter (·.sent)).length
    let mark (s : State) : State := ((s.readWords c ((ch.msgs.take k).map (·.words.length)).sum m.words.length).poolBads c m.words).modChan c (fun h =>
      { h with msgs := h.msgs.take k ++ (h.msgs.drop k).take 1 |>.map (fun m => { m with sent := true }) |> (· ++ h.msgs.drop (k + 1)),
               sentM := h.sentM + 1#16, sentW := h.sentW + BitVec.ofNat 16 m.total,
               credW := h.credW - m.total, credM := h.credM - 1 })
    let pay := bytesOf (m.words.map (fun w => if w.bad then 0#32 else w.v))
    if dst = 0xFFFFFFFF#32 then
      if (s.castLinks 4).any (fun n => (s.lk n).up) then (mark s).lkOriginate .bdata dst (epUnit ch.recvEp) pay (some c) else s
    else if ch.lnkdn then s
    else if k = 0 ∧ ch.credM = 8 ∧ ch.credW < m.total then
      ((s.modChan c (fun h => { h with msgs := h.msgs.take k ++ h.msgs.drop (k + 1) })).rset (rMcStat c) 27).recBin 0x04 0x03 c 0 2
    else if m.total ≤ ch.credW ∧ 1 ≤ ch.credM then (mark s).lkOriginate .cdata dst (epUnit ch.recvEp) pay (some c)
    else s

/-- A SYNC of a sending half (R458). -/
def State.lkSync (s : State) (c : Nat) : State :=
  let ch := s.chan c
  s.lkOriginate .sync (s.epNode ch.recvEp) (epUnit ch.recvEp) (leBytes 2 ch.sentM.toNat ++ leBytes 2 ch.sentW.toNat) none
/-- A GRANT of a receiving half (R459): what it grants takes in the credit still owed for words that it counts as free, and the half has now
a grant since the establishment (R263) (DESIGN CHOICE, notes/assumptions/62.md). -/
def State.lkGrant (s : State) (c : Nat) : State :=
  let ch := s.chan c
  (s.modChan c (fun h => { h with owedW := 0, owedM := 0, lnkdn := false })).lkOriginate .grant (s.epNode ch.sendEp) (epUnit ch.sendEp)
    ([BitVec.ofNat 8 (s.freeWords c), BitVec.ofNat 8 (8 - ch.msgs.length), 0#8, 0#8] ++ leBytes 2 ch.recvM.toNat ++ leBytes 2 ch.recvW.toNat)
    none

/-- The sending halves whose route entry leaves on link `n`. -/
def State.sendHalves (s : State) (n : Nat) : List Nat :=
  s.linkChans.filter (fun c => epKind (s.chan c).recvEp = 4 ∧ s.epNode (s.chan c).recvEp ≠ 0xFFFFFFFF#32 ∧
    s.routeTo (s.epNode (s.chan c).recvEp) = some n)
/-- The receiving halves whose route entry leaves on link `n`. -/
def State.recvHalves (s : State) (n : Nat) : List Nat :=
  s.linkChans.filter (fun c => epKind (s.chan c).sendEp = 4 ∧ s.epNode (s.chan c).sendEp ≠ 0xFFFFFFFF#32 ∧
    s.routeTo (s.epNode (s.chan c).sendEp) = some n)

/-- A frame of a sender reaches channel `c` (R460): a link endpoint names the sender, and a secure or privileged owner takes only
secure frames. -/
def State.lkAdmits (s : State) (c : Nat) (ep : Word) (src : Word) (sec : Bool) : Bool :=
  (s.chan c).hasRec && decide (epKind ep = 4) && decide (s.epNode ep = src) &&
  (match s.chanStand c with
   | some st => s.standAdmits st sec sec
   | none => true)

/-- A message published whole at a receiving half (R261), with the frame's attribute (R453). -/
def State.lkPublish (s : State) (n c : Nat) (pay : List Byte) (sec : Bool) : State :=
  let mark (l : List Msg) : List Msg := l.dropLast ++ (l.getLast?.toList.map (fun m => { m with sec := sec }))
  let ws := wordsOf pay
  if s.freeWords c < ws.length || (s.chan c).fullMsgs then s.lkDrop n 3
  else ((s.stage c ws).publish c).modChan c (fun h => { h with msgs := mark h.msgs, recvM := h.recvM + 1#16, recvW := h.recvW + BitVec.ofNat 16 ws.length })

/-- A credit taken by the sending half that it names (R443). -/
def State.lkCredit (s : State) (f : LinkFrame) (sec : Bool) : State :=
  match f.credit with
  | some (c, w, m) =>
    if s.lkAdmits c (s.chan c).recvEp f.src sec then s.modChan c (fun h => { h with credW := h.credW + w, credM := h.credM + m }) else s
  | none => s

/-- A SYNC taken (R459): counters set, the loss counted, a GRANT sent. -/
def State.lkTakeSync (s : State) (n c : Nat) (pay : List Byte) : State :=
  let m := BitVec.ofNat 16 (leNat (pay.take 2))
  let w := BitVec.ofNat 16 (leNat ((pay.drop 2).take 2))
  let dm := (m - (s.chan c).recvM).toNat
  let dw := (w - (s.chan c).recvW).toNat
  let s1 := ((s.modChan c (fun h => { h with recvM := m, recvW := w })).rcount rLkLost 0 16 dm).rcount rLkLost 16 16 dw
  let s2 := if dm = 0 then s1
    else s1.recPush { key := { unit := 0x0A, metric := 0x04, index := c }, sev := 2, dat := .bin n dm }
  s2.lkGrant c

/-- A GRANT taken (R459). -/
def State.lkTakeGrant (s : State) (c : Nat) (pay : List Byte) : State :=
  s.modChan c (fun h =>
    { h with
      credW := leNat (pay.take 1) - (h.sentW - BitVec.ofNat 16 (leNat ((pay.drop 6).take 2))).toNat
      credM := leNat ((pay.drop 1).take 1) - (h.sentM - BitVec.ofNat 16 (leNat ((pay.drop 4).take 2))).toNat
      lnkdn := false })

/-- A canopy freeze acted on (R461): the trigger is raised once every FREEZE sent on is acknowledged. -/
def State.frzCheck (s : State) : State :=
  if s.frzWait && !(List.range 4).any (fun n => ((s.lk n).store ++ (s.lk n).wait).any (fun e => decide (e.ty = .freeze)))
  then { s with frzWait := false }.freezeTrigger 6 else s
/-- LK_CFG lets this node act on a FREEZE (R461). -/
def State.frzActs (s : State) (sec : Bool) : Bool := (s.rbit rLkGCfg 8 && sec) || s.rbit rLkGCfg 9

/-- A sequenced frame delivered at this node (R455, R460). -/
def State.lkDeliver (s : State) (n : Nat) (ty : FType) (f : LinkFrame) (sec : Bool) : State :=
  let s := if f.dst = s.nodeId then s.lkCredit f sec else s
  let c := f.chan
  match ty with
  | .cdata => if s.lkAdmits c (s.chan c).sendEp f.src sec then s.lkPublish n c f.payload sec else s.lkDrop n 3
  | .sync => if s.lkAdmits c (s.chan c).sendEp f.src sec then s.lkTakeSync (match s.routeTo f.src with
      | some m => m
      | none => n) c f.payload else s.lkDrop n 3
  | .grant => if s.lkAdmits c (s.chan c).recvEp f.src sec then s.lkTakeGrant c f.payload else s.lkDrop n 3
  | .credit =>
    match f.credit with
    | some (k, _, _) => if s.lkAdmits k (s.chan k).recvEp f.src sec then s else s.lkDrop n 3
    | none => s.lkDrop n 3
  | .bdata => if s.lkAdmits c (s.chan c).sendEp 0xFFFFFFFF#32 sec then s.lkPublish n c f.payload sec else s.lkDrop n 3
  | .freeze =>
    let s1 := s.rset rLkGStat 0
    if s1.frzActs sec then { s1 with frzWait := true }.frzCheck else s1
  | .recov => { s with recovQ := s.recovQ ++ [(n, f)] }
  | _ => s

/-! ### Forwarding (R455–R457) -/

/-- A frame forwarded from link `n` to link `m`. -/
def State.lkForward (s : State) (n m : Nat) (ty : FType) (f : LinkFrame) : State :=
  if f.ttl ≤ 1 then s.lkDrop n 1
  else if !(s.lk m).up then s.lkDrop n 0
  else s.lkEnter m { ty := ty, f := { f with ttl := f.ttl - 1, insec := f.insec || !s.lkGcm n, retx := false }, src := n }

/-- A sequenced frame taken from the receive store of link `n` (R455, R453): delivered, forwarded or dropped. A broadcast is
forwarded first. -/
def State.lkRoute (s : State) (n : Nat) (ty : FType) (f : LinkFrame) : State :=
  let sec := s.lkGcm n && !f.insec
  if s.mode = .recovery then (if f.dst = s.nodeId ∧ ty = .recov then s.lkDeliver n ty f sec else s)
  else if ty = .recov then (if f.dst = s.nodeId then s.lkDeliver n ty f sec else s.lkDrop n 0)
  else if f.dst = 0xFFFFFFFF#32 then
    (s.each (s.castLinks n) (fun s m => s.lkForward n m ty f)).lkDeliver n ty f sec
  else if f.dst = s.nodeId then s.lkDeliver n ty f sec
  else match s.routeTo f.dst with
    | some m => s.lkForward n m ty f
    | none => s.lkDrop n 0

/-! ### Establishment and loss (R444–R446) -/

/-- A HELLO sent on link `n` (R444); its DST and TTL: DESIGN CHOICE, notes/assumptions/80.md. -/
def State.lkHello (s : State) (n : Nat) : State :=
  let l := s.lk n
  let flags := b2n (decide (s.defLink = n) && !l.recov) + 2 * b2n (s.lkGcm n) + 4 * b2n (decide (s.mode = .recovery))
  if l.session = 0#32 then s
  else s.lkPut n .hello
    { dst := 0xFFFFFFFF#32, src := s.nodeId, ttl := 1,
      payload := leBytes 4 s.nodeId.toNat ++ leBytes 4 l.session.toNat ++ leBytes 4 l.peerSes.toNat ++
        [BitVec.ofNat 8 flags, BitVec.ofNat 8 (s.lkMode n)] ++ leBytes 2 l.next ++
        leBytes 2 (match l.store with
          | e :: _ => e.f.seq
          | [] => l.seq) ++ [0#8, 0#8] }

/-- Some link with `p` holds the frame of broadcast message `num` of channel `c`, not yet acknowledged. -/
def State.castHeld (s : State) (p : Link → Bool) (c num : Nat) : Bool :=
  (List.range 4).any (fun m => p (s.lk m) &&
    ((s.lk m).store ++ (s.lk m).wait).any (fun e => decide (e.ty = .bdata ∧ e.origin = some c ∧ e.num = num)))
/-- The messages of a sending half that have been sent. -/
def State.sentCount (s : State) (c : Nat) : Nat := ((s.chan c).msgs.filter (·.sent)).length
/-- The number of the oldest of them. -/
def State.castFirst (s : State) (c : Nat) : Nat := ((s.chan c).sentM - BitVec.ofNat 16 (s.sentCount c)).toNat
/-- Some link of R456 is UP. -/
def State.castUp (s : State) : Bool := (s.castLinks 4).any (fun n => (s.lk n).up)
/-- A broadcast sending half frees the messages that every link of R456 that is UP has acknowledged, oldest first (R460). -/
def State.castFree (s : State) (c : Nat) : Nat → State
  | 0 => s
  | k + 1 =>
    if s.sentCount c = 0 || !s.castUp || s.castHeld (·.up) c (s.castFirst c) then s else (s.freeHead c).castFree c k
/-- Messages of a broadcast half whose frames went with a link (R460): freed while another link is UP; else, where no link holds a
frame of them, they wait to be sent again. -/
def State.castSettle (s : State) (c : Nat) : State :=
  if s.castUp then s.castFree c (s.sentCount c)
  else if (List.range (s.sentCount c)).any (fun k => s.castHeld (fun _ => true) c ((s.castFirst c + k) % 65536)) then s
  else s.modChan c (fun h =>
    { h with sentM := h.sentM - BitVec.ofNat 16 (h.msgs.filter (·.sent)).length, msgs := h.msgs.map (fun m => { m with sent := false }) })
/-- The channels whose broadcasts are among some frames. -/
def castsOf (l : List LkEnt) : List Nat := l.filterMap (fun e => if e.ty = .bdata then e.origin else none)

/-- Link `n` goes DOWN (R445, R446): counted, recorded and signalled where it was UP; frames waiting to be forwarded on it are
dropped. -/
def State.lkDown (s : State) (n : Nat) : State :=
  if (s.lk n).up then
    let fw := (s.lk n).wait.filter (fun e => e.src ≠ 4)
    let s1 := s.modLk n (fun l => { l with up := false, sacked := false, wait := l.wait.filter (fun e => decide (e.src = 4)) })
    let s2 := fw.foldl (fun (s : State) e => s.lkDrop e.src 0) s1
    let s3 := s2.each (castsOf ((s2.lk n).store ++ (s2.lk n).wait)) State.castSettle
    (((s3.rcount (rLkDowns n) 0 16 1).recBin 0x0A 0x01 0 n 2).pulse (258 + n)).frzCheck
  else s

/-- A frame that the peer has acknowledged (R262, R460, R466). -/
def State.lkAcked (s : State) (n : Nat) (e : LkEnt) : State :=
  let s1 := if e.ty = .recov ∧ e.src = 4 ∧ (s.lk n).busy then (s.modLk n (fun l => { l with busy := false })).rset (rLkRtxStat n) 1 else s
  match e.origin with
  | none => s1
  | some c =>
    if e.ty = .bdata then s1.castFree c (s1.sentCount c) else s1.freeHead c

/-- The peer's ACK (R447): frames before it leave the retransmit store. -/
def State.lkAck (s : State) (n a : Nat) : State :=
  let l := s.lk n
  let done := l.store.filter (fun e => decide (seqSub e.f.seq a ≥ 32768))
  if seqSub l.seq a ≤ l.store.length then
    let s1 := s.modLk n (fun l =>
      { l with peerAck := a, store := (l.store.filter (fun e => decide (seqSub e.f.seq a < 32768))).map (fun e =>
          if done.isEmpty then e else { e with tries := 0 }) })
    (done.foldl (fun (s : State) e => s.lkAcked n e) s1).frzCheck
  else s

/-- A stored frame sent again (R448). -/
def State.lkResend (s : State) (n : Nat) (e : LkEnt) : State :=
  let s1 := (s.rcount (rLkRetx n) 0 16 1).modLk n (fun l =>
    { l with store := l.store.map (fun d => if d.f.seq = e.f.seq then { d with tries := d.tries + 1 } else d) })
  s1.lkPut n e.ty { e.f with retx := true }

/-- Link `n` comes UP (R445, R446, R458, R459): its stores resume from the peer's NEXT. -/
def State.lkUp (s : State) (n next : Nat) : State :=
  let s1 := ((s.modLk n (fun l => { l with up := true, store := l.store.map (fun e => { e with tries := 0 }) })).lkAck n next).pulse (258 + n)
  let s2 := (s1.lk n).store.foldl (fun (s : State) e => s.lkResend n e) s1
  let s3 := s2.each (s2.sendHalves n) (fun s c => (s.modChan c (fun h => { h with lnkdn := true, credW := 0, credM := 0 })).lkSync c)
  (s3.each (s3.recvHalves n) (fun s c => s.lkGrant c)).lkPump n

/-- What stays valid in the receive store of link `n` when its numbers restart (R446): its frames are passed on in SEQ order. -/
def State.lkKeep (s : State) (n : Nat) : State :=
  let l := s.lk n
  (List.range 64).foldl (fun (s : State) k => match l.rstore.find? (fun p => decide (p.2.seq = (l.next + k) % 65536)) with
    | some (ty, f) => s.lkRoute n ty f
    | none => s) (s.modLk n (fun l => { l with rstore := [] }))

/-- SEQ and NEXT of link `n` restart at 0 (R446). -/
def State.lkRestart (s : State) (n : Nat) : State :=
  (s.lkKeep n).modLk n (fun l => { l with seq := 0, next := 0, peerAck := 0 })

/-- The retransmit store of link `n` discarded and counted (R446): a message of a frame so lost is freed, a broadcast's settles. -/
def State.lkDiscard (s : State) (n : Nat) : State :=
  let lost := (s.lk n).store
  let s1 := (s.rcount (rLkDowns n) 16 16 lost.length).modLk n (fun l =>
    { l with store := [], busy := l.wait.any (fun e => decide (e.ty = .recov)) })
  let s2 := lost.foldl (fun (s : State) e => match e.origin with
    | some c => if e.ty = .cdata then s.freeHead c else s
    | none => s) s1
  s2.each (castsOf lost) State.castSettle

/-- A new session of the peer (R446): the retransmit store is discarded, SEQ and NEXT restart. -/
def State.lkNewPeer (s : State) (n : Nat) (ses : Word) : State :=
  let s1 := s.lkDown n
  let s2 := if (s1.lk n).peerSes = 0#32 then s1 else s1.rset (rLkStat n) 5
  (((s2.lkDiscard n).modLk n (fun l => { l with peerTx := 0, peerSes := ses })).lkRestart n).lkHello n

/-- A HELLO taken (R445, R446). -/
def State.lkTakeHello (s : State) (n : Nat) (f : LinkFrame) : State :=
  let p := f.payload
  let id := BitVec.ofNat 32 (leNat (p.take 4))
  let ses := BitVec.ofNat 32 (leNat ((p.drop 4).take 4))
  let pses := BitVec.ofNat 32 (leNat ((p.drop 8).take 4))
  let flags := (p.getD 12 0#8).toNat
  let next := leNat ((p.drop 14).take 2)
  if !isNode id || decide (id = s.nodeId) || decide ((p.getD 13 0#8).toNat ≠ s.lkMode n) || decide ((flags / 2) % 2 ≠ b2n (s.lkGcm n)) then
    s.rset (rLkStat n) 4
  else
    let s1 := (s.setReg (rLkPeer n) id).setReg (rLkPeerF n) (BitVec.ofNat 32 (flags % 2 + 2 * ((flags / 4) % 2)))
    let s2 := if ses = (s1.lk n).peerSes then s1 else s1.lkNewPeer n ses
    if pses = (s2.lk n).session ∧ (s2.lk n).session ≠ 0#32 ∧ !(s2.lk n).up then s2.lkUp n next else s2

/-! ### Receiving (R441, R447, R448, R452) -/

/-- Stored frames passed on in SEQ order (R447). -/
def State.lkPass (s : State) (n : Nat) : Nat → State
  | 0 => s
  | k + 1 =>
    match (s.lk n).rstore.find? (fun p => decide (p.2.seq = (s.lk n).next)) with
    | none => s
    | some (ty, f) =>
      ((s.modLk n (fun l =>
        { l with rstore := l.rstore.filter (fun p => decide (p.2.seq ≠ l.next)), next := (l.next + 1) % 65536 })).lkRoute n ty f).lkPass n k

/-- The SACK bitmap (R448): bit k for frame NEXT + 1 + k. -/
def State.sackBits (s : State) (n : Nat) : List Byte :=
  leBytes 8 (maskOf 64 (fun k => (s.lk n).rstore.any (fun p => decide (p.2.seq = ((s.lk n).next + 1 + k) % 65536))))

/-- A sequenced frame in the window (R447, R448). -/
def State.lkSeq (s : State) (n : Nat) (ty : FType) (f : LinkFrame) : State :=
  let l := s.lk n
  let d := seqSub f.seq l.next
  if 64 ≤ d ∨ l.rstore.any (fun p => decide (p.2.seq = f.seq)) ∨ s.rfree n = 0 then s
  else
    let s1 := s.modLk n (fun l => { l with rstore := l.rstore ++ [(ty, f)], ackDue := true })
    if d = 0 then s1.lkPass n 65
    else if l.sacked then s1
    else (s1.modLk n (fun l => { l with sacked := true })).lkSay n .ack (s1.sackBits n)

/-- A SACK (R448): frames whose bit is clear below the highest set bit are sent again, and NEXT, which has no bit and is missing
(DEDUCED, notes/assumptions/31.md). -/
def State.lkSack (s : State) (n a : Nat) (bits : Nat) : State :=
  let top := msbPos bits 64
  let s1 := s.rcount (rLkRetx n) 16 16 1
  if bits = 0 then s1
  else (s1.lk n).store.foldl (fun (s : State) e =>
    let d := seqSub e.f.seq a
    if d = 0 ∨ (d ≤ top ∧ (bits / 2 ^ (d - 1)) % 2 = 0) then s.lkResend n e else s) s1

/-- Half of a sum (R463); which way an odd one rounds is a free value (notes/assumptions/4.md). -/
def State.half (s : State) (x : Int) : Int := x.fdiv 2 + (if x.emod 2 = 1 ∧ s.free.getLsbD 0 then 1 else 0)
/-- A TIME frame that arrived at CT `now` and BT `bt` (R462, R463): stamped, and a sample offered when the arrival of the frame before is held. -/
def State.lkTime (s : State) (n : Nat) (p : List Byte) (now bt : BitVec 64) : State :=
  let tsn := leNat (p.take 2)
  let rtsn := leNat ((p.drop 2).take 2)
  let nom := leNat ((p.drop 4).take 4)
  let tdep := BitVec.ofNat 64 (leNat ((p.drop 8).take 8))
  let tarr := BitVec.ofNat 64 (leNat ((p.drop 16).take 8))
  let l := s.lk n
  let s1 := s.modLk n (fun l => { l with arr := some (tsn, now) })
  if nom ≠ s.rfld rBtNom 0 28 then s1.rset (rLkStat n) 8
  else match l.arr with
    | none => s1
    | some (k, a) =>
      if (k + 1) % 65536 ≠ tsn then s1
      else
        let d? : Option Int :=
          if s.rbit (rLkCtl n) 1 then
            match l.deps.find? (fun q => decide (q.1 = rtsn)) with
            | some (_, t) => some (s.half ((a - tdep).toInt + (tarr - t).toInt))
            | none => none
          else some ((s.reg (rLkTdly n)).toNat : Int)
        match d? with
        | none => s1
        | some d =>
          let s2 := (if s.rbit (rLkCtl n) 1 then s1.drew else s1).setReg (rLkTest n) (sat32 d)
          if s.btMode = 2 ∧ s.rfld rBtDisc 13 2 = n ∧ nom = 0 then
            ({ s2 with bt := { s2.bt with prev := some bt, first := false } } : State).rset rBtStat 0
          else if s.btMode = 2 ∧ s.rfld rBtDisc 13 2 = n then
            let ref := tdep + BitVec.ofInt 64 d
            let gap := match s.bt.prev with
              | some q => (bt - q).toNat
              | none => 0
            let first := s.bt.first || s.bt.prev.isNone || decide (3 * nom < gap)
            ({ s2 with bt := { s2.bt with prev := some bt } } : State).btSample (a - ref).toInt gap first
          else s2

/-- The payload length that a type allows (R442). -/
def lenOk (ty : FType) (n : Nat) : Bool :=
  match ty with
  | .hello => decide (n = 20)
  | .ack => decide (n = 0 ∨ n = 8)
  | .cdata | .bdata => decide (4 ≤ n ∧ n ≤ 128 ∧ n % 4 = 0)
  | .credit | .freeze => decide (n = 0)
  | .sync => decide (n = 4)
  | .grant => decide (n = 8)
  | .time => decide (n = 28)
  | .recov => decide (4 ≤ n ∧ n ≤ 256 ∧ n % 4 = 0)

/-- A valid frame taken (R445–R448): its ACK and RWIN count; other types than HELLO act only while UP. In RECOVERY only HELLO, ACK
and RECOV for this node are accepted (R464). -/
def State.lkTake (s : State) (n : Nat) (ty : FType) (f : LinkFrame) (ct bt : BitVec 64) : State :=
  if s.mode = .recovery ∧ ¬ (ty = .hello ∨ ((ty = .ack ∨ ty = .recov) ∧ f.dst = s.nodeId)) then s
  else
    let s1 := (s.rcount (rLkRxf n) 0 32 1).modLk n (fun l => { l with lock := decide (s.lkMode n = 1), peerRwin := min 64 f.rwin })
    if ty = .hello then s1.lkTakeHello n f
    else if !(s1.lk n).up then s1
    else
      let s2 := s1.lkAck n f.ack
      (match ty with
       | .ack => if f.payload.isEmpty then s2 else s2.lkSack n f.ack (leNat f.payload)
       | .time => s2.lkTime n f.payload ct bt
       | _ => s2.lkSeq n ty f).lkPump n

/-- A frame received on link `n` (R441, R450, R452): a bad one is a line error; an encrypted one waits for its check. -/
def State.lkFrame (s : State) (n : Nat) (ty : FType) (f : LinkFrame) : State :=
  if !s.lkOn n then s
  else if !f.good || !lenOk ty f.payload.length then s.rcount (rLkErr n) 0 16 1
  else if f.enc != s.lkGcm n then s
  else if f.enc then
    -- the sender is the peer; that of a HELLO, which may come before the peer is known, is its SRC
    (s.cpAsk { user := .link n, op := if f.payload.isEmpty then opCheck else opDec, slot := s.rfld (rLkCfg n) 8 8
               iv := lkIv (if ty = .hello then f.src else s.reg (rLkPeer n)) f, aad := frameHead ty f, data := f.payload, tag := f.tag }).modLk n
      (fun l => { l with jobs := l.jobs ++ [.check ty f s.ct s.bt.bt] })
  else s.lkTake n ty f s.ct s.bt.bt

/-- A frame that fails R452: discarded and counted. -/
def State.lkAuthBad (s : State) (n : Nat) : State := (s.rcount (rLkErr n) 16 16 1).recBin 0x0A 0x02 0 n 3

/-- The end of a cipher request of link `n` (R451, R452): 0 OK; 1 failed after its re-issue; 2 AUTHFAIL, 3 SLOTERR. `rdata`: the result
beats, cipher text then tag, a tag, or plain text (R63). A received frame's plain text is used only after OK (R65). -/
def State.lkCipherEnd (s : State) (n stat : Nat) (rdata : List Byte) : State :=
  match (s.lk n).jobs with
  | [] => s
  | j :: r =>
    let s1 := s.modLk n (fun l => { l with jobs := r })
    let s2 := if stat = 1 then s1.rset (rLkStat n) 7 else s1
    match j with
    | .send ty f =>
      let k := f.payload.length
      if stat = 0 then s2.lkLine n ty { f with payload := rdata.take k, tag := (rdata.drop k).take 16 } f.payload else s2
    | .check ty f0 ct bt =>
      let f := if f0.payload.isEmpty then f0 else { f0 with payload := rdata.take f0.payload.length }
      if stat ≠ 0 then (if stat = 2 then s2.rset (rLkStat n) 6 else s2).lkAuthBad n
      else
        let l := s2.lk n
        let fresh := if ty = .hello ∧ leNat ((f.payload.drop 4).take 4) ≠ l.peerSes.toNat then true
          else decide (l.peerTx < f.txcnt) && (decide (ty = .hello) || decide (f.session = l.peerSes))
        if fresh then (s2.lkTake n ty f ct bt).modLk n (fun l => { l with peerTx := f.txcnt }) else s2.lkAuthBad n

/-! ### Timed events and commands -/

/-- HELLO_PERIOD (R445). -/
def execHelloPeriod (n : Fin 4) (s : State) : Out := .next (if s.lkOn n && !(s.lk n).up then s.lkHello n else s)
/-- LINK_KEEPALIVE (R446). -/
def execLinkKeepalive (n : Fin 4) (s : State) : Out := .next (if s.lkOn n && (s.lk n).up then s.lkSay n .ack [] else s)
/-- LINK_SILENCE_TIMEOUT (R446). -/
def execLinkSilenceTimeout (n : Fin 4) (s : State) : Out := .next (if s.lkOn n then s.lkDown n else s)
/-- RETRANSMIT_TIMEOUT (R446, R448): the oldest unacknowledged frame is sent again; after 8 times the link goes DOWN. -/
def execRetransmitTimeout (n : Fin 4) (s : State) : Out :=
  .next (if s.lkOn n && (s.lk n).up then
    match (s.lk n).store with
    | [] => s
    | e :: _ => if 8 ≤ e.tries then s.lkDown n else s.lkResend n e
  else s)
/-- ACK_DELAY (R448): an ACK frame, with the SACK bitmap while frames are out of order. -/
def execAckDelay (n : Fin 4) (s : State) : Out :=
  .next (if s.lkOn n && (s.lk n).up && (s.lk n).ackDue then
    (s.lkSay n .ack (if (s.lk n).rstore.isEmpty then [] else s.sackBits n)).modLk n (fun l => { l with sacked := false })
  else s.modLk n (fun l => { l with sacked := false }))
/-- A credit put on a waiting frame of this node to the sending half's node, if there is one without a credit (R443). -/
def State.creditOn (s : State) (c n : Nat) : Option State :=
  let dst := s.epNode (s.chan c).sendEp
  let p (e : LkEnt) : Bool := decide (e.src = 4) && decide (e.f.dst = dst) && e.f.credit.isNone
  if (s.lk n).wait.any p then
    let q := s.takeCredit c
    some (q.2.modLk n (fun l => { l with wait := match takeSrc p l.wait with
      | some (e, _) => l.wait.map (fun d => if d = e then { e with f := { e.f with credit := some q.1 } } else d)
      | none => l.wait }))
  else none
/-- Channel `c` is a receiving half with credit to return. -/
def State.owes (s : State) (c : Nat) : Bool := decide (epKind (s.chan c).sendEp = 4) && decide (0 < (s.chan c).owedM)
/-- LINK_CREDIT_RETURN (R261, R443): the credit goes on the next frame that waits for its node. -/
def execLinkCreditReturn (c : Fin 4096) (s : State) : Out :=
  .next (s.gated (if s.owes c then
    match s.routeTo (s.epNode (s.chan c).sendEp) with
    | some n => (s.creditOn c n).getD s
    | none => s
  else s))
/-- CREDIT_TIMEOUT (R443): the credit goes in a CREDIT frame. -/
def execCreditTimeout (c : Fin 4096) (s : State) : Out :=
  .next (if s.mode = .run ∧ s.owes c then
    let q := s.takeCredit c
    let dst := s.epNode (s.chan c).sendEp
    match q.2.routeTo dst with
    | some n => q.2.lkEnter n
        { ty := .credit, src := 4,
          f := { dst := dst, src := s.nodeId, ttl := max 1 (s.rfld rLkGCfg 0 8), chan := q.1.1, credit := some q.1 } }
    | none => s
  else s)
/-- The first frame from inbound link `n` that waits on an outbound link. -/
def State.waitsFrom (s : State) (n : Nat) : Option Nat := firstOf4 (fun m => (s.lk m).wait.any (fun e => decide (e.src = n)))
where firstOf4 (p : Nat → Bool) : Option Nat := (List.range 4).find? p
/-- STALE_FRAME_DROP (R457). -/
def execStaleFrameDrop (n : Fin 4) (s : State) : Out :=
  .next (s.gated (match s.waitsFrom n with
    | none => s
    | some m => (s.modLk m (fun l => { l with wait := match takeSrc (fun e => decide (e.src = n.val)) l.wait with
        | some (_, w) => w
        | none => l.wait })).lkDrop n 2))
/-- SYNC_WAIT_TIMEOUT (R458). -/
def execSyncWaitTimeout (c : Fin 4096) (s : State) : Out :=
  .next (if s.mode = .run ∧ epKind (s.chan c).recvEp = 4 ∧ s.epNode (s.chan c).recvEp ≠ 0xFFFFFFFF#32 ∧
    ((s.chan c).msgs.any (fun m => !m.sent)) then s.lkSync c else s)
/-- TIME_PERIOD (R462): TDEP is the departure of the frame before. -/
def execTimePeriod (n : Fin 4) (s : State) : Out :=
  .next (if s.lkOn n && (s.lk n).up && s.rbit (rLkCtl n) 0 then
    let l := s.lk n
    let tsn := (l.tsn + 1) % 65536
    let dep := match l.deps.find? (fun q => decide (q.1 = l.tsn)) with
      | some (_, t) => t.toNat
      | none => 0
    let arr := l.arr.getD (0, 0#64)
    let pay := leBytes 2 tsn ++ leBytes 2 arr.1 ++ leBytes 4 (s.reg rBtNom).toNat ++ leBytes 8 dep ++ leBytes 8 arr.2.toNat ++ leBytes 4 0
    (s.lkSay n .time pay).modLk n (fun l => { l with tsn := tsn })
  else s)
/-- FREEZE_ACK_WAIT (R461). -/
def execFreezeAckWait (s : State) : Out := .next (s.gated (if s.frzWait then { s with frzWait := false }.freezeTrigger 6 else s))
/-- SESSION_RENEWAL (R446, R549): with its store drained near the limit of TXCNT, the link takes a new session word. -/
def execSessionRenewal (n : Fin 4) (s : State) : Out :=
  .next (if s.lkOn n && s.lkGcm n && (s.lk n).store.isEmpty && decide (txHold ≤ (s.lk n).txcnt) then s.lkRenew n else s)
/-- A new session word (R446): every link's, or one link's; 0 names no session and is drawn again. The peer restarts its numbers on
it, and so does this node; frames that remain in the retransmit store are discarded (R549). -/
def State.lkSession (s : State) (n : Nat) (w : Word) : State :=
  if w = 0#32 then s.trAsk (.session n) 1
  else s.each (members 4 (fun m => decide (n = 4 ∨ m = n))) (fun s m =>
    let s1 := (((s.lkDown m).lkDiscard m).lkRestart m).modLk m (fun l => { l with session := w, txcnt := 0 })
    if s1.lkOn m then s1.lkHello m else s1)
/-- A write to a link register that a maintenance writer or the debugger alone may make: what a refused one leaves. -/
def State.lkRefused (s : State) (m : Master) : State :=
  match m with
  | .thread _ => s.rset rLkGStat 2
  | _ => s
/-- A canopy freeze originated (R461). -/
def State.lkFreeze (s : State) (m : Master) (key : Nat) : State :=
  if !s.maint m then s.lkRefused m
  else if key = 0x5A3F ∧ s.mode = .run then
    let s1 := (s.rset rLkGStat 1).lkOriginate .freeze 0xFFFFFFFF#32 0 [] none
    if s1.frzActs true then { s1 with frzWait := true }.frzCheck else s1
  else s
/-- LK_FRZCMD (R461). -/
def execLkFrzcmd (m : Master) (key : BitVec 16) (s : State) : Out := .next (s.gated (s.lkFreeze m key.toNat))
/-- LKn_RTXCTL with SEND (R466). -/
def State.lkRtx (s : State) (m : Master) (n len : Nat) : State :=
  if !s.maint m then s.lkRefused m
  else if !(s.lk n).up || (s.lk n).busy || decide (len < 4) || decide (256 < len) || decide (len % 4 ≠ 0) then s.rset (rLkRtxStat n) 2
  else
    let pay := (bytesOf ((List.range 64).map (fun w => s.reg (rLkRtxBuf n w)))).take len
    (s.modLk n (fun l => { l with busy := true })).lkEnter n
      { ty := .recov, src := 4, f := { dst := s.reg (rLkPeer n), src := s.nodeId, ttl := max 1 (s.rfld rLkGCfg 0 8), payload := pay } }
/-- RTX_SEND (R466). -/
def execRtxSend (m : Master) (n : Fin 4) (len : Fin 512) (s : State) : Out := .next (s.gated (s.lkRtx m n len))
/-- LINK_LOCK_FALL (R446, R438). -/
def execLinkLockFall (n : Fin 4) (inFrame : Bool) (s : State) : Out :=
  .next (if s.lkOn n && decide (s.lkMode n = 1) then
    ((if inFrame then s.rcount (rLkErr n) 0 16 1 else s).modLk n (fun l => { l with lock := false })).lkDown n
  else s)

/-- A RECOV response taken (R466). -/
def State.lkResponse (s : State) (n : Nat) (f : LinkFrame) : State :=
  if s.rbit (rLkRrxStat n) 0 then s.rset (rLkRrxStat n) 1
  else
    let ws := wordsOf f.payload
    let s1 := (List.range 64).foldl (fun (s : State) k => s.setReg (rLkRrxBuf n k) (ws.getD k 0#32)) s
    (s1.rset (rLkRrxStat n) 0).rsetFld (rLkRrxStat n) 16 9 f.payload.length

/-! ### Unit endpoints (R257, R258, R261) -/

/-- UNIT_ENDPOINT_TRANSFER (R257, R258, R261): a shift engine's queue, a timer's compare input, a link under credit. A host mailbox
and a capture output move nothing of themselves. -/
def execUnitEndpointTransfer (c : Fin 4096) (recv : Bool) (s : State) : Out :=
  .next (
    let ep := if recv then (s.chan c).recvEp else (s.chan c).sendEp
    if s.mode ≠ .run ∨ (s.chan c).hasRec = false then s
    else if epKind ep = 2 then
      if recv then s.toTxQueue c (epUnit ep) else s.fromRxQueue c (epUnit ep) (epSub ep / 8 + 1)
    else if epKind ep = 3 ∧ recv = true then s.tmCompareIn (epUnit ep)
    else if epKind ep = 4 ∧ recv = true then s.lkSendHead c
    else s)

/-! ### Registers -/

/-- A read of an LK register: live fields (R172). -/
def State.lkRead (s : State) (a : Nat) : Word :=
  match (List.range 4).find? (fun n => decide (a = rLkStat n)) with
  | some n =>
    let l := s.lk n
    let st := if !s.lkOn n then 0 else if l.up then 2 else 1
    (s.reg a &&& 0x1F0#32) ||| BitVec.ofNat 32 (st + 4 * b2n l.recov + 8 * b2n l.lock + l.store.length * 2 ^ 16 + l.peerRwin * 2 ^ 24)
  | none =>
    match (List.range 4).find? (fun n => decide (a = rLkRtxStat n)) with
    | some n => putBit (s.reg a) 0 (s.lk n).busy
    | none =>
      let e := s.routes[s.rfld rLkRtq 0 8]?
      if a = rLkRtNode then (match e with
        | some p => p.1
        | none => 0#32)
      else if a = rLkRtLink then (match e with
        | some p => BitVec.ofNat 32 (p.2 % 4) ||| 0x80000000#32
        | none => 0#32)
      else s.reg a

/-- A write to a plain LK register by a maintenance writer or the debugger. -/
def State.lkWrite (s : State) (m : Master) (a : Nat) (v : Word) : State :=
  if a = rLkFrzCmd then s.lkFreeze m (fld v 0 16)
  else match (List.range 4).find? (fun n => decide (a = rLkRtxCtl n)) with
    | some n => if v.getLsbD 16 then s.lkRtx m n (fld v 0 9) else if s.maint m then s else s.lkRefused m
    | none =>
      if !s.maint m then s.lkRefused m
      else if (List.range 4).any (fun n => decide (a = rLkCtl n)) then s.setReg a (v &&& 0xFFFFFF03#32)
      else if (List.range 4).any (fun n => decide (a = rLkTdly n) || (decide (rLkRtxBuf n 0 ≤ a) && decide (a ≤ rLkRtxBuf n 63))) then s.setReg a v
      else if a = rLkGCfg then s.setReg a (v &&& 0xFFFF03FF#32)
      else if a = rLkRtq then s.setReg a (v &&& 0xFF#32)
      else s

end Machine
end Sys2Proof
end

