-- ==== Sys2Proof/Machine/Recorder.lean ====
section
/-! DEFINITION. The tree-ring recorder (R467–R494): objects, updates, the window, clears, commits, restore. -/
namespace Sys2Proof
namespace Machine

/-! ### OTP fields in force -/

/-- Word `w` of the active settings generation (R119); 0 before P1. -/
def State.genWord (s : State) (w : Nat) : Word := match s.gen with
  | some g => s.reg (rOtpMirror (0x80 + 32 * g + w))
  | none => 0#32

/-! ### Objects (R467) -/

/-- Object `i` of the pool. -/
def State.obj (s : State) (i : Nat) : RecObj := Bank.get (fun _ => ({} : RecObj)) s.recd.pool i
/-- Object `i` written. -/
def State.setObj (s : State) (i : Nat) (o : RecObj) : State :=
  { s with recd := { s.recd with pool := Bank.put (fun _ => ({} : RecObj)) s.recd.pool i o } }
/-- The recorder controller changed. -/
def State.modRec (s : State) (f : Recorder → Recorder) : State := { s with recd := f s.recd }
/-- The valid objects, by slot. -/
def State.valid (s : State) : List Nat := members 256 (fun i => (s.obj i).valid)
/-- The words of a timestamp (R468). -/
def stampWord (t : RStamp) (k : Nat) : Word := BitVec.ofNat 32 (match k with
  | 0 => t.hours
  | 1 => t.secs
  | _ => t.pcc)
/-- Word `w` of object `i` (R467). A slot that holds no object reads 0 (DEDUCED, notes/assumptions/81.md). -/
def objWord (i : Nat) (o : RecObj) (w : Nat) : Word :=
  if !o.valid then 0#32
  else if w = 0 then BitVec.ofNat 32 (o.key.unit % 256 + (o.key.metric % 256) * 2 ^ 8 + (o.key.index % 65536) * 2 ^ 16)
  else if w = 1 then BitVec.ofNat 32 (o.sev % 8 + b2n o.extreme * 2 ^ 4 + 2 ^ 8 + (i % 256) * 2 ^ 24)
  else if w < 5 then stampWord o.created (w - 2)
  else if w < 8 then stampWord o.updated (w - 5)
  else if w = 24 then BitVec.ofNat 32 o.updcnt
  else if o.extreme then
    if w = 8 then BitVec.ofNat 32 o.lo
    else if w < 12 then stampWord o.loT (w - 9)
    else if w = 12 then BitVec.ofNat 32 o.hi
    else if w < 16 then stampWord o.hiT (w - 13) else 0#32
  else if w < 24 then BitVec.ofNat 32 (Bank.get (fun _ => 0) o.bins (w - 8)) else 0#32
/-- The 128 bytes of object `i`. -/
def objBytes (i : Nat) (o : RecObj) : List Byte := ((List.range 32).map (fun w => leBytes 4 (objWord i o w).toNat)).flatten
/-- A timestamp from three words. -/
def stampOf (f : Nat → Nat) (k : Nat) : RStamp := { hours := f k % 2 ^ 24, secs := f (k + 1) % 2 ^ 12, pcc := f (k + 2) % 2 ^ 24 }
/-- An object from its 128 bytes, with its slot (R467). -/
def objOf (b : List Byte) : Nat × RecObj :=
  let f (w : Nat) : Nat := leNat ((b.drop (4 * w)).take 4)
  let ext := decide ((f 1 / 16) % 2 = 1)
  (f 1 / 2 ^ 24,
   { valid := decide ((f 1 / 256) % 2 = 1), key := { unit := f 0 % 256, metric := (f 0 / 256) % 256, index := f 0 / 65536 },
     sev := f 1 % 8, extreme := ext, created := stampOf f 2, updated := stampOf f 5,
     bins := if ext then [] else (List.range 16).foldl (fun l k => Bank.put (fun _ => 0) l k (f (8 + k))) [],
     lo := if ext then f 8 else 0, loT := if ext then stampOf f 9 else {}, hi := if ext then f 12 else 0,
     hiT := if ext then stampOf f 13 else {}, updcnt := f 24 })

/-! ### Commit requests (R483, R493) -/

/-- Good sectors (R492). -/
def State.good (s : State) : Nat := s.rfld rErCmStat 8 4
/-- A commit requested; `crit`: for the creation of a CRITICAL object or a clear. With two good sectors only such requests count,
with fewer none (R493). A request during a commit makes one further commit (R483). -/
def State.askCommit (s : State) (crit : Bool) : State :=
  if s.good < 2 || (decide (s.good = 2) && !crit) then s
  else if s.recd.commit.isSome then s.modRec (fun r => { r with cmMore := true, cmMoreCrit := r.cmMoreCrit || crit })
  else s.modRec (fun r => { r with cmReq := true, cmCrit := r.cmCrit || crit })

/-! ### Applying updates (R472–R474) -/

/-- The data of an object after an update. -/
def RecObj.take (o : RecObj) (d : RecDat) (now : RStamp) (fresh : Bool) : RecObj :=
  let o := { o with updated := now, updcnt := satAdd 32 o.updcnt 1 }
  match d with
  | .bin b n => { o with bins := Bank.put (fun _ => 0) o.bins b (satAdd 32 (Bank.get (fun _ => 0) o.bins b) n) }
  | .value v =>
    let o := if fresh || decide (v < o.lo) then { o with lo := v, loT := now } else o
    if fresh || decide (o.hi < v) then { o with hi := v, hiT := now } else o

/-- The victim for a new object of a severity (R474): of lower severity, updated longest ago, never CRITICAL. -/
def State.victim (s : State) (sev : Nat) : Option Nat :=
  (s.valid.filter (fun i => decide ((s.obj i).sev < sev) && decide ((s.obj i).sev ≠ 4))).foldl
    (fun (b : Option Nat) i => match b with
      | some j => if (s.obj i).order < (s.obj j).order then some i else b
      | none => some i) none

/-- The stand that a key belongs to (R471). -/
def State.keyStand (s : State) (k : RecKey) : Option Nat :=
  match k.unit with
  | 0x02 => some k.index
  | 0x05 => if s.rbit (rSeGrp k.index) 20 then some (s.rfld (rSeGrp k.index) 16 4) else none
  | 0x04 => if s.rbit (rMcCfg k.index) 28 then some (s.rfld (rMcCfg k.index) 24 4) else none
  | 0x06 => (Bank.get (fun _ => none) (s.tmrs.map (fun p => (p.1, some p.2))) k.index).bind (fun t => if t.hasRec then some t.stand else none)
  | 0x07 => if s.rbit (rEvCfg k.index) 20 then some (s.rfld (rEvCfg k.index) 16 4) else none
  | _ => none

/-- A new object in slot `i`: of WARNING or higher, a pulse on Q267 (R336); a CRITICAL one requests a commit and, under FTCRIT of its
stand, a freeze (R483, R526). -/
def State.create (s : State) (i : Nat) (u : RecUpd) : State :=
  let n := s.recd.applied + 1
  let o : RecObj := { valid := true, key := u.key, sev := u.sev, extreme := (match u.dat with
    | .bin _ _ => false
    | .value _ => true), created := s.aon, order := n }
  let s0 := (s.setObj i (o.take u.dat s.aon true)).modRec (fun r => { r with applied := n })
  let s1 := if 2 ≤ u.sev then s0.pulse 267 else s0
  if u.sev ≠ 4 then s1
  else
    let s2 := s1.askCommit true
    match s2.keyStand u.key with
    | some st => if s2.rbit (rStcCfg st) 10 then s2.freezeTrigger 4 else s2
    | none => s2

/-- One update applied (R473, R474). -/
def State.applyUpd (s : State) (u : RecUpd) : State :=
  match s.valid.find? (fun i => decide ((s.obj i).key = u.key)) with
  | some i =>
    let n := s.recd.applied + 1
    (s.setObj i { (s.obj i).take u.dat s.aon false with order := n }).modRec (fun r => { r with applied := n })
  | none =>
    match (List.range 256).find? (fun i => !(s.obj i).valid) with
    | some i => s.create i u
    | none =>
      match s.victim u.sev with
      | some i => (s.rcount rErRepl 0 32 1).create i u
      | none => s.rcount (rErDrop u.sev) 0 32 1

/-- RECORDER_UPDATE_APPLY (R472, R473): the oldest queued update; an object found uncorrectable is freed and counted. -/
def execRecorderUpdateApply (bad : List (Fin 256)) (s : State) : Out :=
  .next (match s.recd.queue with
    | [] => s
    | u :: q =>
      if s.mode = .halted then s
      else match s.recd.clear with
        | .pass _ => s
        | _ =>
          let s1 := s.modRec (fun r => { r with queue := q })
          let s2 := bad.foldl (fun (s : State) (i : Fin 256) => if (s.obj i).valid then (s.setObj i {}).recBin 0x0B 0x07 0 3 3 else s) s1
          s2.applyUpd u)

/-! ### The window (R475) -/

/-- Object `i` loaded into the latch. -/
def State.latch (s : State) (i : Nat) : State :=
  let s1 := (List.range 32).foldl (fun (s1 : State) w => s1.setReg (rErWin w) (objWord i (s.obj i) w)) s
  (s1.rsetFld rErCursor 0 8 i).rput rErCursor 24 (s.obj i).valid
/-- A write to ER_CURSOR with NEXT = 0. -/
def State.cursorLoad (s : State) (i minsev : Nat) : State := (s.rsetFld rErCursor 8 3 minsev).latch i
/-- A write to ER_CURSOR with NEXT = 1. -/
def State.cursorNext (s : State) (i minsev : Nat) : State :=
  let s1 := (s.rsetFld rErCursor 8 3 minsev).rsetFld rErCursor 0 8 i
  match s1.valid.find? (fun j => decide (i < j) && decide (minsev ≤ (s1.obj j).sev)) with
  | some j => (s1.latch j).rclr rErCursor 25
  | none => s1.rset rErCursor 25
/-- ER_CURSOR_LOAD (R475). -/
def execErCursorLoad (index : Byte) (minsev : Fin 8) (s : State) : Out := .next (s.gated (s.cursorLoad index.toNat minsev))
/-- ER_CURSOR_NEXT (R475). -/
def execErCursorNext (index : Byte) (minsev : Fin 8) (s : State) : Out := .next (s.gated (s.cursorNext index.toNat minsev))

/-! ### Clearing (R477–R479) -/

/-- A write to ER_CLRCTL (R477): a wrong key, or a clear in progress, is refused. -/
def State.clrCtl (s : State) (v : Word) : State :=
  if fld v 0 16 = 0xE2C1 ∧ s.recd.clear = .none then
    (s.modRec (fun r => { r with clear := .check v })).cpAsk
      { user := .clear, op := opCheck, slot := fld (s.genWord 1) 16 8, iv := leBytes 4 (s.reg rLkNodeId).toNat ++ s.regBytes rErNonce 2
        aad := leBytes 4 v.toNat ++ leBytes 4 s.aon.pcc, tag := s.regBytes rErToken 4 }
  else s.rset rErStat 7
/-- ER_CLRCTL (R477). -/
def execErClrctl (v : Word) (s : State) : Out := .next (s.gated (s.clrCtl v))

/-- The end of the token check: 0 OK; 1 failed after its re-issue; 2 AUTHFAIL, 3 SLOTERR (R479). Fresh nonces are taken. -/
def State.clrChecked (s : State) (stat : Nat) : State :=
  match s.recd.clear with
  | .check v =>
    let s1 := s.trAsk .recNonce 2
    if stat = 0 then s1.modRec (fun r => { r with clear := .pass v })
    else
      let s2 := (s1.modRec (fun r => { r with clear := .none })).rset rErStat 5
      if stat = 1 then s2 else s2.recBin 0x0B 0x02 0 0 2
  | _ => s

/-- The key of ER.CLEAR. -/
def clearKey : RecKey := { unit := 0x0B, metric := 0x01, index := 0 }

/-- RECORDER_CLEAR_PASS (R478, R479). -/
def execRecorderClearPass (s : State) : Out :=
  .next (match s.recd.clear with
    | .pass v =>
      if s.mode = .halted then s
      else
        let top := min 4 (fld v 16 3)
        let goes (i : Nat) : Bool := (s.obj i).valid && decide ((s.obj i).sev ≤ top) && decide ((s.obj i).key ≠ clearKey)
        let s0 := s.modRec (fun r => { r with clear := .none })
        if !s.valid.any (fun i => decide ((s.obj i).key = clearKey)) && decide (s.valid.length = 256) && !s.valid.any goes then
          (s0.rset rErStat 6).recBin 0x0B 0x02 0 1 2
        else
          let s1 := (s.valid.filter goes).foldl (fun (s : State) i => s.setObj i {}) s0
          let s2 := if v.getLsbD 19 then ((List.range 5).foldl (fun (s : State) k => s.setReg (rErDrop k) 0#32) s1).setReg rErRepl 0#32 else s1
          ((s2.applyUpd { key := clearKey, sev := 4, dat := .bin top 1 }).askCommit true).rset rErStat 4
    | _ => s)

/-! ### Commits (R480–R486, R491–R493) -/

/-- ER_CMCTL (R483). -/
def State.cmCtl (s : State) (m : Master) (key : Nat) : State :=
  if s.maint m ∧ key = 0xC0A1 then s.askCommit false else s.rset rErStat 7
/-- ER_CMCTL (R483). -/
def execErCmctl (m : Master) (key : BitVec 16) (s : State) : Out := .next (s.gated (s.cmCtl m key.toNat))
/-- COMMITMIN in force (R483). -/
def State.commitMin (s : State) : Nat := if s.rfld rErCfg 0 11 = 0 then 60 else s.rfld rErCfg 0 11
/-- PERIODIC_COMMIT (R483). -/
def execPeriodicCommit (s : State) : Out := .next (s.gated ((s.modRec (fun r => { r with cmSecs := 0 })).askCommit false))

/-- E, the erase unit, and S, the span of a sector (R480). -/
def State.eraseUnit (s : State) : Nat := 2 ^ fld (s.genWord 7) 0 5
/-- See `eraseUnit`. -/
def State.sectSpan (s : State) : Nat := max s.eraseUnit 65536
/-- The flash address of an offset in sector `k`. -/
def State.sectAddr (s : State) (k off : Nat) : Nat := (s.genWord 6).toNat + k * s.sectSpan + off
/-- The sector is known bad (R489). -/
def State.sectBad (s : State) (k : Nat) : Bool := s.rbit rErCmStat (16 + k)
/-- The target (R484): the first good sector after `from_` in cyclic order that is not the sector of the newest valid commit. -/
def State.target (s : State) (from_ : Nat) : Option Nat :=
  ((List.range 8).map (fun k => (from_ + k) % 8)).find? (fun k => !s.sectBad k && !s.recd.newest.any (fun p => decide (p.1 = k)))
/-- The sector at which a new commit's search for its target begins (R484). -/
def State.targetFrom (s : State) : Nat := match s.recd.newest with
  | some p => (p.1 + 1) % 8
  | none => 0

/-- A commit as it starts (R484): its time, its objects and the drop and replacement counters. -/
def State.cmStart (s : State) (t : Nat) : CommitRun :=
  { target := t, seq := (s.recd.newest.map (fun p => p.2 + 1#32)).getD 1#32, stamp := s.aon, slots := s.valid,
    nobj := s.valid.length, crc := 0xFFFFFFFF#32, step := .erase 0, start := s.valid,
    drops := (List.range 5).map (fun k => s.reg (rErDrop k)) ++ [s.reg rErRepl] }
/-- An attempt at a commit from sector `from_` on (R484, R485); `again`: the commit of which it is a further attempt. The commit
ends where there is no target. -/
def State.attempt (s : State) (from_ : Nat) (again : Option CommitRun) : State :=
  match (if s.good < 2 then none else s.target from_) with
  | none => (s.modRec (fun r => { r with commit := none, cmMore := false, cmMoreCrit := false })).rset rErStat 3
  | some t => s.modRec (fun r => { r with commit := some (match again with
    | some c => { c with target := t, slots := c.start, crc := 0xFFFFFFFF#32, step := .erase 0 }
    | none => s.cmStart t) })

/-- COMMIT (R483, R484): a requested commit begins, in RUN and RECOVERY. -/
def execCommit (s : State) : Out :=
  .next (if s.recd.cmReq && s.recd.commit.isNone && (decide (s.mode = .run) || decide (s.mode = .recovery)) then
    let ok := decide (3 ≤ s.good) || (decide (s.good = 2) && s.recd.cmCrit)
    let s1 := s.modRec (fun r => { r with cmReq := false, cmCrit := false })
    if ok then s1.attempt s.targetFrom none else s1
  else s)

/-- The header's 64 bytes (R481). -/
def State.cmHeader (s : State) (c : CommitRun) : List Byte :=
  leBytes 4 0x7E1AE8C0 ++ leBytes 2 1 ++ leBytes 2 c.nobj ++ leBytes 4 c.seq.toNat ++ leBytes 4 (s.genWord 0).toNat ++
  leBytes 4 c.stamp.hours ++ leBytes 2 c.stamp.secs ++ [BitVec.ofNat 8 (s.rfld rErCmStat 16 8), BitVec.ofNat 8 c.target] ++
  leBytes 4 c.stamp.pcc ++ leBytes 4 0 ++
  ((List.range 6).map (fun k => leBytes 4 (c.drops.getD k 0#32).toNat)).flatten ++ leBytes 8 0

/-- The sequence that the commit runs next: whether it is an erase, its address, its data (R481, R484, R485). -/
def State.cmOp (s : State) (c : CommitRun) : Bool × Nat × List Byte :=
  match c.step with
  | .erase k => (true, s.sectAddr c.target (k * s.eraseUnit), [])
  | .head k => (false, s.sectAddr c.target (32 * k), ((s.cmHeader c).drop (32 * k)).take 32)
  | .obj k b => (false, s.sectAddr c.target (64 + 128 * (c.nobj - c.slots.length - 1) + 32 * k), (b.drop (32 * k)).take 32)
  | .unit => (false, s.sectAddr c.target (s.sectSpan - 32),
      leBytes 4 0x7E1AE8C1 ++ leBytes 4 c.seq.toNat ++ leBytes 4 (~~~ c.crc).toNat ++ leBytes 20 0)
  | .bad => (false, s.sectAddr c.target (s.sectSpan - 64), leBytes 32 0)

/-- The commit written back. -/
def State.setCommit (s : State) (c : Option CommitRun) : State := s.modRec (fun r => { r with commit := c })
/-- The step after the header and objects so far (R484): the next object, read now, or the COMMIT unit. -/
def State.cmNext (s : State) (c : CommitRun) : State :=
  match c.slots with
  | i :: r => s.setCommit (some { c with slots := r, step := .obj 0 (objBytes i (s.obj i)) })
  | [] => s.setCommit (some { c with step := .unit })

/-- A sequence of the commit succeeded (R484): the commit moves on, and ends with its COMMIT unit. -/
def State.cmOk (s : State) (c : CommitRun) (data : List Byte) : State :=
  let c1 := { c with crc := crcBytes 2 c.crc data }
  match c.step with
  | .erase k => s.setCommit (some { c with step := if (k + 1) * s.eraseUnit < s.sectSpan then .erase (k + 1) else .head 0 })
  | .head 0 => s.setCommit (some { c1 with step := .head 1 })
  | .head _ => s.cmNext c1
  | .obj k b => if k < 3 then s.setCommit (some { c1 with step := .obj (k + 1) b }) else s.cmNext c1
  | .unit =>
    let s1 := (((s.setReg rErCmSeq c.seq).rsetFld rErCmStat 0 3 c.target).rset rErCmStat 3).rset rErStat 2
    s1.modRec (fun r => { r with newest := some (c.target, c.seq), commit := none, cmReq := r.cmReq || r.cmMore, cmCrit := r.cmCrit || r.cmMoreCrit,
                                 cmMore := false, cmMoreCrit := false })
  | .bad => s.attempt ((c.target + 1) % 8) (some c)

/-- Good sectors lost (R492, R493): G, and the low-sector records, each once. -/
def State.goodDown (s : State) : State :=
  let g := s.good - 1
  let s1 := s.rsetFld rErCmStat 8 4 g
  let s2 := if g < 3 ∧ s1.recd.low2 = false then (s1.modRec (fun r => { r with low2 := true })).recBin 0x0B 0x06 0 0 4 else s1
  if g < 2 ∧ s2.recd.low1 = false then (s2.modRec (fun r => { r with low1 := true })).recBin 0x0B 0x06 0 1 4 else s2

/-- A sequence of the commit ended in a verify failure (R485): the sector is bad; the outcome of marking it is ignored. -/
def State.cmFail (s : State) (c : CommitRun) : State :=
  match c.step with
  | .bad => s.attempt ((c.target + 1) % 8) (some c)
  | _ => (((s.rset rErCmStat (16 + c.target)).goodDown).recBin 0x0B 0x05 0 c.target 2).setCommit (some { c with step := .bad })

/-! ### The flash port's programs and erases (R54–R57, R491) -/

/-- The flash port's operation. -/
def State.setFlash (s : State) (f : FlashOp) : State := { s with ports := { s.ports with flash := f } }

/-- The flash port serves in every mode but a whole-block halt, which gates FLCLK (R62). -/
def State.flashOn (s : State) : Bool := decide (s.mode ≠ .halted)

/-- The accesses of a program or erase sequence (R54), with the fields of the OTP factory section: two unlock writes, the command, the
target address, the data words of a program, the status read. -/
def State.flSeq (s : State) (erase : Bool) (addr : Nat) (data : List Byte) : List FlAcc :=
  let m (w : Nat) : Word := s.reg (rOtpMirror w)
  let wr (a v : Word) : FlAcc := { we := true, reg := true, addr := a, data := v }
  [wr (m 2) (m 3), wr (m 2) (m 4), wr (m 5) (BitVec.ofNat 32 (fld (m 9) (if erase then 8 else 0) 8)), wr (m 6) (BitVec.ofNat 32 addr)] ++
  (if erase then [] else (List.range 8).map (fun k => wr (m 7) (BitVec.ofNat 32 (leNat ((data.drop (4 * k)).take 4))))) ++
  [{ we := false, reg := true, addr := m 8 }]
/-- A sequence issued. -/
def State.flIssue (s : State) (op : Bool × Nat × List Byte) (second : Bool) : State :=
  { s with ports := { s.ports with flash := .issued op.1 op.2.1 op.2.2 second, flOut := s.flSeq op.1 op.2.1 op.2.2 } }

/-- FLASH_PROGRAM_ERASE (R54, R57): the sequence of the running commit's next step is issued, or the failed one again. -/
def execFlashProgramErase (s : State) : Out :=
  .next (match s.recd.commit with
    | none => s
    | some c =>
      let op := s.cmOp c
      if !s.flashOn then s
      else match s.ports.flash with
        | .none => s.flIssue op false
        | .retry => s.flIssue op true
        | _ => s)

/-- An erase or program of the recorder has ended (R56, R57, R491): PULSES recorded, then success, or a failure of the sector. -/
def State.flashEnd (s : State) (data : List Byte) (ok : Bool) (pulses : Option Nat) : State :=
  match s.recd.commit with
  | none => s.setFlash .none
  | some c =>
    let s1 := s.setFlash .none
    let s2 := match pulses with
      | some p =>
        let s2 := (s1.rsetFld rXpFlStat 8 8 p).recVal 0x0B 0x03 c.target p 0
        if s2.rfld rErCfg 16 16 ≠ 0 ∧ s2.rfld rErCfg 16 16 ≤ p then s2.recBin 0x0B 0x04 0 c.target 2 else s2
      | none => s1
    if ok then s2.cmOk c data else s2.cmFail c

/-- FLASH_STATUS_POLL (R55–R57): with BUSY = 0 the operation ends in success, verify failure or sequence failure; a first sequence
failure is retried, a second sets PERR and counts as a verify failure. A status with VFAIL and SEQERR both 1 is taken as a sequence
failure (DESIGN CHOICE, notes/assumptions/66.md). -/
def execFlashStatusPoll (st : Word) (s : State) : Out :=
  .next (match s.ports.flash with
    | .issued _ _ data second =>
      if !s.flashOn || st.getLsbD 0 then s
      else if st.getLsbD 3 then
        if second then ((s.rset rXpFlStat 4).flashEnd data false (some (fld st 8 8)))
        else (s.rsetFld rXpFlStat 8 8 (fld st 8 8)).setFlash .retry
      else if st.getLsbD 1 then ((s.rset rXpFlStat 3).flashEnd data false (some (fld st 8 8)))
      else s.flashEnd data true (some (fld st 8 8))
    | _ => s)

/-- FLASH_PE_TIMEOUT (R56): treated as a verify failure; PULSES are those the status register last showed. -/
def execFlashPeTimeout (pulses : Byte) (s : State) : Out :=
  .next (match s.ports.flash with
    | .issued _ _ data _ => if s.flashOn then (s.rset rXpFlStat 3).flashEnd data false (some pulses.toNat) else s
    | _ => s)

/-! ### The always-on counters (R468, R469) -/

/-- OPERATING_SECOND (R469): while PWR_OK is 1, SECS and HOURS advance; at the last second of the last hour the counter holds. -/
def execOperatingSecond (s : State) : Out :=
  .next (if !s.power then s
  else
    let a := s.aon
    let s1 := s.modRec (fun r => { r with cmSecs := r.cmSecs + 1 })
    if a.secs < 3599 then { s1 with aon := { a with secs := a.secs + 1 } }
    else if a.hours < 16777215 then { s1 with aon := { a with secs := 0, hours := a.hours + 1 } }
    else s1)

/-! ### Restore (R482, R488) -/

/-- A commit as found in a sector. -/
structure CmFound where
  seq : Word
  head : List Byte
  deriving DecidableEq, Repr

/-- Little-endian field of a byte list. -/
def leAt (b : List Byte) (off n : Nat) : Nat := leNat ((b.drop off).take n)

/-- The valid commit of a sector, if it holds one (R482). -/
def State.cmValid (s : State) (r : SectRead) : Option CmFound :=
  match r with
  | .flerr => none
  | .bytes h t =>
    let n := 64 + 128 * leAt h 6 2
    if leAt h 0 4 = 0x7E1AE8C0 ∧ leAt h 4 2 = 1 ∧ leAt t 32 4 = 0x7E1AE8C1 ∧ leAt h 8 4 = leAt t 36 4 ∧ h.length = n ∧
      (~~~ crcBytes 2 0xFFFFFFFF#32 h).toNat = leAt t 40 4 ∧ leAt h 12 4 = (s.genWord 0).toNat ∧ (t.take 32).all (· == 0xFF#8)
    then some { seq := BitVec.ofNat 32 (leAt h 8 4), head := h } else none

/-- Blank: the first and last units read all 0xFF (R482). -/
def sectBlank (r : SectRead) : Bool :=
  match r with
  | .flerr => false
  | .bytes h t => (h.take 32).all (· == 0xFF#8) && (t.drop 32).all (· == 0xFF#8)
/-- The BAD unit is marked (R481). -/
def sectMarked (r : SectRead) : Bool :=
  match r with
  | .flerr => false
  | .bytes _ t => (t.take 32).all (· == 0#8) && decide (t.length = 64)

/-- `a` is newer than `b` (R482). -/
def newer (a b : Word) : Bool := decide (0 < (a - b).toNat) && decide ((a - b).toNat < 2 ^ 31)
/-- The newest valid commit, with its sector. -/
def newest (l : List (Nat × CmFound)) : Option (Nat × CmFound) :=
  l.find? (fun p => l.all (fun q => !newer q.2.seq p.2.seq))

/-- The flags of the recorder's sector reads (R58). -/
def State.sectFlags (s : State) (x : SectorRead) : State :=
  let s1 := (if 0 < x.retries.val then s.rset rXpFlStat 1 else s).rsetFld rXpFlStat 16 4 x.retries
  if x.read = .flerr then s1.rset rXpFlStat 2 else s1

/-- RECORDER_RESTORE (R143, R488): in P4, when it is called for, with the reads of the eight sectors. The low-sector records of a
pool with few good sectors have been made already (R493). -/
def execRecorderRestore (reads : List SectorRead) (s : State) : Out :=
  .next (if s.mode ≠ .boot ∨ s.phase ≠ 4 ∨ s.recd.restore = false ∨ reads.length ≠ 8 then s
  else
    let sects := reads.map (fun x => x.read)
    let found := (List.range 8).filterMap (fun k => (s.cmValid (sects.getD k .flerr)).map (fun c => (k, c)))
    let marked := maskOf 8 (fun k => sectMarked (sects.getD k .flerr))
    let lost := s.recd.counters
    let sr := (List.range 8).foldl (fun (s : State) k => s.sectFlags (reads.getD k ⟨.flerr, 0⟩)) s
    let s0 := sr.modRec (fun r => { r with restore := false, counters := false, pool := [], newest := none })
    let done (s : State) (bad : Nat) : State :=
      let g := 8 - popCount (BitVec.ofNat 32 bad) 8
      ((s.rsetFld rErCmStat 16 8 bad).rsetFld rErCmStat 8 4 g).modRec (fun r =>
        { r with low2 := r.low2 || decide (g < 3), low1 := r.low1 || decide (g < 2) })
    match newest found with
    | some (k, c) =>
      let h := c.head
      let s1 := (List.range (leAt h 6 2)).foldl (fun (s : State) j =>
        let o := objOf ((h.drop (64 + 128 * j)).take 128)
        if o.2.valid then s.setObj o.1 { o.2 with order := j + 1 } else s) s0
      let s2 := (s1.modRec (fun r => { r with applied := leAt h 6 2, newest := some (k, c.seq) }))
      let s3 := ((List.range 5).foldl (fun (s : State) d => s.setReg (rErDrop d) (BitVec.ofNat 32 (leAt h (32 + 4 * d) 4))) s2).setReg rErRepl
        (BitVec.ofNat 32 (leAt h 52 4))
      let s4 := (((done s3 (leAt h 22 1 ||| marked)).setReg rErCmSeq c.seq).rsetFld rErCmStat 0 3 k).rset rErCmStat 3
      if lost then
        let a : RStamp := { hours := leAt h 16 4 % 2 ^ 24, secs := leAt h 20 2 % 2 ^ 12, pcc := min 16777215 (leAt h 24 4 % 2 ^ 24 + 1) }
        (({ s4 with aon := a } : State).recBin 0x0B 0x07 0 2 3).rset rErStat 11
      else s4
    | none =>
      let s1 := done s0 marked
      if sects.all sectBlank then s1
      else
        let s2 := (s1.recBin 0x0B 0x07 0 0 3).rset rErStat 10
        if lost then s2.recBin 0x0B 0x07 0 1 3 else s2)

/-! ### Registers -/

/-- A read of an ER register: live fields. -/
def State.erRead (s : State) (a : Nat) : Word :=
  if a = rErStat then
    (s.reg a &&& 0xCFC#32) ||| BitVec.ofNat 32 (b2n s.recd.commit.isSome + 2 * b2n (decide (s.recd.clear ≠ .none)) +
      2 ^ 8 * b2n (decide (s.good < 3)) + 2 ^ 9 * b2n (decide (s.good < 2)))
  else if a = rErPool then BitVec.ofNat 32 (s.valid.length + 2 ^ 16 * (s.valid.filter (fun i => decide ((s.obj i).sev = 4))).length)
  else if a = rErHours then stampWord s.aon 0
  else if a = rErSecs then stampWord s.aon 1
  else if a = rErPcc then stampWord s.aon 2
  else if a = rErCmNext then BitVec.ofNat 32 (s.commitMin - s.recd.cmSecs / 60)
  else s.reg a

/-- A write to an ER register (R476, R477, R483). -/
def State.erWrite (s : State) (m : Master) (a : Nat) (v : Word) : State :=
  if a = rErCursor then (if v.getLsbD 16 then s.cursorNext (fld v 0 8) (fld v 8 3) else s.cursorLoad (fld v 0 8) (fld v 8 3))
  else if a = rErClrCtl then s.clrCtl v
  else if a = rErCmCtl then s.cmCtl m (fld v 0 16)
  else if (List.range 4).any (fun i => decide (a = rErToken i)) then s.setReg a v
  else if a = rErStat then s.setReg a (s.reg a &&& ~~~ (v &&& 0xCFC#32))
  else s

end Machine
end Sys2Proof
end

