-- ==== Sys2Proof/Machine/Route.lean ====
section
/-! DEFINITION. Event routes (R336–R347). -/
namespace Sys2Proof
namespace Machine

/-! ### Consumers -/

/-- The first of the numbers below `n` with a property. -/
def firstOf (n : Nat) (p : Nat → Bool) : Option Nat := (List.range n).find? p

/-- The consumer that candidate `k` of route `r` names (R337). -/
def nativeConsumer (r k : Nat) : Nat :=
  if k < 4 then 8 * (32 * k + r % 32) + (r / 32 + 8 - k) % 8
  else if k = 4 then 1024 + r % 128
  else if k = 5 then 1024 + (r + 64) % 128
  else if k = 6 then 1152 + r % 128
  else if r % 64 = 63 then 1280
  else 1152 + (r + 64) % 128
/-- The consumer of a column of the matrix (R339). -/
def columnConsumer (c : Nat) : Nat :=
  if c < 128 then 8 * (c / 4) + c % 4 else if c < 192 then 1024 + (c - 128) else if c < 255 then 1152 + (c - 192) else 1280

/-- The consumer of a route, if any (R337, R339). -/
def State.consumer (s : State) (r : Nat) : Option Nat :=
  if s.compat then if (List.range 256).any (fun p => s.matBit p r) then some (columnConsumer r) else none
  else (firstOf 8 (fun k => s.rbit (rEvCfg r) (8 + k))).map (nativeConsumer r)

/-- The owner stand of a consumer; host attention has none (R343). -/
def State.consumerStand (s : State) (k : Nat) : Option Nat :=
  if k < 1024 then some (s.thr (k / 8)).stand
  else if k < 1152 then some (s.seStand ((k - 1024) / 4))
  else if k < 1280 then some (s.tmr ((k - 1152) / 2)).stand
  else none

/-- A consumer's busy view (R342), as a count. -/
def State.view (s : State) (k : Nat) : Nat := Bank.get (fun _ => 0) s.busyV k
/-- A busy view written. -/
def State.setView (s : State) (k v : Nat) : State := { s with busyV := Bank.put (fun _ => 0) s.busyV k v }
/-- `k` is a timer's count input. -/
def isCount (k : Nat) : Bool := decide (1152 ≤ k) && decide (k < 1280) && decide (k % 2 = 0)

/-- The consumer is busy: its view, or its stand is not RUNNING (R342, R343). -/
def State.consumerBusy (s : State) (k : Nat) : Bool :=
  if k = 1280 then s.rbit rEvHattn 0
  else (if isCount k then decide (4 ≤ s.view k) else decide (0 < s.view k)) ||
    (match s.consumerStand k with
      | some n => decide (s.standState n ≠ 1)
      | none => false)

/-- Route `r` has a record. -/
def State.routeRec (s : State) (r : Nat) : Bool := s.rbit (rEvCfg r) 20
/-- The owner stand of route `r`. -/
def State.routeStand (s : State) (r : Nat) : Nat := s.rfld (rEvCfg r) 16 4
/-- The route is open (R341); a shadow mismatch of its attributes closes it (R499, group 4). -/
def State.routeOpen (s : State) (r : Nat) : Bool := decide (s.standState (s.routeStand r) = 1) && !s.shBad 4 r

/-- A firing of route `r` (R341). `force`: a software fire outside RUN, where host attention counts as open (R345). -/
def State.fireRoute (s : State) (r : Nat) (force : Bool) : State :=
  let s := (s.rset (rEvStat r) 0).rcount (rEvCnt r) 0 16 1
  match s.consumer r with
  | none => s
  | some k =>
    if !(s.routeOpen r || (force && decide (k = 1280))) then s.rset (rEvStat r) 2
    else if s.consumerBusy k then
      ((((s.rset (rEvStat r) 1).rcount (rEvCnt r) 16 16 1).rcount rEvDropTot 0 32 1).recBin 0x07 0x01 0 (r / 16) 1)
    else if k = 1280 then s.rset rEvHattn 0
    else { s.setView k (s.view k + 1) with delivs := s.delivs ++ [k] }

/-- The first `n` pulses of different producers on route `r` taken out of those that wait. -/
def takePulses (r : Nat) : Nat → List Nat → List (Nat × Nat) → List (Nat × Nat)
  | _, _, [] => []
  | 0, _, l => l
  | n + 1, seen, p :: l =>
    if p.1 = r && !seen.contains p.2 then takePulses r n (p.2 :: seen) l else p :: takePulses r (n + 1) seen l

/-- ROUTE_FIRE (R338, R341): a route that a pulse is to fire fires, with the pulses of further producers taken in the same cycle. -/
def execRouteFire (f : RouteFiring) (s : State) : Out :=
  .next (s.gated (if s.fires.any (fun p => p.1 = f.route.val) && s.routeRec f.route then
    ({ s with fires := takePulses f.route (f.more.val + 1) [] s.fires } : State).fireRoute f.route false else s))

/-- A delivery reaches its consumer (R342, R237, R298, R320). -/
def State.arrive (s : State) (k : Nat) : State :=
  if k < 1024 then s.each (s.copies (k / 8)) (fun s t => s.modThr t (fun h => { h with evp := h.evp ||| BitVec.ofNat 8 (2 ^ (k % 8)) }))
  else if k < 1152 then s.sePend ((k - 1024) / 4) ((k - 1024) % 4)
  else if k < 1280 then
    let n := (k - 1152) / 2
    if k % 2 = 0 then s.modTmr n (fun t => { t with held := min 4 (t.held + 1) }) else s.modTmr n (fun t => { t with capIn := true })
  else s.rset rEvHattn 0

/-- Consumer `k` is an input of a shift engine that is held in reset or whose clock stands still: a delivery stays in the crossing until its clock runs
(R82, R95). -/
def State.heldInput (s : State) (k : Nat) : Bool :=
  decide (1024 ≤ k) && decide (k < 1152) && ((s.se ((k - 1024) / 4)).inRst || (s.se ((k - 1024) / 4)).stopped)

/-- EVENT_DELIVERY (R342): a delivery on its way to consumer `k` arrives. -/
def execEventDelivery (k : Fin 1281) (s : State) : Out :=
  .next (s.gated (if s.delivs.contains k.val && !s.heldInput k then ({ s with delivs := s.delivs.erase k.val } : State).arrive k else s))

/-- The inputs of a stand's own consumers at its Restore (R343): their views clear with their latches, and what is still in the
crossings meets a latch in reset. -/
def State.clearInputs (s : State) (n : Nat) : State :=
  let own (k : Nat) : Bool := decide (s.consumerStand k = some n)
  { s with delivs := s.delivs.filter (fun k => !own k), busyV := Bank.clear own s.busyV }

/-- SE_EVENT_IN (R298): an event reaches input `i` of an engine out of reset, a delivery on its way where there is one; the input's
view is set with the latch (R342). -/
def execSeEventIn (n : Fin 32) (i : Fin 4) (s : State) : Out :=
  .next (s.gated (
    let k := 1024 + 4 * n.val + i.val
    if s.seAssigned n && !(s.se n).inRst && !(s.se n).stopped then
      let t := (s.setView k (max 1 (s.view k))).sePend n i
      { t with delivs := t.delivs.erase k }
    else s))

/-- What the consumer still holds: a set latch in any copy, PEND, events not yet taken. -/
def State.consumerHolds (s : State) (k : Nat) : Nat :=
  if k < 1024 then b2n ((s.copies (k / 8)).any (fun t => (s.thr t).evp.getLsbD (k % 8)))
  else if k < 1152 then b2n (s.rbit (rSeEvt ((k - 1024) / 4)) ((k - 1024) % 4))
  else if k < 1280 then
    if k % 2 = 0 then (s.tmr ((k - 1152) / 2)).held else b2n (s.tmr ((k - 1152) / 2)).capIn
  else 0

/-- BUSY_VIEW_CLEAR (R342): the consumer's report; the view becomes what it still holds and what is still on its way. -/
def execBusyViewClear (k : Fin 1281) (s : State) : Out :=
  .next (s.gated (if k.val < 1280 then s.setView k (min (s.view k) (s.consumerHolds k + (s.delivs.filter (· == k.val)).length)) else s))

/-- A write to EV_FIRE (R345): refused in RUN and HALTED, with a wrong KEY and for a route with no record; a host write in
BOOT is answered NOTREADY and does nothing (R39). -/
def State.evFire (s : State) (m : Master) (key r : Nat) : State :=
  let fromHost := match m with
    | .host _ _ => true
    | _ => false
  let admitted := match m with
    | .host sec priv | .link sec priv => sec && priv
    | _ => true
  if (fromHost && decide (s.mode = .boot)) || !admitted then s
  else if s.mode = .run ∨ s.mode = .halted ∨ key ≠ 0x3E5F ∨ s.routeRec r = false then s.rset rEvNStat 0
  else (s.rset rEvNStat 1).fireRoute r true

/-- EV_FIRE (R345), in HALTED too (R29). -/
def execEvFire (m : Master) (key : BitVec 16) (r : Fin 256) (s : State) : Out := .next (s.evFire m key.toNat r)

/-- The route whose consumer is host attention. -/
def State.attnRoute (s : State) : Option Nat := firstOf 256 (fun r => s.routeRec r && decide (s.consumer r = some 1280))

/-- A master may write EVr_STAT (R344): a thread of the owner stand or of a manager, where the route has a record and so an owner;
the host or a link by the route's attributes; the debugger. -/
def State.routeWriter (s : State) (m : Master) (r : Nat) : Bool :=
  match m with
  | .thread t => s.routeRec r && s.managed t (s.routeStand r)
  | .host sec priv | .link sec priv => (!s.rbit (rEvCfg r) 24 || sec) && (!s.rbit (rEvCfg r) 25 || priv)
  | _ => true
/-- A master may write EV_HATTN (R344). -/
def State.attnWriter (s : State) (m : Master) : Bool :=
  match s.attnRoute with
  | some r => s.routeWriter m r
  | none =>
    match m with
    | .thread _ => false
    | .host sec priv | .link sec priv => sec && priv
    | _ => true

/-- A write to EVr_STAT or EV_HATTN (R344): a thread write that does not take effect sets WBAD. -/
def State.evStatWrite (s : State) (m : Master) (attn : Bool) (r : Nat) (v : Word) : State :=
  if (if attn then s.attnWriter m else s.routeWriter m r) then
    if attn then s.modReg rEvHattn (fun w => w &&& ~~~ (v &&& 1#32)) else s.modReg (rEvStat r) (fun w => w &&& ~~~ (v &&& 7#32))
  else
    match m with
    | .thread _ => s.rset rEvNStat 2
    | _ => s

/-- EV_STAT_WRITE (R344). -/
def execEvStatWrite (m : Master) (attn : Bool) (r : Fin 256) (v : Word) (s : State) : Out := .next (s.gated (s.evStatWrite m attn r v))

/-- The live word of a register of the EV unit (R342, R344). -/
def State.evRead (s : State) (a : Nat) : Word :=
  if a < 0x651000 then
    let r := (a - 0x650000) / 16
    if a = rEvStat r then
      putBit (putBit (s.reg a) 8 (match s.consumer r with
        | some k => if k = 1280 then s.rbit rEvHattn 0 else if isCount k then decide (4 ≤ s.view k) else decide (0 < s.view k)
        | none => false)) 9 (s.routeRec r && decide (s.standState (s.routeStand r) = 1))
    else s.reg a
  else if rEvFired 0 ≤ a ∧ a < rEvFired 8 then
    BitVec.ofNat 32 (maskOf 32 (fun j => s.rbit (rEvStat (8 * (a - rEvFired 0) + j)) 0))
  else if rEvDropped 0 ≤ a ∧ a < rEvDropped 8 then
    BitVec.ofNat 32 (maskOf 32 (fun j => s.rbit (rEvStat (8 * (a - rEvDropped 0) + j)) 1))
  else s.reg a

end Machine
end Sys2Proof
end

