-- ==== Sys2Proof/Machine/Commit.lean ====
section
/-! DEFINITION. What a record of the configuration image is in the registers and units of the block: the writes of image commit
(R136) and, from the restart copy, of the Restore step of a stand restart and of a thread restart (R98, R105). -/
namespace Sys2Proof
namespace Machine

/-! ### Threads (R140, R188, R98) -/

/-- A thread with the registers of its record: PC, tvec, g1 and tst; every other register is 0. -/
def freshThread (r : ThreadRec) (n : Nat) : Thread :=
  ({ pc := r.entry
     tvec := r.tvec
     tst := BitVec.ofNat 32 (r.cls * 2 ^ 8 + b2n r.twin * 2 ^ 10 + b2n (r.twin && decide (64 ≤ n)) * 2 ^ 11 +
       (r.stand % 16) * 2 ^ 16 + n * 2 ^ 24) } : Thread).wg 1 r.arg

/-- The record that gives thread `n` its values: its own, or its twin's (R140). -/
def Image.threadRec (im : Image) (n : Nat) : Option ThreadRec :=
  match im.threads.find? (fun r => decide (r.n = n)) with
  | some r => some r
  | none => im.threads.find? (fun r => decide (r.n + 64 = n) && r.twin)

/-- A thread written from the restart copy (R98, R105): port bindings stay (R253), abort-pending flags clear. `halt`: a debugger
halt stays, and is another halt from then on (R267). -/
def State.threadRestore (s : State) (t : Nat) (halt : Bool) : State :=
  match s.image with
  | none => s
  | some im =>
    match im.threadRec t with
    | none => s
    | some r =>
      ({ s with stamp := s.stamp + 1 } : State).modThr t (fun h =>
        { freshThread r t with
          ports := h.ports.map (fun p => (p.1, { p.2 with abortp := false }))
          released := h.released
          halted := halt && h.halted
          haltTag := if halt && h.halted then s.stamp + 1 else 0 })

/-! ### Shift engines (R140, R303) -/

/-- The registers of a shift engine that its record sets, and the state of R303 beside them. -/
def State.seRestore (s : State) (r : SeRec) : State :=
  let n := r.n
  let s1 := (((s.setReg (rSeCtl n) (clrBit r.ctl 31)).setReg (rSeClk n) r.clk).setReg (rSeGrp n)
    (BitVec.ofNat 32 (r.base + r.count * 2 ^ 8 + r.stand * 2 ^ 16 + 2 ^ 20 + r.startPc * 2 ^ 24)))
  let s2 := ((((s1.setReg (rSeThr n) r.thr).setReg (rSeSide n) r.side).setReg (rSeDwell n) r.dwell).setReg (rSePat n) r.pat)
  let s3 := ((((s2.setReg (rSeLrld n 0) r.l0).setReg (rSeLrld n 1) r.l1).setReg (rSeL n 0) r.l0).setReg (rSeL n 1) r.l1)
  let s4 := (((s3.setReg (rSePc n) (BitVec.ofNat 32 r.startPc)).setReg (rSeTsr n) 0#32).setReg (rSeRsr n) 0#32).setReg (rSeLastW n) 0#32
  let s5 := ((((s4.setReg (rSeCnt n) 32#32).setReg (rSeEvt n) 0#32).setReg (rSeStat n) (s.reg (rSeStat n) &&& 0x2000#32)).setReg
    (rSeQcnt n) 0#32).setReg (rSeOstall n) 0#32
  let s6 := (List.range 32).foldl (fun (s : State) i => s.setReg (rSeProg n i) (BitVec.ofNat 32 (r.prog.getD i 0))) s5
  s6.modSe n (fun e => { stopped := e.stopped, inRst := e.inRst })

/-- The engine that calibrates a field pin (R304): the lowest-numbered one whose group holds it and whose CALSPAN is not 0. -/
def State.calOwner (s : State) (p : Nat) : Option Nat :=
  firstOf 32 (fun n => s.seAssigned n && decide (0 < s.rfld (rSeCal n) 0 7) && decide (s.seBase n ≤ p) && decide (p < s.seBase n + s.sePins n))

/-- The tap registers of an engine's pins at the start tap (R142, R304). -/
def State.setTaps (s : State) (n : Nat) : State :=
  (List.range (s.sePins n)).foldl (fun (s : State) i =>
    let p := s.seBase n + i
    let start := Config.startTap p
    let span := s.rfld (rSeCal n) 0 7
    let own := decide (s.calOwner p = some n)
    let lo := if own then start - span / 2 else start
    let hi := if own then min 63 (lo + span) else start
    s.setReg (rSeTap n i) (BitVec.ofNat 32 (start + start * 2 ^ 8 + lo * 2 ^ 16 + hi * 2 ^ 24 + b2n own * 2 ^ 30))) s

/-- A shift engine committed: its registers and its calibrator settings. -/
def State.seCommit (s : State) (r : SeRec) : State :=
  (s.seRestore r).setReg (rSeCal r.n) (BitVec.ofNat 32 (r.span + r.minUi * 2 ^ 16))

/-! ### Timers and routes (R311, R327, R337, R343) -/

/-- A timer written from its record: CTL, PHASE and CMP; CAP and STAT 0, held events discarded (R327). -/
def State.tmRestore (s : State) (r : TimerRec) : State :=
  let n := r.n
  let s1 := ((((s.setReg (rTmCtl n) (r.ctl &&& 0xFFFF000F#32)).setReg (rTmPhase n) r.phase).setReg (rTmCmp n) r.cmp).setReg (rTmCap n) 0#32).setReg
    (rTmStat n) 0#32
  s1.modTmr n (fun _ => { hasRec := true, stand := r.stand })

/-- EVn_CFG of a record (R337, R344); in compatibility mode the candidate enables are 0 (R339). -/
def State.evCommit (s : State) (r : RouteRec) : State :=
  s.setReg (rEvCfg r.n) (BitVec.ofNat 32 (r.en.toNat % 2 ^ 16 + r.stand * 2 ^ 16 + 2 ^ 20 + (r.attr % 4) * 2 ^ 24))

/-- A route at Restore (R343): FIRED, DROPF and SUPPF clear, and the busy view of its consumer unless that is host attention. -/
def State.evRestore (s : State) (r : Nat) : State :=
  let s1 := s.modReg (rEvStat r) (fun w => w &&& ~~~ 7#32)
  match s1.consumer r with
  | some k => if k = 1280 then s1 else s1.setView k 0
  | none => s1

/-! ### Channels (R247, R251–R254) -/

/-- A service endpoint resolved to the thread port of its service (R254, R410). -/
def Image.resolve (im : Image) (ep : Word) : Word :=
  if epKind ep ≠ 5 then ep
  else match im.svcs.find? (fun r => decide (r.n = epUnit ep)) with
    | none => ep
    | some r =>
      match (svEndpoints r.type).find? (fun e => decide (e.ep = epSub ep)) with
      | none => ep
      | some e => epWord 1 (r.thr.getD e.role 0) e.port

/-- A thread port bound to its channel (R253). -/
def State.bindPort (s : State) (ep : Word) (recv : Bool) (c : Nat) : State :=
  if epKind ep = 1 then s.modThr (epUnit ep) (fun h => h.setPort (epSub ep % 8) { bound := true, recv := recv, ch := c }) else s

/-- A channel committed at BASE. A half of a link pair has no grant yet (R263); a half of a broadcast never has one and needs none (R460),
so it does not show LNKDN (DESIGN CHOICE, notes/assumptions/62.md). -/
def State.chanCommit (s : State) (im : Image) (base : Nat) (r : ChanRec) : State :=
  let a := im.resolve r.send
  let b := im.resolve r.recv
  let bound := decide (epKind a ≠ 0) || decide (epKind b ≠ 0)
  let link := decide (epKind a = 4) || decide (epKind b = 4)
  let s1 := s.setReg (rMcCfg r.n) (BitVec.ofNat 32 (base + r.words * 2 ^ 16 +
    (if r.stand < 16 then r.stand * 2 ^ 24 + 2 ^ 28 else 0) + b2n link * 2 ^ 29 + b2n bound * 2 ^ 31))
  let far (ep : Word) : Bool := decide (epKind ep = 4) && decide (s1.epNode ep ≠ 0xFFFFFFFF#32)
  ((s1.setChan r.n { hasRec := true, sendEp := a, recvEp := b, lnkdn := far a || far b }).bindPort a false r.n).bindPort b true r.n

/-- Every channel committed, in ascending order of its number (R247). -/
def State.chansCommit (s : State) (im : Image) : Nat → List ChanRec → State
  | _, [] => s
  | base, r :: l => (s.chanCommit im base r).chansCommit im (base + r.words) l

/-! ### Pins and zones (R125, R390, R399) -/

/-- PG_Zz_LIM, VZONE and QBUDGET from words 0 to 2 of a zone record (R125). -/
def State.zoneSet (s : State) (z : Nat) (r : ZoneRec) (locked : Bool) : State :=
  (((s.setReg (rPgZLim z) ((r.w0 &&& 0xFF0D#32) ||| BitVec.ofNat 32 (b2n locked * 2 ^ 16))).setReg (rPgZVzone z) (r.vzone &&& 0xFFFF#32)).setReg
    (rPgZQbudget z) r.budget)

/-- The zone record that OTP holds, and whether it is locked (R125). -/
def State.zoneOtp (s : State) (z : Nat) : ZoneRec × Bool :=
  let w (k : Nat) : Word := s.reg (rOtpMirror (0x128 + 4 * z + k))
  ({ w0 := w 0, vzone := w 1, budget := w 2 }, (w 3).getLsbD 0 || (w 3).getLsbD 1)

/-- PGn_CFG of a pin record (R399). -/
def State.pinCommit (s : State) (r : PinRec) : State :=
  s.setReg (rPgCfg r.n) (BitVec.ofNat 32 (r.zone + (if r.stand < 16 then r.stand * 2 ^ 8 + 2 ^ 12 else 0) + r.cload * 2 ^ 16))

/-! ### Services (R407, R436) -/

/-- The image with what the loader writes for the services (R407): ENTRY and TVEC of the listed threads and the program and settings
of the listed shift engines come from the ROM, whose content the spec does not give: free values (notes/assumptions/5.md). -/
def svcThread (im : Image) (k : Nat) (r : ThreadRec) : ThreadRec :=
  match im.svcs.find? (fun v => v.thr.contains r.n) with
  | none => r
  | some v => { r with
      entry := (Config.freeWord (k + 2 * r.n)).setWidth 24
      tvec := (Config.freeWord (k + 2 * r.n + 1)).setWidth 24
      arg := BitVec.ofNat 32 (v.n + (if v.thr.getD 0 128 = r.n then 0 else 256)) }
/-- See `svcThread`. -/
def svcEngine (im : Image) (k : Nat) (r : SeRec) : SeRec :=
  if im.svcs.any (fun v => v.se.contains r.n) then
    let f (j : Nat) : Word := Config.freeWord (k + 256 + 64 * r.n + j)
    { r with ctl := f 0, thr := f 1 &&& 0x3F3F3F#32, side := f 2, dwell := f 3, pat := f 4, l0 := f 5, l1 := f 6, startPc := (f 7).toNat % 32,
             prog := (List.range 32).map (fun i => (f (8 + i)).toNat % 65536) }
  else r
/-- See `svcThread`. -/
def Image.withRom (im : Image) (k : Nat) : Image :=
  { im with threads := im.threads.map (svcThread im k), ses := im.ses.map (svcEngine im k) }

/-- SVi_CFG and SVi_WS of a record. -/
def State.svCommit (s : State) (r : SvcRec) : State :=
  (s.setReg (rSvCfg r.n) (BitVec.ofNat 32 (r.type + r.stand * 2 ^ 8 + 2 ^ 15 + r.thr.length * 2 ^ 16 + r.se.length * 2 ^ 18 + r.ch.length * 2 ^ 20))).setReg
    (rSvWs r.n) (BitVec.ofNat 32 (r.ws % 2 ^ 24))

/-! ### Links, policy, engines -/

/-- LKn_CFG and LKn_RATE of a record (R140). -/
def State.lkCommit (s : State) (r : LinkRec) : State :=
  (s.setReg (rLkCfg r.n) (BitVec.ofNat 32 (r.mode + b2n r.gcm * 2 ^ 4 + r.slot * 2 ^ 8 + r.retx * 2 ^ 16))).setReg (rLkRate r.n) r.rate

/-- ALRESP of ALARM[k] in the active generation (R119). -/
def State.alResp (s : State) (k : Nat) : Nat := fld (s.genWord 8) (4 * k) 4

/-- SEC_RESPs as the end of P1 leaves it (R505): an alarm input takes its nibble of ALRESP, an internal source 0. -/
def State.p1Resp (s : State) (src : Nat) : State :=
  let al := if src < 8 then s.alResp src else 0
  s.setReg (rSecResp src) (BitVec.ofNat 32 (al + (if al / 4 % 2 = 1 then 0xFFFF0000 else 0)))
/-- A response that an earlier image set goes back to what P1 gave it (R505). -/
def State.polClear (s : State) : State := s.each (members 16 (fun k => s.rbit (rSecResp k) 4)) State.p1Resp

/-- SEC_RESPs of a security policy record (R505): for an alarm input at LK1 and LK2 it adds to ALRESP and removes nothing. -/
def State.polCommit (s : State) (p : Nat × Nat × Nat) : State :=
  let ored := decide (p.1 < 8) && decide (0 < s.rfld rBcMode 10 3)
  let al := if ored then s.alResp p.1 else 0
  let stands := if al / 4 % 2 = 1 then 0xFFFF else p.2.2
  s.setReg (rSecResp p.1) (BitVec.ofNat 32 ((p.2.1 ||| al) % 16 + 2 ^ 4 + stands * 2 ^ 16))

/-- En_CFG (R141). -/
def State.engCommit (s : State) (im : Image) (e : Nat) : State :=
  s.setReg (rECfg e) (match im.engines.find? (fun r => decide (r.1 = e)) with
    | some r => BitVec.ofNat 32 (r.2.1 + r.2.2 * 2 ^ 16)
    | none => 0x00400009#32)

/-- En_CLASS and En_TWIN from the threads of the engine (R153). -/
def State.engClass (s : State) (e : Nat) : State :=
  let cl (k : Nat) : Nat := fld (s.thr (16 * e + k)).tst 8 2
  (s.setReg (rEClass e) (BitVec.ofNat 32 ((List.range 16).map (fun k => cl k * 4 ^ k)).sum)).setReg (rETwin e)
    (BitVec.ofNat 32 (maskOf 16 (fun k => (s.thr (16 * e + k)).twin)))

/-- The stand owns a resource (R17, R20). -/
def Image.owns (im : Image) (n : Nat) : Bool :=
  im.threads.any (fun r => decide (r.cls ≠ 0) && decide (r.stand = n)) || im.ses.any (fun r => decide (r.stand = n)) ||
  im.timers.any (fun r => decide (r.stand = n)) || im.routes.any (fun r => decide (r.stand = n)) ||
  im.chans.any (fun r => decide (r.stand = n)) || im.pins.any (fun r => decide (r.stand = n))

/-! ### Image commit (R136) -/

/-- Registers whose address satisfies `p` at their reset values. -/
def State.clearRegs (s : State) (p : Nat → Bool) : State := { s with regs := Bank.clear p s.regs }

/-- The units that an image configures, at their reset values before commit: STC but for its configuration time base, engines,
channels, shift engines, timers, routes and services; the retire table, SP_SPAREBAD and the windows, which acceptance of an image
clears (R377). -/
def unitRegs (a : Nat) : Bool :=
  (decide (0x601000 ≤ a) && decide (a < 0x601800)) || (decide (0x610000 ≤ a) && decide (a < 0x640000)) ||
  (decide (0x640100 ≤ a) && decide (a < 0x641100)) || (decide (0x650000 ≤ a) && decide (a < 0x660000)) ||
  (decide (0x660048 ≤ a) && decide (a < 0x660050)) || (decide (0x660100 ≤ a) && decide (a < 0x660280)) ||
  (decide (0x6D0000 ≤ a) && decide (a < 0x6D0800))

/-- Every setting of an image written to the units, and the restart copy made (R136, R141, R407). -/
def State.commitImage (s : State) (im0 : Image) : State :=
  let im := im0.withRom s.draws
  let s1 : State := { (s.clearRegs unitRegs) with
    threads := [], chans := [], tmrs := [], ses := [], cals := [], svcs := [], fires := [], delivs := [], busyV := [], stands := []
    draws := s.draws + 4096, image := some im }
  let s2 := im.stands.foldl (fun (s : State) r => s.setReg (rStcCfg r.1) (r.2 &&& 0xFFFFF73F#32)) s1
  let s3 := im.threads.foldl (fun (s : State) r =>
    let s1 := s.setThr r.n (freshThread r r.n)
    if r.twin then s1.setThr (r.n + 64) (freshThread r (r.n + 64)) else s1) s2
  let s4 := (List.range 8).foldl (fun (s : State) e => (s.engCommit im e).engClass e) s3
  let s5 := (s4.chansCommit im 0 im.chans).setReg rMcPool (BitVec.ofNat 32 (im.chans.map (·.words)).sum)
  let s6 := im.ses.foldl State.seCommit s5
  let s7 := im.timers.foldl State.tmRestore s6
  let s8 := (im.routes.foldl State.evCommit s7).rput rEvCtl 0 im.compat
  let s9 := if im.compat then (List.range 2048).foldl (fun (s : State) w => s.setReg (rEvMat w) (im.matrix.getD w 0#32)) s8 else s8
  let s10 := (List.range 8).foldl (fun (s : State) z =>
    let o := s.zoneOtp z
    if o.2 then s else s.zoneSet z (im.zones.getD z {}) false) s9
  let s11 := im.pins.foldl State.pinCommit ((List.range 192).foldl (fun (s : State) n => s.setReg (rPgCfg n) 0#32) s10)
  let s12 := (s11.rsetFld rSpCfg 16 7 im.spare).setReg rSpLapAlarm im.lapAlarm
  let s13 := im.svcs.foldl State.svCommit s12
  let s14 := (List.range 4).foldl (fun (s : State) n =>
    match im.links.find? (fun r => decide (r.n = n)) with
    | some r => s.lkCommit r
    | none => (s.setReg (rLkCfg n) 0#32).setReg (rLkRate n) 0#32) ({ s13 with links := [] } : State)
  let s15 := s14.setReg rLkRoute (BitVec.ofNat 32 (im.nodes.length + im.defLink * 2 ^ 16 + b2n (decide (im.defLink = 255)) * 2 ^ 24))
  let s16 := match im.recd with
    | some r => s15.setReg rErCfg (BitVec.ofNat 32 ((if r.1 = 0 then 60 else r.1) + r.2 * 2 ^ 16))
    | none => s15.setReg rErCfg 60#32
  let s17 := im.policy.foldl State.polCommit s16.polClear
  let s18 := (s17.setReg rBcImgVer im.version).setReg rBcImgInfo (BitVec.ofNat 32 (im.epoch + im.cfgMask * 2 ^ 8 + im.source * 2 ^ 16))
  (s18.setReg rBcImgLen (BitVec.ofNat 32 im.length)).rput rBcMode 16 im.compat

end Machine
end Sys2Proof
end

