-- ==== Sys2Proof/Machine/Pins.lean ====
section
/-! DEFINITION. Field pins, the energy governor, fail-safe and surges (R386–R402). -/
namespace Sys2Proof
namespace Machine

/-! ### Pins and zones -/

/-- Pin `n` beside its registers. -/
def State.pin (s : State) (n : Nat) : Pin := Bank.get (fun _ => ({} : Pin)) s.pins n
/-- Pin `n` changed. -/
def State.modPin (s : State) (n : Nat) (f : Pin → Pin) : State :=
  { s with pins := Bank.put (fun _ => ({} : Pin)) s.pins n (f (s.pin n)) }
/-- Zone `z` beside its registers. -/
def State.zone (s : State) (z : Nat) : Zone := Bank.get (fun _ => ({} : Zone)) s.zones z
/-- Zone `z` changed. -/
def State.modZone (s : State) (z : Nat) (f : Zone → Zone) : State :=
  { s with zones := Bank.put (fun _ => ({} : Zone)) s.zones z (f (s.zone z)) }

/-- PGn_CFG.ZONE. -/
def State.pinZone (s : State) (n : Nat) : Nat := s.rfld (rPgCfg n) 0 3
/-- A stand owns the pin: PGn_CFG.OWNED; in BOOT and RECOVERY no stand owns a pin (R399). -/
def State.pinOwned (s : State) (n : Nat) : Bool := s.rbit (rPgCfg n) 12 && (decide (s.mode = .run) || decide (s.mode = .halted))
/-- PGn_CFG.STAND. -/
def State.pinStand (s : State) (n : Nat) : Nat := s.rfld (rPgCfg n) 8 4
/-- The charge of one transition of a pin: CLOAD × VZONE, in fC (R392). -/
def State.pinCharge (s : State) (n : Nat) : Nat := s.rfld (rPgCfg n) 16 16 * s.rfld (rPgZVzone (s.pinZone n)) 0 16
/-- QBUDGET of a zone in fC. -/
def State.budget (s : State) (z : Nat) : Nat := (s.reg (rPgZQbudget z)).toNat * 1000

/-- The zone's fail-safe state is low: with differing shadow copies only where both say so (R399, R499 group 5). -/
def State.zoneLow (s : State) (z : Nat) : Bool := s.rbit (rPgZLim z) 0 && !s.shBad 5 z
/-- A pin that no stand owns is forced to high impedance in RUN and HALTED (R399). -/
def State.forcedOff (s : State) (n : Nat) : Bool :=
  (decide (s.mode = .run) || decide (s.mode = .halted)) && !s.pinOwned n
/-- PAD_OE of a pin (R46, R386). -/
def State.padOe (s : State) (n : Nat) : Bool :=
  if (s.pin n).fs then s.zoneLow (s.pinZone n) && !s.forcedOff n else (s.pin n).applied.getLsbD 0
/-- PAD_DO of a pin (R46, R386). -/
def State.padDo (s : State) (n : Nat) : Bool := if (s.pin n).fs then false else (s.pin n).applied.getLsbD 1
/-- PAD_PU of a pin (R46). -/
def State.padPu (s : State) (n : Nat) : Bool := if (s.pin n).fs then false else (s.pin n).applied.getLsbD 4
/-- PAD_PD of a pin (R46). -/
def State.padPd (s : State) (n : Nat) : Bool := if (s.pin n).fs then false else (s.pin n).applied.getLsbD 5

/-- PAD_DRV of a pin (R46, R386): in fail-safe unchanged, but 0 for low from the next FCLK edge on. -/
def State.padDrv (s : State) (n : Nat) : Nat :=
  let p := s.pin n
  if !p.fs then fld p.applied 2 2
  else if s.zoneLow (s.pinZone n) && !s.forcedOff n && !(p.drvHeld && decide (s.mode = .halted)) then 0 else p.drv.toNat

/-- Driven pins of a zone, fail-safe low included (PG_Zz_NDRV). -/
def State.ndrv (s : State) (z : Nat) : Nat := (members 192 (fun n => decide (s.pinZone n = z) && s.padOe n)).length

/-- A change of (OE, DO) is a transition (R392). -/
def transition (oe d oe' d' : Bool) : Bool := (oe != oe') || (oe && oe' && (d != d'))

/-! ### Exempt changes: fail-safe and initial states (R397–R400) -/

/-- A transition charged without judging; OVER where the budget is passed (R397). -/
def State.chargeExempt (s : State) (z q : Nat) : State :=
  let s1 := s.modZone z (fun k => { k with qacc := k.qacc + q })
  if s1.budget z < (s1.zone z).qacc then
    let s2 := s1.rset (rPgZStat z) 4
    if (s2.zone z).spent then s2 else (s2.modZone z (fun k => { k with spent := true })).recBin 0x09 0x03 0 z 2
  else s1

/-- A pin's state changed without judging, charged where its outputs make a transition: at the first FCLK edge, so in a freeze after
the resume (R400). -/
def State.exempt (s : State) (n : Nat) (f : Pin → Pin) : State :=
  let s1 := s.modPin n f
  if transition (s.padOe n) (s.padDo n) (s1.padOe n) (s1.padDo n) then
    (if s.mode = .halted then s1.modPin n (fun p => { p with owed := true }) else s1.chargeExempt (s.pinZone n) (s.pinCharge n))
  else s1
/-- The charges that waited for FCLK (R400). -/
def State.chargeOwed (s : State) : State :=
  s.each (members 192 (fun n => (s.pin n).owed)) (fun s n =>
    (s.modPin n (fun p => { p with owed := false })).chargeExempt (s.pinZone n) (s.pinCharge n))

/-- The fail-safe latch of a pin set (R398); PAD_DRV keeps its class for now (R46). -/
def State.pinFs (s : State) (n : Nat) : State :=
  s.exempt n (fun p => { p with fs := true, drv := BitVec.ofNat 2 (s.padDrv n), drvHeld := decide (s.mode = .halted) })
/-- Every pin to its fail-safe state (R398). -/
def State.allFs (s : State) : State := s.each (List.range 192) State.pinFs
/-- The pins of a stand to their fail-safe state (R105, R398). -/
def State.standFs (s : State) (st : Nat) : State :=
  s.each (members 192 (fun n => s.pinOwned n && decide (s.pinStand n = st))) State.pinFs

/-- INIT of a pin as PGn_OUT holds it (R140): the five fields lie at the same bits. -/
def State.pinInit (s : State) (n : Nat) : Word :=
  match s.image with
  | some im =>
    match im.pins.find? (fun r => r.n = n) with
    | some r => BitVec.ofNat 32 (r.init % 64)
    | none => 0#32
  | none => 0#32

/-- A pin released: its latch is cleared and INIT applies, charged without judging (R386, R397, R398). -/
def State.pinRelease (s : State) (n : Nat) : State :=
  let v := s.pinInit n
  (s.setReg (rPgOut n) v).exempt n (fun p => { p with fs := false, applied := v, pend := none })

/-! ### The governor (R388, R394–R396) -/

/-- One pin's part of a change: the pin and the state it would have applied. -/
abbrev PinPart := Nat × Word

/-- What a judgement has gathered: the state with the parts taken so far, the charge added to zones, and the refused parts
with the bit of the flag (9 DRVREF, 10 SIMREF). -/
structure Judged where
  s : State
  charge : List (Nat × Nat) := []
  refused : List (Nat × Nat) := []
  deriving DecidableEq, Repr

/-- Charge added to a zone. -/
def addCharge (l : List (Nat × Nat)) (z q : Nat) : List (Nat × Nat) :=
  Bank.put (fun _ => 0) l z (Bank.get (fun _ => 0) l z + q)

/-- One part judged under R395 and R400, after the parts before it: a pin in fail-safe takes nothing; a register write's DRV
above MAXDRV refuses its whole part; a rise of OE above MAXSIM refuses its OE and DO. -/
def judgePart (isReg : Bool) (j : Judged) (p : PinPart) : Judged :=
  let n := p.1
  let z := j.s.pinZone n
  let old := (j.s.pin n).applied
  if (j.s.pin n).fs then j
  else if isReg && decide (j.s.rfld (rPgZLim z) 2 2 < fld p.2 2 2) then { j with refused := j.refused ++ [(n, 9)] }
  else
    let sim := p.2.getLsbD 0 && !old.getLsbD 0 && decide (j.s.rfld (rPgZLim z) 8 8 < j.s.ndrv z + 1)
    let new := if sim then (p.2 &&& ~~~ 3#32) ||| (old &&& 3#32) else p.2
    let q := if transition (old.getLsbD 0) (old.getLsbD 1) (new.getLsbD 0) (new.getLsbD 1) then j.s.pinCharge n else 0
    { s := j.s.modPin n (fun k => { k with applied := new }), charge := addCharge j.charge z q,
      refused := if sim then j.refused ++ [(n, 10)] else j.refused }

/-- The verdict on a change: refused whole, delayed by some zones, or applied with its refused parts. -/
inductive Verdict where
  | refuse
  | delay (zones : List Nat)
  | apply (s : State) (refused : List (Nat × Nat))

/-- The change judged (R394–R396); a zone with a shadow mismatch refuses it (R499, group 5). -/
def State.judge (s : State) (isReg : Bool) (parts : List PinPart) : Verdict :=
  let j := parts.foldl (judgePart isReg) { s := s }
  if parts.any (fun p => s.shBad 5 (s.pinZone p.1) && !(s.pin p.1).fs) then .refuse
  else if j.charge.any (fun p => decide (s.budget p.1 < p.2)) then .refuse
  else
    let spentZ := (j.charge.filter (fun p => decide (s.budget p.1 < (s.zone p.1).qacc + p.2))).map Prod.fst
    if spentZ.isEmpty then
      .apply (j.charge.foldl (fun s p => s.modZone p.1 (fun k => { k with qacc := k.qacc + p.2 })) j.s) j.refused
    else .delay spentZ

/-- A refusal's flags, recorder update and pulse on Q264 (R395, R396, R402): bit 9 DRVREF, 10 SIMREF, 11 QREF. -/
def State.refuseFlag (s : State) (n bit : Nat) : State :=
  let z := s.pinZone n
  (((s.rset (rPgStatN n) bit).rset (rPgZStat z) (bit - 8)).recBin 0x09 0x04 z (bit - 9) 2)
where
  /-- PGn_STAT. -/
  rPgStatN (n : Nat) : Nat := rPgPinStat n

/-- Refused parts flagged; one pulse where there is any. -/
def State.flagAll (s : State) (l : List (Nat × Nat)) : State :=
  if l.isEmpty then s else (l.foldl (fun s p => s.refuseFlag p.1 p.2) s).pulse 264

/-- A register write judged (R394–R396): applied, held in the pending latch, or discarded. -/
def State.govWrite (s : State) (n : Nat) (v : Word) : State :=
  match s.judge true [(n, v)] with
  | .apply s1 r => (s1.modPin n (fun k => { k with pend := none })).flagAll r
  | .refuse => (s.modPin n (fun k => { k with pend := none })).flagAll [(n, 11)]
  | .delay zs =>
    ((zs.foldl (fun s z => s.rset (rPgZStat z) 0) s).modPin n (fun k => { k with pend := some v })).pulse 264

/-- A pin of the zone holds a register write (R394). -/
def State.zoneHeld (s : State) (z : Nat) : Bool := (List.range 192).any (fun n => decide (s.pinZone n = z) && (s.pin n).pend.isSome)

/-- A write to PGn_OUT admitted (R386, R394, R400): the register takes it; the pad does unless the pin is in fail-safe. -/
def State.pinWrite (s : State) (n : Nat) (v : Word) : State :=
  let w := v &&& 0x3F#32
  let s1 := s.setReg (rPgOut n) w
  if (s.pin n).fs then s1
  else if s.zoneHeld (s.pinZone n) then s1.modPin n (fun k => { k with pend := some w })
  else s1.govWrite n w

/-- Who may write PGn_OUT (R387). -/
def State.pinWriter (s : State) (m : Master) (n : Nat) : Bool :=
  s.pinOwned n &&
  match m with
  | .thread t => s.managed t (s.pinStand n)
  | .host sec priv | .link sec priv => s.standAdmits (s.pinStand n) sec priv
  | _ => true

/-- A write to PGn_OUT (R387): a thread write that fails the check sets WBAD. -/
def State.pgOutWrite (s : State) (m : Master) (n : Nat) (v : Word) : State :=
  if s.pinWriter m n then s.pinWrite n v
  else match m with
    | .thread _ => s.rset rPgStat 0
    | _ => s

/-- PGN_OUT_WRITE (R387). -/
def execPgnOutWrite (m : Master) (n : Fin 192) (v : Word) (s : State) : Out := .next (s.gated (s.pgOutWrite m n v))

/-! ### Shift-engine records (R279–R283, R386, R396) -/

/-- The pins of a record with the state each would have applied: OE and DO only. -/
def State.recParts (s : State) (n : Nat) (r : LaneRec) : List PinPart :=
  (List.range (s.sePins n)).filterMap (fun i =>
    if r.lvMask.getLsbD i || r.oeMask.getLsbD i then
      let p := s.seBase n + i
      let old := (s.pin p).applied
      let a := if r.oeMask.getLsbD i then putBit old 0 (r.oe.getLsbD i) else old
      some (p, if r.lvMask.getLsbD i then putBit a 1 (r.lv.getLsbD i) else a)
    else none)

/-- An applied record's OE and DO values in PGn_OUT (R386). -/
def State.recOut (s : State) (n : Nat) (r : LaneRec) : State :=
  s.each (List.range (s.sePins n)) (fun s i =>
    let p := s.seBase n + i
    let s1 := if r.oeMask.getLsbD i then s.rput (rPgOut p) 0 (r.oe.getLsbD i) else s
    if r.lvMask.getLsbD i then s1.rput (rPgOut p) 1 (r.lv.getLsbD i) else s1)

/-- The event pulses of a record (R298, R336). -/
def State.recPulses (s : State) (n : Nat) (r : LaneRec) : State :=
  s.each (members 4 (fun k => r.ev.getLsbD k)) (fun s k => s.pulse (4 * n + k))

/-- The pins of a list that a refused record did not change keep what PGn_OUT showed. -/
def State.keepOut (s old : State) (l : List (Nat × Nat)) : State := l.foldl (fun s p => s.setReg (rPgOut p.1) (old.reg (rPgOut p.1))) s

/-- LANE_RECORD_APPLY (R280, R281, R388, R396): the head record of an engine's lane is judged. -/
def execLaneRecordApply (n : Fin 32) (s : State) : Out :=
  .next (match (s.se n).lane with
    | [] => s
    | r :: rest =>
      if s.mode ≠ .run then s
      else
        let parts := s.recParts n r
        let pop (s : State) : State := s.modSe n (fun e => { e with lane := rest })
        match s.judge false parts with
        | .apply s1 ref => ((((pop s1).recOut n r).keepOut s ref).recPulses n r).flagAll ref
        | .refuse => ((pop s).recPulses n r).flagAll ((parts.filter (fun p => !(s.pin p.1).fs)).map (fun p => (p.1, 11)))
        | .delay zs => ((zs.foldl (fun s z => s.rset (rPgZStat z) 0) s).rset (rSeStat n) 12).pulse 264)

/-! ### Windows (R393) -/

/-- A charge in pC as a register shows it: rounded down, saturating. -/
def showPc (q : Nat) : Word := BitVec.ofNat 32 (min (2 ^ 32 - 1) (q / 1000))

/-- GOVERNOR_WINDOW_START (R393, R388): QLAST, QMAX and QACC of every zone; then delayed register writes in rising pin
number. -/
def execGovernorWindowStart (s : State) : Out :=
  .next (if s.mode = .run then
    let s1 := s.each (List.range 8) (fun s z =>
      let q := showPc (s.zone z).qacc
      let s1 := s.setReg (rPgZQlast z) q
      let s2 := if (s1.reg (rPgZQmax z)).toNat < q.toNat then s1.setReg (rPgZQmax z) q else s1
      s2.modZone z (fun k => { k with qacc := 0, spent := false }))
    s1.each (members 192 (fun n => (s1.pin n).pend.isSome)) (fun s n =>
      match (s.pin n).pend with
      | some v => s.govWrite n v
      | none => s)
  else s)

/-! ### Clamps and surges (R50, R401, R402) -/

/-- A clamp latch sampled set, the sample before it clear (R401): the flag, a pulse on Q265, the count; the zone's surge takes
the pin (R402). -/
def State.sampleClamp (s : State) (n : Nat) : State :=
  let s1 := ((s.modPin n (fun p => { p with clamp := false })).rset (rPgPinStat n) 8).rcount (rPgPinStat n) 16 16 1
  (s1.modZone (s.pinZone n) (fun k => if k.surge.contains n then k else { k with surge := k.surge ++ [n] })).pulse 265

/-- PAD_CLAMP_PULSE (R50, R401): the latch is set, clockless; FCLK, where it runs, samples and clears it. -/
def execPadClampPulse (n : Fin 192) (s : State) : Out :=
  .next (if s.mode = .halted then s.modPin n (fun p => { p with clamp := true }) else s.sampleClamp n)

/-- Clamp latches set while FCLK was gated, sampled after a resume. -/
def State.sampleHeldClamps (s : State) : State := s.each (members 192 (fun n => (s.pin n).clamp)) State.sampleClamp

/-- SURGE_END (R402). -/
def execSurgeEnd (z : Fin 8) (us : Nat) (s : State) : Out :=
  .next (s.gated (if (s.zone z).surge.isEmpty then s
    else ((s.modZone z (fun k => { k with surge := [] })).recBin 0x09 0x01 z (min 15 ((s.zone z).surge.length - 1)) 1).recVal
      0x09 0x02 z us 0))

/-! ### Observations and moves of the calibrators (R305, R306) -/

/-- CAL_OBSERVATION (R305): one that finds the crossing full is dropped and counted; a pin this engine does not calibrate, one that
drives, and an engine in reset give none (R304), and the tap seen is one of the 64. -/
def execCalObservation (n i : Fin 32) (d : Int) (full : Bool) (s : State) : Out :=
  .next (s.gated (
    let k := (s.rfld (rSeTap n i) 0 6 : Int) + d
    if !s.rbit (rSeTap n i) 30 || decide (d < -32) || decide (31 < d) || decide (k < 0) || decide (63 < k) ||
      s.padOe (s.seBase n + i) || !s.seLive n then s
    else if full then s.rcount (rSeCalCnt n) 16 16 1
    else
      let c := s.cal n i
      let b := ((d + 32) / 4).toNat
      let c := { c with
        wlo := if d < 0 then c.wlo + (32 + d).toNat else c.wlo
        whi := if d < 0 then c.whi else c.whi + (32 - d).toNat
        n := c.n + 1
        hist := Bank.put (fun _ => 0) c.hist b (Bank.get (fun _ => 0) c.hist b + 1) }
      if c.n < 256 then s.setCal n i c else s.calDecide n i c))

/-- The tap of field pin `p` moved: every engine whose group holds the pin shows it (R304, R306). -/
def State.tapMoved (s : State) (p tap : Nat) : State :=
  s.each (members 32 (fun m => s.seAssigned m && decide (s.seBase m ≤ p) && decide (p < s.seBase m + s.sePins m))) (fun s m =>
    s.rsetFld (rSeTap m (p - s.seBase m)) 0 6 tap)

/-- TAP_MOVE_APPLY (R306): at an edge of SEK, so of an engine out of reset. -/
def execTapMoveApply (n i : Fin 32) (s : State) : Out :=
  .next (s.gated (match (s.cal n i).move with
    | none => s
    | some t =>
      if !s.seLive n then s
      else ((s.setCal n i { s.cal n i with move := none }).tapMoved (s.seBase n + i) t).rcount (rSeCalCnt n) 0 16 1))

/-! ### Registers of the unit -/

/-- The live word of a PG register. -/
def State.pgRead (s : State) (a : Nat) : Word :=
  if a < rPgCfg 0 then
    let n := (a - rPgOut 0) / 8
    if a = rPgPinStat n then
      putBit (putBit (putBit (putBit (putBit (s.reg a) 0 (Bank.get (fun _ => false) s.pads n)) 1 (s.padOe n)) 2 (s.padDo n)) 3
        (s.pin n).fs) 4 (s.pin n).pend.isSome
    else s.reg a
  else if rPgIn 0 ≤ a ∧ a < rPgIn 6 then
    BitVec.ofNat 32 (maskOf 32 (fun j => Bank.get (fun _ => false) s.pads (8 * (a - rPgIn 0) + j)))
  else if rPgZ 0 0 ≤ a ∧ a < rPgStat then
    let z := (a - rPgZ 0 0) / 32
    if a = rPgZQacc z then showPc (s.zone z).qacc
    else if a = rPgZNdrv z then BitVec.ofNat 32 (s.ndrv z)
    else if a = rPgZStat z then putBit (s.reg a) 8 (!(s.zone z).surge.isEmpty)
    else s.reg a
  else if a = rPgStat then putBit (s.reg a) 1 ((List.range 192).any (fun n => (s.pin n).fs))
  else s.reg a

end Machine
end Sys2Proof
end

