-- ==== Sys2Proof/Machine/Stand.lean ====
section
/-! DEFINITION. Stands: their commands, the watchdog, the storm count, and the Restore and Release steps of a restart (R100–R111).
Accept to Drain, which completes the accesses of the stand's threads, is in Machine/Drain.lean. -/
namespace Sys2Proof
namespace Machine

/-! ### The firebreak (R17, R107) -/

/-- The endpoint lies inside stand `n` (R107): a thread port, shift engine or timer that the stand owns. -/
def State.epInside (s : State) (n : Nat) (ep : Word) : Bool :=
  match epKind ep with
  | 1 => decide ((s.thr (epUnit ep)).cls ≠ .idle) && decide ((s.thr (epUnit ep)).stand = n)
  | 2 => s.seAssigned (epUnit ep) && decide (s.seStand (epUnit ep) = n)
  | 3 => (s.tmr (epUnit ep)).hasRec && decide ((s.tmr (epUnit ep)).stand = n)
  | _ => false

/-- The channel table of the Drain step for one channel (R107). -/
def State.drainChan (s : State) (n c : Nat) : State :=
  let ch := s.chan c
  let a := s.epInside n ch.sendEp
  let b := s.epInside n ch.recvEp
  if (a && (b || decide (epKind ch.recvEp = 0))) || (b && decide (epKind ch.sendEp = 0)) then
    s.modChan c (fun h => { h with msgs := [], staged := [] })
  else if a then s.unstage c
  else s

/-- The channel table of the Drain step (R107). -/
def State.drainChans (s : State) (n : Nat) : State := s.each (s.chans.map Prod.fst) (fun s c => s.drainChan n c)

/-! ### Restore and Release (R105) -/

/-- Restore (R105): each resource of the stand is in reset and written from the restart copy, its inputs' latches and their views clear
(R343), and the STCn fields are as the image set them. -/
def State.standRestoreAll (s : State) (n : Nat) : State :=
  match s.image with
  | none => s
  | some im =>
    let s1 := s.each (s.standThreads n) (fun s t => s.threadRestore t false)
    let s2 := (im.ses.filter (fun r => decide (r.stand = n))).foldl State.seRestore s1
    let s3 := (im.timers.filter (fun r => decide (r.stand = n))).foldl State.tmRestore s2
    let s4 := (im.routes.filter (fun r => decide (r.stand = n))).foldl (fun (s : State) r => s.evRestore r.n) s3
    let s4 := ((im.ses.filter (fun r => decide (r.stand = n))).foldl (fun (s : State) r => s.modSe r.n (fun e => { e with inRst := true })) s4).clearInputs n
    let s5 := (im.pins.filter (fun r => decide (r.stand = n))).foldl (fun (s : State) r =>
      (s.modReg (rPgPinStat r.n) (fun w => w &&& ~~~ 0xF00#32)).modPin r.n (fun p => { p with pend := none })) s4
    s5.setReg (rStcCfg n) (match im.stands.find? (fun r => decide (r.1 = n)) with
      | some r => r.2 &&& 0xFFFFF73F#32
      | none => 0#32)

/-- The instances of a stand, or with a thread, initialise again (R414, R436). -/
def State.svRestart (s : State) (p : SvcRec → Bool) : State :=
  match s.image with
  | none => s
  | some im => (im.svcs.filter p).foldl (fun (s : State) r => (s.rcount (rSvStat r.n) 16 16 1).svBegin r.n) s

/-- The milliseconds left of a running watchdog after some time: at least 1 (R103). -/
def wdLeft (cur passed : Nat) : Nat := if cur = 0 then 0 else cur - passed % cur
/-- The watchdog's count loaded from WDTMO, 0 taken as 1 (R103). -/
def State.wdLoad (s : State) (n : Nat) : State :=
  s.rsetFld (rStcStat n) 16 16 (if s.rfld (rStcCfg n) 16 16 = 0 then 1 else s.rfld (rStcCfg n) 16 16)

/-- Which of some shift engines have a clock that stands still, as a release finds them (R95, R106). -/
def State.seClocks (s : State) (l : List Nat) (stopped : List (Fin 32)) : State :=
  s.each l (fun s k => s.modSe k (fun e => { e with stopped := stopped.any (fun x => decide (x.val = k)) }))
/-- The shift engines of a stand. -/
def State.standSes (s : State) (n : Nat) : List Nat := members 32 (fun k => s.seAssigned k && decide (s.seStand k = n))

/-- A shift engine leaves reset unless its clock stands still (R95), with its loop counters at their reload values (R287). -/
def State.seStart (s : State) (n : Nat) : State :=
  ((s.setReg (rSeL n 0) (s.reg (rSeLrld n 0))).setReg (rSeL n 1) (s.reg (rSeLrld n 1))).modSe n (fun e => { e with inRst := e.stopped })

/-- The threads, timers, pins, shift engines and watchdog of a stand start (R105, R144). -/
def State.standStart (s : State) (n : Nat) : State :=
  match s.image with
  | none => s
  | some im =>
    let s1 := s.each (s.standThreads n) (fun s t => s.modThr t (fun h => { h with released := true }))
    let s2 := (im.timers.filter (fun r => decide (r.stand = n))).foldl (fun (s : State) r =>
      if s.tmOdd r.n then s else (s.tmStart r.n (r.ctl.getLsbD 0)).tmWake r.n) s1
    let s3 := (im.pins.filter (fun r => decide (r.stand = n))).foldl (fun (s : State) r => s.pinRelease r.n) s2
    let s4 := (im.ses.filter (fun r => decide (r.stand = n))).foldl (fun (s : State) r => s.seStart r.n) s3
    if s.rbit (rStcCfg n) 2 then (s4.wdLoad n).modStand n (fun d => { d with wdOn := true }) else s4.modStand n (fun d => { d with wdOn := false })

/-- A shift engine of the stand is held in reset (R106, STCn_STAT.SEPEND). -/
def State.sePending (s : State) (n : Nat) : Bool :=
  (List.range 32).any (fun k => s.seAssigned k && decide (s.seStand k = n) && (s.se k).inRst)

/-- Release (R105, R108): the stand runs; RESTARTS, the restart record and the pulse on Q268; BUCKET rises, or is set to 0 by
UNPARK. -/
def State.standReleaseNow (s : State) (n : Nat) : State :=
  let d := s.stand n
  let bucket := s.rfld (rStcStat n) 8 4
  let s1 := (s.rsetFld (rStcStat n) 0 3 1).rsetFld (rStcStat n) 8 4 (if d.unpark then 0 else min 15 (bucket + 1))
  let s2 := s1.standStart n
  let s3 := (s2.rcount (rStcRcnt n) 0 16 1).each (members 8 (fun k => (BitVec.ofNat 32 d.causes).getLsbD k))
    (fun s k => s.recBin 0x02 0x01 n k 1)
  let s4 := (s3.pulse 268).modStand n (fun e =>
    { e with req := false, causes := 0, step := .none, parks := false, zero := false, unpark := false })
  s4.svRestart (fun r => decide (r.stand = n))

/-- The Release step of a restored stand, unless it parks (R108) or DBG_SHOLD holds it (R111, R521). -/
def State.standGo (s : State) (n : Nat) : State :=
  if s.rbit rDbgShold n then s.rsetFld (rStcStat n) 0 3 4 else s.standReleaseNow n

/-- The stand's Restore step ends (R105): it is then released by STAND_RELEASE, or parks (R108). -/
def State.standRestored (s : State) (n : Nat) : State :=
  let s1 := (s.standRestoreAll n).modStand n (fun d => { d with step := .restored })
  if (s.stand n).parks then (s1.rsetFld (rStcStat n) 0 3 3).recBin 0x02 0x02 n 0 3 else s1

/-- STAND_RESTORE (R105). A stand that a zeroise drained waits for the clear (R508). -/
def execStandRestore (n : Fin 16) (s : State) : Out :=
  .next (if s.mode = .run ∧ (s.stand n).step = .drained ∧ !(s.stand n).zero then s.standRestored n else s)

/-- STAND_RELEASE (R105); `stopped`: the shift engines whose clock stands still. -/
def execStandRelease (n : Fin 16) (stopped : List (Fin 32)) (s : State) : Out :=
  .next (if s.mode = .run ∧ (s.stand n).step = .restored ∧ s.standState n = 2 then (s.seClocks (s.standSes n) stopped).standGo n else s)

/-! ### Commands (R102, R103, R108) -/

/-- A debugger that reaches the unit registers (R510): LK0, or LK1 unlocked, after P1 has read the lock word. -/
def State.dbgOpen (s : State) : Bool :=
  s.sec.lockRead && !s.shGroup 0 && (decide (s.rfld rBcMode 10 3 = 0) || (decide (s.rfld rBcMode 10 3 = 1) && s.sec.unlocked))

/-- The writer conditions of R102, the cause bit of a restart by that writer. -/
def State.stcWriter (s : State) (m : Master) (n : Nat) : Option Nat :=
  match m with
  | .thread t => if (s.thr t).stand = n then some 0 else if s.managed t n then some 1 else none
  | .host sec priv => if sec && priv then some 2 else none
  | .debugger => if s.dbgOpen then some 3 else none
  | _ => none

/-- A write to STCn_CTL (R102, R108, R20). -/
def State.stcCtl (s : State) (m : Master) (n : Nat) (v : Word) : State :=
  let bad := s.rset (rStcStat n) 4
  let restart := v.getLsbD 16
  let unpark := v.getLsbD 17
  match (if fld v 0 16 = 0x5E7D then s.stcWriter m n else none) with
  | none => (match m with
    | .thread _ => bad
    | _ => s)
  | some cause =>
    if !restart && !unpark then s
    else if (restart && unpark) || decide (s.standState n = 0) then bad
    else if unpark then
      if s.standState n = 3 then
        ((s.latchCause n 7 0).modStand n (fun d => { d with parks := false, unpark := true, causes := 2 ^ 7 })).standGo n
      else bad
    else if s.standState n = 3 then bad
    else s.askStand n cause 0

/-- RESTART (R102). -/
def execRestart (m : Master) (n : Fin 16) (key : BitVec 16) (s : State) : Out :=
  .next (s.gated (s.stcCtl m n (BitVec.ofNat 32 (key.toNat + 2 ^ 16))))
/-- UNPARK (R108). -/
def execUnpark (m : Master) (n : Fin 16) (key : BitVec 16) (s : State) : Out :=
  .next (s.gated (s.stcCtl m n (BitVec.ofNat 32 (key.toNat + 2 ^ 17))))

/-- A write to STCn_WDKICK (R103): a kick of a thread of the stand reloads the count of a running watchdog; one from any other writer
sets WDBAD. -/
def State.wdKick (s : State) (m : Master) (n key : Nat) : State :=
  if key ≠ 0xC35A then s
  else match m with
    | .thread t => if (s.thr t).stand = n ∧ (s.thr t).cls ≠ .idle then (if (s.stand n).wdOn then s.wdLoad n else s) else s.rset (rStcStat n) 3
    | _ => s.rset (rStcStat n) 3
/-- WDKICK (R103). -/
def execWdkick (m : Master) (n : Fin 16) (key : BitVec 16) (s : State) : Out := .next (s.gated (s.wdKick m n key.toNat))

/-- WATCHDOG_EXPIRY (R103, R104): a running watchdog of a stand that is not halted restarts the stand. -/
def execWatchdogExpiry (n : Fin 16) (s : State) : Out :=
  .next (if s.mode = .run ∧ (s.stand n).wdOn ∧ !s.rbit rDbgShalt n then
    (s.rsetFld (rStcStat n) 16 16 0).askStand n 4 0 else s)

/-- STORM_DECAY (R108). -/
def execStormDecay (n : Fin 16) (s : State) : Out :=
  .next (
    let b := s.rfld (rStcStat n) 8 4
    if s.mode = .run ∧ 0 < b then
      s.rsetFld (rStcStat n) 8 4 (b - 1)
    else s)

/-- A read of an STC register: SEPEND live. -/
def State.stcRead (s : State) (a : Nat) : Word :=
  match (List.range 16).find? (fun n => decide (a = rStcStat n)) with
  | some n =>
    putBit (s.reg a) 5 (s.sePending n)
  | none => s.reg a

end Machine
end Sys2Proof
end

