-- ==== Sys2Proof/Machine/Boot.lean ====
section
/-! DEFINITION. Resets (R79, R94–R96), and start-up from P0 to P2: fuses, keys, fill (R112–R133); failures and entry into
RECOVERY (R114, R146). -/
namespace Sys2Proof
namespace Machine

/-! ### Cold and warm resets (R94) -/

/-- Word `w` of the OTP array. -/
def State.fuse (s : State) (w : Nat) : Word := Bank.get (fun _ => 0#32) s.otp w
/-- The OTP command that a reset abandons (R130): each bit of the step that it cuts short is burned or not, a free value. -/
def State.burnCut (s : State) : State :=
  match s.boot.otp with
  | none => s
  | some o =>
    match o.steps with
    | [] => s
    | (w, bits) :: _ =>
      if o.check || o.stepped then s
      else { s.drew with otp := Bank.put (fun _ => 0#32) s.otp w (s.fuse w ||| (bits &&& s.free)) }

/-- Alarm levels and other inputs from outside, which no reset of the block changes; the commands waiting; the OTP array; the free values
drawn. The pads' synchronisers reset to 0 (R389). -/
def State.outside (s : State) : State :=
  { State.reset with
    pending := s.pending
    otp := s.burnCut.otp
    aon := s.aon
    draws := s.burnCut.draws
    power := s.power
    kind := s.kind
    ports := { State.reset.ports with health := s.ports.health } }

/-- COLD_RESET (R79, R94): P0 counts the power cycle, then P1 begins. BC_RSTCAUSE shows COLD, and AONLOST where AON_OK fell. An
ALARM input that is high is armed and shown live (R503). -/
def execColdReset (s : State) : Out :=
  .next (
    let live := s.rfld rSecAlStat 8 8
    let s1 : State := { s.outside with
      phase := 1
      power := true
      aon := { s.aon with pcc := min 16777215 (s.aon.pcc + 1) }
      recd := { restore := true, counters := s.sec.aonLost } }
    (s1.setReg rBcRstCause (BitVec.ofNat 32 (1 + 8 * b2n s.sec.aonLost))).rsetFld rSecAlStat 8 8 live)

/-- PWR_OK_FALL (R79): operation ends at once; every pin is fail-safe, and nothing but OTP and the always-on counters is kept. -/
def execPwrOkFall (s : State) : Out :=
  .next (({ s.outside with power := false, sec := { aonLost := s.sec.aonLost } } : State).rsetFld rSecAlStat 8 8 (s.rfld rSecAlStat 8 8))

/-- AON_OK_FALL (R79): the always-on counters since their last flash backup are lost: until they are restored they hold free
values. -/
def execAonOkFall (s : State) : Out :=
  .next { s.drew.drew.drew with
    aon := { hours := fld (Config.freeWord s.draws) 0 24, secs := fld (Config.freeWord (s.draws + 1)) 0 12 % 3600
             pcc := fld (Config.freeWord (s.draws + 2)) 0 24 }
    sec := { s.sec with aonLost := true } }

/-- Registers that a warm reset and an alarm block reset keep whole (R94, R488, R503, R539). -/
def warmKeeps (a : Nat) : Bool :=
  decide (a = rBcWarmCnt) || decide (a = rErRepl) || (List.range 5).any (fun k => decide (a = rErDrop k)) ||
  decide (a = rErCmStat) || inRun a (rSecAcnt 0) 4 16 ||
  (decide (0x6B0040 ≤ a) && decide (a < 0x6B00C0)) || decide (a = rDbgFrzCnt)

/-- The scope of a warm reset and of an alarm block reset (R94): P1 begins. Kept beside the registers of `warmKeeps`: the recorder's
pool and queue, what it knows of its sectors, a restore still due, breakpoints, the port's state in its TAP, armed alarms, FAILS and
the lockout (R512), each zone's fail-safe register and each pin's zone (R399), FAULTCNT, and AONLOST of the last cold reset. -/
def State.warmScope (s : State) (cause : Nat) : State :=
  let s1 : State := { s.outside with
    phase := 1
    regs := Bank.clear (fun a => !warmKeeps a) s.regs
    recd := { pool := s.recd.pool, applied := s.recd.applied, queue := s.recd.queue, low2 := s.recd.low2, low1 := s.recd.low1,
              restore := s.recd.restore, counters := s.recd.counters, newest := s.recd.newest }
    sec := { lockout := s.sec.lockout, failRun := s.sec.failRun, aonLost := s.sec.aonLost }
    dbg := { ir := s.dbg.ir, dr := s.dbg.dr, accData := s.dbg.accData, accStat := s.dbg.accStat } }
  let s2 := (s1.setReg rSecAlStat (s.reg rSecAlStat &&& 0x00FFFF00#32)).setReg rSecDbgStat (s.reg rSecDbgStat &&& 0xF0#32)
  let s3 := s2.setReg rXpCpStat (s.reg rXpCpStat &&& 0xFFFF0000#32)
  let s4 := (List.range 8).foldl (fun (t : State) z => t.setReg (rPgZLim z) (s.reg (rPgZLim z) &&& 1#32)) s3
  let s5 := (List.range 192).foldl (fun (t : State) n => t.setReg (rPgCfg n) (s.reg (rPgCfg n) &&& 7#32)) s4
  let s6 := (s5.modReg rErCmStat (fun w => w &&& 0xFFFFFFF0#32)).modReg rDbgFrzCnt (fun w => w &&& 0xFFFF#32)
  s6.setReg rBcRstCause (BitVec.ofNat 32 (cause + 8 * b2n (s.rbit rBcRstCause 3)))

/-- WARM_RESET (R78, R94). Without PWR_OK the block does not operate (R79). -/
def execWarmReset (s : State) : Out :=
  .next (if s.power then (s.warmScope 2).rcount rBcWarmCnt 0 16 1 else s)

/-- An alarm block reset (R94, R506, R507): ALARMID, and FRZRST and FRZAL for the freeze reset. -/
def State.alarmReset (s : State) (src : Nat) (frz frzal : Bool) : State :=
  (s.warmScope (4 + 2 ^ 4 * src + 2 ^ 8 * b2n frz + 2 ^ 9 * b2n frzal)).rcount rBcWarmCnt 16 16 1

/-! ### OTP as read (R117–R125) -/

/-- The CRC-32 of words (R117). -/
def crcWords (ws : List Word) : Word := crcOf 2 0xFFFFFFFF#32 (bytesOf ws) ^^^ 0xFFFFFFFF#32
/-- The words of generation `g` (R119). -/
def State.genWords (s : State) (g : Nat) : List Word := (List.range 32).map (fun w => s.fuse (0x80 + 32 * g + w))
/-- Blank, valid and torn generations (R120). -/
def genBlank (ws : List Word) : Bool := ws.all (· == 0#32)
/-- See `genBlank`. -/
def genValid (g : Nat) (ws : List Word) : Bool :=
  decide (ws.getD 30 0#32 = BitVec.ofNat 32 (0x5E4E0000 + g)) && decide (ws.getD 31 0#32 = crcWords (ws.take 31))
/-- The active generation: the highest-numbered valid one (R120). -/
def State.activeGen (s : State) : Option Nat := ([4, 3, 2, 1, 0] : List Nat).find? (fun g => genValid g (s.genWords g))
/-- At least one generation is torn (R120). -/
def State.genTorn (s : State) : Bool := (List.range 5).any (fun g => !genBlank (s.genWords g) && !genValid g (s.genWords g))
/-- The lowest-numbered blank user generation (R121). -/
def State.blankGen (s : State) : Option Nat := ([1, 2, 3, 4] : List Nat).find? (fun g => genBlank (s.genWords g))
/-- The anti-rollback floor (R122). -/
def State.arbFloor (s : State) : Nat :=
  let v := ((s.fuse 0x121 ||| s.fuse 0x123).toNat * 2 ^ 32) + (s.fuse 0x120 ||| s.fuse 0x122).toNat
  if v = 0 then 0 else msbPos v 64 + 1
/-- The lock word (R124). -/
def State.lockWord (s : State) : Word := s.fuse 0x124 ||| s.fuse 0x125 ||| s.fuse 0x126 ||| s.fuse 0x127
/-- The lock level (R124). -/
def lockLevel (w : Word) : Nat := if w.getLsbD 1 then 2 else if w.getLsbD 0 then 1 else 0
/-- CPYDIS (R124). -/
def State.copiesDiffer (s : State) : Bool :=
  decide (s.fuse 0x125 ≠ s.fuse 0x124) || decide (s.fuse 0x126 ≠ s.fuse 0x124) || decide (s.fuse 0x127 ≠ s.fuse 0x124) ||
  decide (s.fuse 0x120 ≠ s.fuse 0x122) || decide (s.fuse 0x121 ≠ s.fuse 0x123) ||
  (List.range 8).any (fun z => (s.fuse (0x128 + 4 * z + 3)).getLsbD 0 != (s.fuse (0x128 + 4 * z + 3)).getLsbD 1)

/-- OTP_MIRROR and the OTP-loaded fields of OTP_STAT (R117, R120, R122, R124); GEN is that of the pass (R128). -/
def State.loadMirror (s : State) : State :=
  let s1 := (List.range 512).foldl (fun (s : State) w => s.setReg (rOtpMirror w) (s.fuse w)) s
  s1.setReg rOtpStat ((s1.reg rOtpStat &&& 0xFFFF0000#32) ||| BitVec.ofNat 32 (s.gen.getD 0 + 8 * b2n s.blankGen.isNone +
    16 * b2n s.genTorn + 2 ^ 8 * s.arbFloor + 2 ^ 15 * b2n s.copiesDiffer))

/-! ### Failures and RECOVERY (R114, R115, R146, R149) -/

/-- The memories as the fill leaves them (R131): scratchpad, program memories and channel pool. What the maintenance sequencer did ends
(R384). -/
def State.fill (s : State) : State :=
  { s with
    mem := []
    upset := []
    pool := []
    chans := s.chans.map (fun c => (c.1, { c.2 with msgs := [], staged := [] }))
    sp := { s.sp with bad := [], lanes := [], xq := [], copy := none, wclr := none, ttStep := 0, walk := false, under := none, rekeyed := [] } }

/-- The recovery link of the active generation comes up (R146): RLINK, in the mode of RFAST, when RLEN = 1. -/
def State.recoveryLink (s : State) : State :=
  let w := s.genWord 5
  let s1 : State := { s with links := [], recovQ := [], frzWait := false }
  if w.getLsbD 3 then
    (s1.modLk (fld w 0 2) (fun l => { l with recov := true, rfast := w.getLsbD 2 })).trAsk (.session (fld w 0 2)) 1
  else s1

/-- The units stop: no thread, service or unit of a stand runs outside RUN; services and event deliveries end, what stands own stays
theirs until a new image is accepted (R17). -/
def State.unitsOff (s : State) : State :=
  { s with svcs := [], fires := [], delivs := [], busyV := [], det := {} }

/-- BC_BOOTERR (R115). -/
def State.bootErr (s : State) (code src off : Nat) : State :=
  s.setReg rBcBootErr (BitVec.ofNat 32 (code + (src % 4) * 2 ^ 8 + (off % 2 ^ 22) * 2 ^ 10))

/-- The limits of unlocked zones are those of a blank record (R125): in RECOVERY after a failed load. -/
def State.zonesBlank (s : State) : State :=
  (List.range 8).foldl (fun (s : State) z => if (s.zoneOtp z).2 then s else s.zoneSet z {} false) s

/-- Entry into RECOVERY (R114): pins fail-safe, memories filled, limits of unlocked zones those of a blank record (R125), the
recovery link. BC_MODE.PHASE keeps the phase. -/
def State.enterRecovery (s : State) : State :=
  let s1 := { s.allFs.fill with mode := .recovery }
  s1.zonesBlank.recoveryLink

/-- A failure of P1 to P4 (R114). -/
def State.bootFail (s : State) (code src off : Nat) : State :=
  ({ s.enterRecovery with boot := { s.boot with load := none } } : State).bootErr code src off

/-! ### P1 (R112, R116, R119, R125, R496) -/

/-- The fields of the active generation loaded (R119, R117). -/
def State.loadFields (s : State) : State :=
  let g := s.genWord
  let w2 := g 2
  let m1 := s.fuse 1
  let s1 := (s.rsetFld rXpFlCfg 0 10 (fld m1 0 10)).rsetFld rStcTick 0 10 (fld m1 16 10)
  let s2 := (((s1.rput rBcMode 8 (w2.getLsbD 2)).rput rXpNvCfg 8 (w2.getLsbD 3)).rsetFld rXpNvCfg 4 3 (fld w2 4 3)).rsetFld rXpNvCfg 0 4 (fld w2 8 4)
  (s2.rsetFld rXpNvCfg 12 4 (fld w2 12 4)).setReg rLkNodeId (g 0)

/-- What the end of P1 does: each locked zone takes its limits (R399), SEC_RESP takes ALRESP (R505), CPYDIS raises source 15, and
alarms latched before are acted on (R116). -/
def State.endP1 (s : State) : State :=
  let s1 := (List.range 8).foldl (fun (s : State) z => let o := s.zoneOtp z; if o.2 then s.zoneSet z o.1 true else s) s
  let s2 := (List.range 8).foldl State.p1Resp s1
  let s3 := if s2.rbit rOtpStat 15 then s2.raise 15 else s2
  s3.each (members 8 (fun k => s3.rbit rSecAlStat k)) State.raise

/-- Entry `i` of the coppice-row map (R117). -/
def State.copEntry (s : State) (i : Nat) : Nat := fld (s.fuse (0x40 + i / 2)) (16 * (i % 2)) 16
/-- An entry that is used and has correct parity (R118). -/
def copGood (v : Nat) : Bool :=
  decide (v / 2 ^ 15 = 1) && decide (popCount (BitVec.ofNat 32 (v % 2 ^ 13 + v / 2 ^ 14 * 2 ^ 14)) 16 % 2 = 1)
/-- An entry that is applied (R376): of its rows, and named by no later entry of the bank that could be. -/
def State.copApplied (s : State) (i : Nat) : Bool :=
  let v := s.copEntry i
  copGood v && decide (v % 2 ^ 13 < s.rowsN) &&
  !(List.range (3 - i % 4)).any (fun k =>
    let w := s.copEntry (i + 1 + k)
    copGood w && decide (w % 2 ^ 13 = v % 2 ^ 13))
/-- The coppice-row map of a smaller configuration (R118, R376): its counts, and MAPBAD. The spare row holds what the row it replaces
would hold, under that row's virtual symbols, so the data model is the same. -/
def State.coppice (s : State) : State :=
  if s.kind = .veteran then s
  else
    let used := (List.range 128).filter (fun i => decide (s.copEntry i / 2 ^ 15 = 1))
    let on := (used.filter s.copApplied).length
    let s1 := s.setReg rSpCoppice (BitVec.ofNat 32 (on + (used.length - on) * 2 ^ 8))
    if used.any (fun i => !copGood (s.copEntry i)) then s1.rset rOtpStat 16 else s1

/-- FUSE_LOAD (R112, R117–R125): P1 reads the array into the mirror, judges factory data and generations, loads the OTP fields, takes
the lock level, and asks for the scramble key. `fuses`: words that production has burned. A part whose factory data fails its CRC
ends P1 there, and its fields are not loaded (DESIGN CHOICE, notes/assumptions/69.md). -/
def execFuseLoad (fuses : List (Fin 512 × Word)) (s : State) : Out :=
  .next (if s.mode ≠ .boot ∨ s.phase ≠ 1 ∨ s.sec.lockRead then s
  else
    let s0 : State := fuses.foldl (fun (s : State) p =>
      { s with otp := Bank.put (fun _ => 0#32) s.otp p.1.val (s.fuse p.1.val ||| p.2) }) s
    let s1 := ({ s0 with gen := s0.activeGen } : State).loadMirror
    let lw := s1.lockWord
    let s2 := ((({ s1 with sec := { s1.sec with lockRead := true } } : State).rsetFld rBcMode 10 3 (lockLevel lw)).rput rBcMode 9 (!lw.getLsbD 2))
    if s2.fuse 0x3F ≠ crcWords ((List.range 63).map s2.fuse) then s2.bootFail 0x11 0 0
    else match s2.gen with
      | none => s2.bootFail 0x12 0 0
      | some _ => s2.loadFields.coppice.trAsk .key 4)

/-- The key words K are here: P1 ends, P2 begins, and the reserve key K′ is asked for (R364, R496). -/
def State.takeKey (s : State) (ws : List Word) : State :=
  if s.mode = .boot ∧ s.phase = 1 then
    let s1 : State := { s with
      sp := { s.sp with key := BitVec.ofNat 128 (leNat (bytesOf ws)), resv := none }
      phase := 2 }
    ((s1.rclr rSecStat 3).endP1).trAsk .zero 4
  else s

/-- The reserve key K′ is here (R496). -/
def State.takeReserve (s : State) (ws : List Word) : State :=
  ({ s with sp := { s.sp with resv := some (BitVec.ofNat 128 (leNat (bytesOf ws))) } } : State).rset rSecStat 4

/-! ### P2 (R131, R132) and TEST -/

/-- MEMORY_FILL (R131–R133): the memories read 0; recorder memory is filled on a cold reset and kept on a warm one, where an
uncorrectable word marks the pool for restore. P3 begins. -/
def execMemoryFill (recBad : Bool) (s : State) : Out :=
  .next (if s.mode ≠ .boot ∨ s.phase ≠ 2 then s
  else
    let s1 : State := { s.fill with phase := 3 }
    if recBad && !s.rbit rBcRstCause 0 then s1.modRec (fun r => { r with restore := true }) else s1)

/-- TEST_ENTRY (R26): during P2, with TESTAVL. -/
def execTestEntry (s : State) : Out :=
  .next (if s.mode = .boot ∧ s.phase = 2 ∧ s.rbit rBcMode 9 ∧ !s.shGroup 0 then { s with mode := .test } else s)

/-! ### P4 (R142) -/

/-- DELAY_LINE_LOCK (R142): the pins of every configured group at their start taps, and the reference locked. -/
def execDelayLineLock (s : State) : Out :=
  .next (if s.mode ≠ .boot ∨ s.phase ≠ 4 then s
  else
    let s1 := s.each (members 32 s.seAssigned) State.setTaps
    { s1 with boot := { s1.boot with locked := true } })

/-- DLOCK_TIMEOUT (R142). -/
def execDlockTimeout (s : State) : Out :=
  .next (if s.mode = .boot ∧ s.phase = 4 ∧ !s.boot.locked then s.unitsOff.bootFail 0x41 0 0 else s)

/-! ### P5 (R144) -/

/-- RELEASE (R144): once the delay lines are locked and the restore is over. Stands that own a resource run; the links, the
services and the nonces of R127 and R477 begin. -/
def execRelease (us : Word) (stopped : List (Fin 32)) (s : State) : Out :=
  .next (match s.image with
    | none => s
    | some im =>
      if s.mode ≠ .boot ∨ s.phase ≠ 4 ∨ !s.boot.locked ∨ s.recd.restore then s
      else
        let s1 := ({ s.seClocks (members 32 s.seAssigned) stopped with mode := .run, phase := 5, det := {}, boot := {}, fires := [], delivs := [] } : State).bootErr 0
          (s.rfld rBcBootErr 8 2) 0
        let s2 := s1.setReg rBcBootTime us
        let s3 := (List.range 16).foldl (fun (s : State) n =>
          if im.owns n then (s.rsetFld (rStcStat n) 0 3 1).standStart n else s.rsetFld (rStcStat n) 0 3 0) s2
        let s4 := ({ s3 with bt := { s3.bt with on := true } } : State)
        let s5 := im.svcs.foldl (fun (s : State) r => s.svBegin r.n) s4
        let s6 := ({ s5 with links := [], recd := { s5.recd with cmSecs := 0 } } : State).spRelease
        let s7 := s6.each (members 4 s6.lkOn) (fun s n => s.each (s.sendHalves n) State.lkSync)
        (((s7.pulse 271).trAsk (.session 4) 1).trAsk .nonce 2).trAsk .recNonce 2)

end Machine
end Sys2Proof
end

