-- ==== Sys2Proof/Machine/Image.lean ====
section
/-! DEFINITION. The configuration image as the loader reads it: header, sections, records, and the rules whose break fails P3
(R115, R135–R141 and the resource rules of later chapters). A check answers none while the bytes it needs have not arrived, or the code of
R115 with the offset of the first byte that breaks a rule: the first one after which no further bytes can satisfy it (R137,
notes/assumptions/26.md). -/
namespace Sys2Proof
namespace Machine

/-! ### Reading -/

/-- What a reading of the image gives: a value; none, more bytes are needed; or a code and an offset. -/
abbrev Parse := Except (Option (Nat × Nat))

/-- `n` bytes from an offset, little-endian. -/
def rd (b : List Byte) (off n : Nat) : Parse Nat :=
  let l := (b.drop off).take n
  if l.length = n then .ok (leNat l) else .error none
/-- A rule. -/
def rule (ok : Bool) (code off : Nat) : Parse Unit := if ok then .ok () else .error (some (code, off))
/-- A rule of section structure (SECTION). -/
def structRule (ok : Bool) (off : Nat) : Parse Unit := rule ok 0x3A off
/-- A resource rule (RESOURCE). -/
def resRule (ok : Bool) (off : Nat) : Parse Unit := rule ok 0x3B off
/-- A rule of a little-endian field: whether, after its first `m` bytes of value `v`, some rest of it satisfies the rule. -/
abbrev FieldRule := Nat → Nat → Bool
/-- The least value of the field from `c` on whose first `m` bytes are `v`. -/
def leastFrom (m v c : Nat) : Nat := v + (c - v + 256 ^ m - 1) / 256 ^ m * 256 ^ m
/-- A rule whose values are intervals that begin at the numbers `cs`, in a field of `n` bytes. -/
def fFrom (n : Nat) (cs : List Nat) (p : Nat → Bool) : FieldRule := fun m v =>
  cs.any (fun c => decide (leastFrom m v c < 256 ^ n) && p (leastFrom m v c))
/-- A value from `lo` to `hi`. -/
def fRange (n lo hi : Nat) : FieldRule := fFrom n [lo] (fun v => decide (lo ≤ v) && decide (v ≤ hi))
/-- A rule that only more 1 bits could break: bits not read count as 0. -/
def fBits (p : Nat → Bool) : FieldRule := fun _ v => p v
/-- Bits that must be 0. -/
def fMask (mask : Nat) : FieldRule := fBits (fun v => decide (v &&& mask = 0))
/-- A rule on the first `n` bytes, which they alone decide. -/
def fAt (n : Nat) (p : Nat → Bool) : FieldRule := fun m v => decide (m < n) || p v
/-- The lowest code of a broken rule (R115). -/
def brokenCode (m v : Nat) (rs : List (Nat × FieldRule)) : Option Nat :=
  ((rs.filter (fun r => !r.2 m v)).map Prod.fst).min?
/-- The rest of a field: `k` bytes from byte `m` on, `v` read so far. -/
def rdFrom (b : List Byte) (off : Nat) (rs : List (Nat × FieldRule)) : Nat → Nat → Nat → Parse Nat
  | 0, _, v => .ok v
  | k + 1, m, v => do
    let x ← rd b (off + m) 1
    let v' := v + x * 256 ^ m
    match brokenCode (m + 1) v' rs with
    | some c => .error (some (c, off + m))
    | none => rdFrom b off rs k (m + 1) v'
/-- A field of `n` bytes with its rules, each with its code. -/
def rdC (b : List Byte) (off n : Nat) (rs : List (Nat × FieldRule)) : Parse Nat := rdFrom b off rs n 0 0
/-- A field with resource rules. -/
def rdR (b : List Byte) (off n : Nat) (rs : List FieldRule) : Parse Nat := rdC b off n (rs.map (fun r => (0x3B, r)))
/-- The key of a record of its section (R139), with its resource rules: above the last one. -/
def rdKey (b : List Byte) (off n : Nat) (last : Option Nat) (rs : List FieldRule) : Parse Nat :=
  rdC b off n ((0x3A, match last with
    | none => fRange n 0 (256 ^ n - 1)
    | some l => fRange n (l + 1) (256 ^ n - 1)) :: rs.map (fun r => (0x3B, r)))
/-- `n` up to the next multiple of 4. -/
def up4 (n : Nat) : Nat := (n + 3) / 4 * 4
/-- Bytes that must be 0. -/
def zeros (b : List Byte) (code : Nat) : Nat → Nat → Parse Unit
  | _, 0 => .ok ()
  | off, n + 1 => do
    let v ← rd b off 1
    rule (decide (v = 0)) code off
    zeros b code (off + 1) n
/-- A list with one answer for each of `n` positions of a stride. -/
def rdMany (b : List Byte) (off n : Nat) : Nat → Parse (List Nat)
  | 0 => .ok []
  | k + 1 => do
    let v ← rd b off n
    let r ← rdMany b (off + n) n k
    return v :: r
/-- Bits [lo+n-1 : lo] of a number. -/
def bitsOf (v lo n : Nat) : Nat := v / 2 ^ lo % 2 ^ n

/-! ### Header (R138, R115, R122) -/

/-- The header, with the checks MAGIC, LENGTH, EPOCH, CFG and NODE at their bytes, and the number of sections. -/
def parseHeader (b : List Byte) (kind : Config.Kind) (floor : Nat) (node : Word) : Parse (Image × Nat) := do
  let _ ← rdC b 0 4 [(0x33, fRange 4 0x7E1A5128 0x7E1A5128)]
  let _ ← rdC b 4 2 [(0x34, fRange 2 1 1)]
  let _ ← rdC b 6 2 [(0x34, fRange 2 64 64)]
  let len ← rdC b 8 4 [(0x34, fMask 3), (0x34, fRange 4 80 4194304)]
  let ver ← rd b 12 4
  let epoch ← rdC b 16 1 [(0x37, fRange 1 floor 64)]
  let cfg ← rdC b 17 1 [(0x34, fRange 1 0 15), (0x35, fBits (fun v => decide (v / 2 ^ kind.code % 2 = 1)))]
  let flags ← rdC b 18 1 [(0x34, fRange 1 0 1)]
  let nsect ← rdC b 19 1 [(0x3A, fRange 1 0 14)]
  let id ← rdC b 20 4 [(0x36, fFrom 4 [0, node.toNat] (fun v => decide (v = 0) || decide (v = node.toNat)))]
  let _ ← rd b 24 16
  zeros b 0x34 40 24
  return ({ length := len, version := BitVec.ofNat 32 ver, epoch := epoch, cfgMask := cfg, kind := kind, compat := decide (flags = 1),
            nodeId := BitVec.ofNat 32 id }, nsect)

/-! ### Endpoints (R140, R248, R251, R252) -/

/-- An endpoint word obeys R251 in a position: SEND or RECV, on a channel of WORDS words. -/
def epOk (ep : Word) (send : Bool) (words : Nat) : Bool :=
  let u := epUnit ep
  let sub := epSub ep
  decide (fld ep 8 8 = 0) &&
  match epKind ep with
  | 0 => decide (u = 0) && decide (sub = 0)
  | 1 => decide (u < 128) && decide (sub < 8)
  | 2 => decide (u < 32) && decide (sub / 2 % 4 = 0) &&
      (if sub % 2 = 1 then send && decide (sub / 8 + 1 ≤ min 32 words) else !send && decide (sub / 8 = 0))
  | 3 => decide (u < 64) && ((decide (sub = 0) && send) || (decide (sub = 1) && !send))
  | 4 => true
  | 5 => decide (u < 64)
  | 6 => decide (u = 0) && decide (sub < 16)
  | _ => false
/-- What an endpoint word names: for a shift-engine queue, its words per message do not count. -/
def epName (ep : Word) : Word := if epKind ep = 2 then ep &&& 0xFFFF0001#32 else ep
/-- The endpoints that channel records bind. -/
def boundEps (cs : List ChanRec) : List Word :=
  (cs.map (fun c => [c.send, c.recv])).flatten.filter (fun e => decide (epKind e ≠ 0))
/-- A thread-port endpoint names a thread that can have it (R252). -/
def epThreadOk (im : Image) (ep : Word) : Bool :=
  decide (epKind ep ≠ 1) ||
  im.threads.any (fun r => decide (r.n = epUnit ep) && decide (r.cls ≠ 0))
/-- The shift engines, or timers, that channel records name. -/
def namedUnits (kind : Nat) (cs : List ChanRec) : List (Nat × Nat) :=
  ((boundEps cs).filter (fun e => decide (epKind e = kind))).map (fun e => (epUnit e, epSub e % 2))

/-! ### Records of fixed size -/

/-- A section of records of one size: each read by `one`, given its offset, the last key and the image so far; it answers its key
(R139). -/
def fixedRecs (size stop : Nat) (one : Nat → Option Nat → Image → Parse (Nat × Image)) :
    Nat → Nat → Option Nat → Image → Parse Image
  | 0, pos, _, im => do
    structRule (decide (pos = stop)) pos
    return im
  | k + 1, pos, last, im => do
    let r ← one pos last im
    fixedRecs size stop one k (pos + size) (some r.1) r.2

/-- Stands (0x01). -/
def recStand (b : List Byte) (p : Nat) (last : Option Nat) (im : Image) : Parse (Nat × Image) := do
  let n ← rdKey b p 1 last [fRange 1 0 15]
  zeros b 0x3B (p + 1) 3
  let c ← rdR b (p + 4) 4 [fMask 0x8C0, fAt 1 (fun v => decide (v % 4 ≠ 3))]
  return (n, { im with stands := im.stands ++ [(n, BitVec.ofNat 32 c)] })

/-- An address in the program memory of an engine, or in the service ROM. -/
def codeAddr (e : Nat) : FieldRule :=
  let lo := 0x400000 + e * 0x20000
  fFrom 4 [lo, 0x500000] (fun a => (decide (lo ≤ a) && decide (a < lo + 0x20000)) || (decide (0x500000 ≤ a) && decide (a < 0x540000)))

/-- Threads (0x02). A pair needs both threads present (DEDUCED, notes/assumptions/67.md). -/
def recThread (b : List Byte) (p : Nat) (last : Option Nat) (im : Image) : Parse (Nat × Image) := do
  let n ← rdKey b p 1 last [fRange 1 0 (16 * im.kind.engines - 1), fAt 1 (fun v => !im.threads.any (fun r => decide (r.n + 64 = v) && r.twin))]
  let c ← rdR b (p + 1) 1 [fBits (fun v => decide (v % 128 < 3)), fAt 1 (fun v => decide (v < 128) || decide (n + 64 < 16 * im.kind.engines))]
  let twin := decide (128 ≤ c)
  let st ← rdR b (p + 2) 1 [fRange 1 0 15]
  zeros b 0x3B (p + 3) 1
  let entry ← rdR b (p + 4) 4 [codeAddr (n / 16)]
  let tvec ← rdR b (p + 8) 4 [codeAddr (n / 16)]
  let arg ← rd b (p + 12) 4
  resRule (decide (c % 128 = 0) || im.stands.any (fun s => decide (s.1 = st))) (p + 15)
  let r : ThreadRec :=
    { n := n, cls := c % 128, twin := twin, stand := st, entry := BitVec.ofNat 24 entry,
      tvec := BitVec.ofNat 24 tvec, arg := BitVec.ofNat 32 arg }
  return (n, { im with threads := im.threads ++ [r] })

/-- Channels (0x04). -/
def recChan (b : List Byte) (p : Nat) (last : Option Nat) (im : Image) : Parse (Nat × Image) := do
  let n ← rdKey b p 2 last [fRange 2 0 4095]
  let w ← rdR b (p + 2) 1 [fRange 1 2 64]
  let st ← rdR b (p + 3) 1 [fBits (fun v => decide (v < 16) || decide (v = 255))]
  let used := (boundEps im.chans).map epName
  let sv ← rdR b (p + 4) 4 [fMask 0xFF00, fAt 4 (fun v =>
    let e : Word := BitVec.ofNat 32 v
    epOk e true w && !used.contains (epName e) && (decide (epKind e = 0) || decide (st < 16)))]
  let send : Word := BitVec.ofNat 32 sv
  let rv ← rdR b (p + 8) 4 [fMask 0xFF00, fAt 4 (fun v =>
    let e : Word := BitVec.ofNat 32 v
    epOk e false w && !used.contains (epName e) && (decide (epKind e = 0) || (decide (st < 16) && decide (epName e ≠ epName send))) &&
    !(decide (epKind send = 4) && decide (epKind e = 4)) && epThreadOk im send && epThreadOk im e)]
  return (n, { im with chans := im.chans ++ [{ n := n, words := w, stand := st, send := send, recv := BitVec.ofNat 32 rv }] })

/-- Timers (0x06): the rules of a linked pair at the later record (R321, R137). -/
def recTimer (b : List Byte) (p : Nat) (last : Option Nat) (im : Image) : Parse (Nat × Image) := do
  let n ← rdKey b p 1 last [fRange 1 0 63]
  let st ← rdR b (p + 1) 1 [fRange 1 0 15]
  zeros b 0x3B (p + 2) 2
  let c ← rdR b (p + 4) 4 [fBits (fun v => !(decide (n % 2 = 1) && decide (v / 4 % 2 = 1)))]
  let ph ← rd b (p + 8) 4
  let cm ← rd b (p + 12) 4
  let named := namedUnits 3 im.chans
  let even := im.timers.find? (fun r => decide (r.n + 1 = n) && decide (n % 2 = 1) && r.ctl.getLsbD 2)
  resRule (match even with
    | none => true
    | some e => decide (e.stand = st) && decide (c = 0) && !named.any (fun u => decide (u.1 = n))) (p + 15)
  resRule (!(decide (c / 4 % 2 = 1) && named.contains (n, 1))) (p + 15)
  return (n, { im with timers := im.timers ++ [{ n := n, stand := st, ctl := BitVec.ofNat 32 c, phase := BitVec.ofNat 32 ph, cmp := BitVec.ofNat 32 cm }] })

/-- A consumer can take a delivery (R340): not an input of an inert unit, an idle thread, copy B, or the odd timer of a pair. -/
def consumerOk (im : Image) (k : Nat) : Bool :=
  if k < 1024 then im.threads.any (fun r => decide (r.n = k / 8) && decide (r.cls ≠ 0))
  else if k < 1152 then im.ses.any (fun r => decide (r.n = (k - 1024) / 4))
  else if k < 1280 then
    let t := (k - 1152) / 2
    im.timers.any (fun r => decide (r.n = t)) && !im.timers.any (fun r => decide (r.n + 1 = t) && decide (t % 2 = 1) && r.ctl.getLsbD 2)
  else true
/-- The consumer that a native route record enables (R337). -/
def recConsumer (r : RouteRec) : Option Nat := ((List.range 8).find? (fun k => r.en.getLsbD (8 + k))).map (nativeConsumer r.n)

/-- The consumer that the enables of a native route record name. -/
def enConsumer (n en : Nat) : Option Nat := recConsumer { n := n, stand := 0, attr := 0, en := BitVec.ofNat 32 en }
/-- Event routes (0x07): records (R340). EN [31:16] must be 0, and ATTR [7:2] is not used (DESIGN CHOICE, notes/assumptions/68.md). -/
def recRoute (b : List Byte) (p : Nat) (last : Option Nat) (im : Image) : Parse (Nat × Image) := do
  let n ← rdKey b p 1 last []
  let st ← rdR b (p + 1) 1 [fRange 1 0 15]
  let attr ← rd b (p + 2) 1
  zeros b 0x3B (p + 3) 1
  let en ← rdR b (p + 4) 4 (if im.compat then [fRange 4 0 0] else
    [fMask 0xFFFF0000, fBits (fun v => decide (popCount (BitVec.ofNat 32 (v / 256)) 8 ≤ 1)), fBits (fun v => match enConsumer n v with
      | none => true
      | some k => !im.routes.any (fun q => decide (recConsumer q = some k)))])
  let r : RouteRec := { n := n, stand := st, attr := attr, en := BitVec.ofNat 32 en }
  resRule (match recConsumer r with
    | none => true
    | some k => consumerOk im k) (p + 7)
  return (n, { im with routes := im.routes ++ [r] })

/-- The limits in force for a zone (R125, R390): `otp` gives those of the locked zones. -/
def zoneLimits (im : Image) (otp : Nat → ZoneRec × Bool) (z : Nat) : ZoneRec := if (otp z).2 then (otp z).1 else im.zones.getD z {}

/-- Pins (0x08) (R21, R391). -/
def recPin (b : List Byte) (otp : Nat → ZoneRec × Bool) (p : Nat) (last : Option Nat) (im : Image) : Parse (Nat × Image) := do
  let n ← rdKey b p 1 last [fRange 1 0 191]
  let st ← rdR b (p + 1) 1 [fBits (fun v => decide (v < 16) || decide (v = 255))]
  let z ← rdR b (p + 2) 1 [fRange 1 0 7]
  let init ← rdR b (p + 3) 1 [fBits (fun v => decide (v / 4 % 4 ≤ fld (zoneLimits im otp z).w0 2 2))]
  let cl ← rd b (p + 4) 2
  zeros b 0x3B (p + 6) 2
  resRule (im.ses.all (fun r => !(decide (r.base ≤ n) && decide (n < r.base + r.count)) || decide (r.stand = st))) (p + 7)
  return (n, { im with pins := im.pins ++ [{ n := n, stand := st, zone := z, init := init, cload := cl }] })

/-- Security policy (0x0D). RESP [7:4], which no rule names, must be 0 (DESIGN CHOICE, notes/assumptions/68.md). -/
def recPolicy (b : List Byte) (p : Nat) (last : Option Nat) (im : Image) : Parse (Nat × Image) := do
  let n ← rdKey b p 1 last [fRange 1 0 15]
  let r ← rdR b (p + 1) 1 [fRange 1 0 15]
  let st ← rd b (p + 2) 2
  zeros b 0x3B (p + 4) 4
  return (n, { im with policy := im.policy ++ [(n, r, st)] })

/-- Engines (0x0E). -/
def recEngine (b : List Byte) (p : Nat) (last : Option Nat) (im : Image) : Parse (Nat × Image) := do
  let n ← rdKey b p 1 last [fRange 1 0 (im.kind.engines - 1)]
  let g ← rdR b (p + 1) 1 [fRange 1 1 255]
  let t ← rdR b (p + 2) 1 [fRange 1 1 255]
  zeros b 0x3B (p + 3) 1
  return (n, { im with engines := im.engines ++ [(n, g, t)] })

/-- Links (0x0B): link records (R449). FLAGS [7:1], which no rule names, must be 0 (DESIGN CHOICE, notes/assumptions/68.md). -/
def recLink (b : List Byte) (p : Nat) (last : Option Nat) (im : Image) : Parse (Nat × Image) := do
  let n ← rdKey b p 1 last [fRange 1 0 (im.kind.links - 1)]
  let mode ← rdR b (p + 1) 1 [fRange 1 0 2]
  let fl ← rdR b (p + 2) 1 [fRange 1 0 1]
  zeros b 0x3B (p + 3) 1
  let rate ← rdR b (p + 4) 4 [if mode = 1 then fRange 4 100000000 1000000000 else if mode = 2 then fRange 4 1200 921600 else fMask 0]
  let slot ← rdR b (p + 8) 1 [fBits (fun v => decide (mode = 0) || decide (fl = 1) || decide (v = 0))]
  zeros b 0x3B (p + 9) 3
  let bits := if mode = 1 then 3110 else 6180
  let least := if mode = 0 then 0 else (3 * bits * 1000 + rate - 1) / rate
  let retx ← rdR b (p + 12) 2 [fRange 2 least 65535]
  zeros b 0x3B (p + 14) 2
  return (n, { im with links := im.links ++ [{ n := n, mode := mode, gcm := decide (fl = 1), rate := BitVec.ofNat 32 rate, slot := slot, retx := retx }] })

/-! ### Records of variable size -/

/-- A section of variable records: `one` gives the image and the offset past the record (R139). -/
def varRecs (stop : Nat) (one : Nat → Image → Parse (Image × Nat)) : Nat → Nat → Image → Parse Image
  | 0, pos, im => do
    structRule (decide (pos = stop)) pos
    return im
  | k + 1, pos, im => do
    let r ← one pos im
    varRecs stop one k r.2 r.1

/-- Bytes as they arrived. -/
def rdBytes (b : List Byte) (off n : Nat) : Parse (List Byte) :=
  let l := (b.drop off).take n
  if l.length = n then .ok l else .error none

/-- Program images (0x03): data by byte address. The key is ENGINE, then OFFSET (R139). -/
def recProg (b : List Byte) (p : Nat) (im : Image) : Parse (Image × Nat) := do
  let last := im.progs.getLast?.map (fun q => ((q.1 - 0x400000) / 0x20000, (q.1 - 0x400000) % 0x20000, (q.1 - 0x400000) % 0x20000 + q.2.length))
  let e ← rdC b p 1 [(0x3A, fBits (fun v => match last with
    | none => true
    | some l => decide (l.1 ≤ v))), (0x3B, fRange 1 0 (im.kind.engines - 1))]
  zeros b 0x3B (p + 1) 3
  let same := match last with
    | none => none
    | some l => if l.1 = e then some l.2 else none
  let off ← rdKey b (p + 4) 4 (same.map (·.1)) [fRange 4 0 131072]
  let nb ← rdR b (p + 8) 4 [fRange 4 0 (if off < (match same with
    | some l => l.2
    | none => 0) then 0 else 131072 - off)]
  let d ← rdBytes b (p + 12) nb
  zeros b 0x3A (p + 12 + nb) (up4 nb - nb)
  return ({ im with progs := im.progs ++ [(0x400000 + e * 0x20000 + off, d)] }, p + 12 + up4 nb)

/-- A 16-bit shift-engine instruction is illegal (R286, R288). -/
def seIllegal (w : Nat) : Bool :=
  let op := w / 4096
  decide (op = 0) || decide (12 ≤ op) ||
  (decide (op = 2) && (decide (w / 16 % 2 = 1) ||
    (decide (w / 1024 % 2 = 1) && (decide (w / 512 % 2 = 1) || decide (w / 32 % 16 = 0))))) ||
  (decide (op = 5) && decide (w / 16 % 128 ≠ 0)) || (decide (op = 6) && decide (w / 16 % 64 ≠ 0)) ||
  (decide (op = 10) && decide (w / 16 % 64 ≠ 0))

/-- A program of `k` legal instructions: which bits make a word illegal may lie in either byte. -/
def rdProg (b : List Byte) (off : Nat) : Nat → Parse (List Nat)
  | 0 => .ok []
  | k + 1 => do
    let w ← rdR b off 2 [fun m v => if m < 2 then (List.range 256).any (fun h => !seIllegal (v + 256 * h)) else !seIllegal v]
    let r ← rdProg b (off + 2) k
    return w :: r

/-- Shift-engine programs (0x05) (R274, R277, R284, R285, R288, R296, R307). -/
def recSe (b : List Byte) (p : Nat) (im : Image) : Parse (Image × Nat) := do
  let n ← rdKey b p 1 (im.ses.getLast?.map (·.n)) [fRange 1 0 (im.kind.ses - 1)]
  let st ← rdR b (p + 1) 1 [fRange 1 0 15]
  let base ← rdR b (p + 2) 1 [fRange 1 0 191]
  let cnt ← rdR b (p + 3) 1 [fRange 1 1 32, fRange 1 0 (192 - base)]
  let clk ← rdR b (p + 4) 4 [
    fAt 3 (fun v => decide (bitsOf v 8 16 ≠ 0) && !(decide (bitsOf v 8 16 = 1) && decide (v % 256 ≠ 0))),
    fMask 0x40000000, fAt 4 (fun v => decide (v < 2 ^ 31) || decide (bitsOf v 24 5 < cnt))]
  let ctl ← rdR b (p + 8) 4 [
    fBits (fun v => decide (bitsOf v 3 2 ≠ 3) && decide (bitsOf v 1 2 ≠ 3)),
    fAt 4 (fun v => decide (bitsOf v 26 3 ≤ 4)),
    fBits (fun v => decide (bitsOf v 6 5 < cnt) && decide (bitsOf v 11 5 < cnt) && decide (bitsOf v 21 5 < cnt) &&
      decide (bitsOf v 16 5 + bitsOf v 26 3 ≤ cnt))]
  let ssw := bitsOf ctl 26 3
  let minUi ← rd b (p + 12) 2
  let span ← rdR b (p + 14) 1 [fBits (fun v => decide (v ≤ 64) && (decide (v = 0) || decide (100 * v < minUi)))]
  let ni ← rdR b (p + 15) 1 [fRange 1 1 32]
  let spc ← rdR b (p + 16) 1 [fRange 1 0 (ni - 1)]
  zeros b 0x3B (p + 17) 3
  let in32 (v : Nat) : Bool := decide (1 ≤ v) && decide (v ≤ 32)
  let thr ← rdR b (p + 20) 4 [fMask 0xFFC0C0C0, fAt 1 (fun v => in32 (bitsOf v 0 6)), fAt 2 (fun v => in32 (bitsOf v 8 6)),
    fAt 3 (fun v => in32 (bitsOf v 16 6))]
  let side ← rdR b (p + 24) 4 [fBits (fun v => (List.range 4).all (fun k => decide (bitsOf v (8 * k + 4) 4 < 2 ^ ssw)))]
  let dw ← rd b (p + 28) 4
  let pat ← rd b (p + 32) 4
  let l0 ← rd b (p + 36) 4
  let l1 ← rd b (p + 40) 4
  let next := p + 44 + up4 (2 * ni)
  let prog ← rdProg b (p + 44) ni
  zeros b 0x3A (p + 44 + 2 * ni) (up4 (2 * ni) - 2 * ni)
  let named := namedUnits 2 im.chans
  resRule (!(decide (bitsOf ctl 1 2 = 1) && named.contains (n, 1)) && !(decide (bitsOf ctl 1 2 = 2) && named.contains (n, 0))) (next - 1)
  let r : SeRec :=
    { n := n, stand := st, base := base, count := cnt, clk := BitVec.ofNat 32 clk, ctl := BitVec.ofNat 32 ctl,
      minUi := minUi, span := span, startPc := spc, thr := BitVec.ofNat 32 thr, side := BitVec.ofNat 32 side,
      dwell := BitVec.ofNat 32 dw, pat := BitVec.ofNat 32 pat, l0 := BitVec.ofNat 32 l0, l1 := BitVec.ofNat 32 l1,
      prog := prog }
  return ({ im with ses := im.ses ++ [r] }, next)

/-- Scratchpad initial data (0x09): data by byte address. -/
def recData (b : List Byte) (p : Nat) (im : Image) : Parse (Image × Nat) := do
  let last := im.data.getLast?
  let lim := im.kind.spSize - im.spare * 4096
  let a ← rdKey b p 4 (last.map (·.1)) [fMask 3, fRange 4 0 lim]
  let nb ← rdR b (p + 4) 4 [fRange 4 0 (if a < (match last with
    | some q => q.1 + q.2.length
    | none => 0) then 0 else lim - a)]
  let d ← rdBytes b (p + 8) nb
  zeros b 0x3A (p + 8 + nb) (up4 nb - nb)
  return ({ im with data := im.data ++ [(a, d)] }, p + 8 + up4 nb)

/-! ### Services (R405, R406, R410) -/

/-- A value within a range. -/
def within (lo hi v : Nat) : Bool := decide (lo ≤ v) && decide (v ≤ hi)
/-- The line parameter FMT of types 1 to 3. -/
def fmtOk (eight n81 : Bool) (f : Nat) : Bool :=
  within 5 8 (f % 16) && decide (f / 16 % 4 ≤ 2) && decide (f < 128) && (!eight || decide (f % 16 = 8)) && (!n81 || decide (f = 8))
/-- The ranges of a service's parameters (R406): offset, bytes and rule of each, in ascending order. -/
def svParamRules (ty : Nat) : List (Nat × Nat × FieldRule) :=
  let rg (o n lo hi : Nat) : Nat × Nat × FieldRule := (o, n, fRange n lo hi)
  match ty with
  | 1 => [rg 4 4 300 921600, (8, 1, fBits (fmtOk false false)), rg 9 1 0 3, rg 12 1 1 255, rg 13 1 1 124, rg 14 2 0 0]
  | 2 => [rg 4 4 1200 115200, (8, 1, fBits (fmtOk true false)), rg 9 1 0 3, rg 12 1 1 247, rg 13 1 0 0]
  | 3 => [rg 4 4 1200 115200, (8, 1, fBits (fmtOk true true)), rg 9 1 0 3, rg 12 2 0 65519, rg 14 2 0 65519, rg 16 1 0 1, rg 17 1 0 3,
      rg 18 2 1 65535, rg 20 2 1 65535, rg 22 1 0 1, rg 26 2 1 1024, rg 28 2 1 65535, rg 30 2 1 65535, rg 32 1 0 3, rg 34 1 0 254, rg 35 1 0 0,
      rg 36 4 60 604800, rg 40 2 1 65535, rg 42 2 16 1024, (44, 4, fMask 7)]
  | 4 => [rg 4 1 0 3, rg 5 3 0 0]
  | 5 => [rg 4 1 0 7, rg 5 1 1 4, rg 6 2 3 65535, rg 10 2 0 0]
  | 6 => [rg 4 1 0 2, rg 5 1 0 0]
  | 7 => [(4, 1, fBits (fun v => decide (v % 8 ≤ 4))), rg 5 1 0 3, rg 6 2 0 0, rg 8 4 1 4294967295]
  | _ => []
/-- The parameters' fields checked as they arrive, from `base` on. -/
def rdParams (b : List Byte) (base : Nat) : List (Nat × Nat × FieldRule) → Parse Unit
  | [] => .ok ()
  | (o, n, r) :: l => do
    let _ ← rdR b (base + o) n [r]
    rdParams b base l
/-- PINCOUNT of a listed shift engine, `k` its place (R405). -/
def svPins (r : SvcRec) (k : Nat) : Nat :=
  match r.type with
  | 1 | 2 | 3 => if k = 0 then 1 + r.par 9 1 % 2 else 1
  | 4 => if k = 0 then 2 else 1
  | 5 => 3 + r.par 5 1
  | 6 => 2
  | _ => if r.par 4 1 % 8 = 0 then 1 else 2
/-- The endpoints and the least WORDS of channel list entry `k` (R410): SEND, RECV. -/
def svChanEnds (r : SvcRec) (k : Nat) : Word × Word × Nat :=
  let sv (e : Nat) : Word := epWord 5 r.n e
  let tx : Word := epWord 2 (r.se.getD 0 0) 0
  let rx (j : Nat) : Word := epWord 2 (r.se.getD j 0) 1
  match r.type, k with
  | 7, _ => (rx 0, sv 16, 16)
  | _, 0 => (sv 16, tx, 8)
  | 5, _ => (rx 0, sv 17, 8)
  | 6, _ => (rx 0, sv 17, 8)
  | _, 1 => (rx 1, sv 17, 16)
  | _, 2 => (sv 18, sv 19, 64)
  | _, _ => (sv 20, sv 21, 64)
/-- The rules of R406 that relate a services record to records of other sections, and R140's owner rule. -/
def svCrossOk (im : Image) (r : SvcRec) : Bool :=
  let thrOk (t : Nat) : Bool := im.threads.any (fun q => decide (q.n = t) && (if r.type = 7 then decide (q.cls = 1) else decide (q.cls ≠ 0)) &&
    decide (q.stand = r.stand)) && !im.svcs.any (fun v => v.thr.contains t)
  let seOk (k : Nat) : Bool := im.ses.any (fun q => decide (q.n = r.se.getD k 32) && decide (q.count = svPins r k) && decide (q.stand = r.stand)) &&
    !im.svcs.any (fun v => v.se.contains (r.se.getD k 32))
  let chOk (k : Nat) : Bool :=
    let e := svChanEnds r k
    im.chans.any (fun c => decide (c.n = r.ch.getD k 4096) && decide (c.send = e.1) && decide (c.recv = e.2.1) && decide (e.2.2 ≤ c.words) &&
      decide (c.stand = r.stand)) && !im.svcs.any (fun v => v.ch.contains (r.ch.getD k 4096))
  let extOk (e : SvEp) : Bool := decide (16 ≤ e.ep) || e.opt ||
    decide ((im.chans.filter (fun c => decide ((if e.send then c.send else c.recv) = epWord 5 r.n e.ep))).length = 1)
  r.thr.all thrOk && decide (r.thr.eraseDups.length = r.thr.length) && (List.range r.se.length).all seOk &&
  decide (r.se.eraseDups.length = r.se.length) && (List.range r.ch.length).all chOk && (svEndpoints r.type).all extOk &&
  !(boundEps im.chans).any (fun ep => decide (epKind ep = 1) && r.thr.contains (epUnit ep))
/-- The workspace (R406): aligned, below the retire pool, apart from every other; `ws`: its size. -/
def svWsRule (im : Image) (ws : Nat) : List FieldRule :=
  let size (v : SvcRec) : Nat := match svSize v.type with
    | some z => z.2.2.2.2
    | none => 0
  if ws = 0 then [fRange 4 0 0]
  else
    let others := im.svcs.filter (fun v => decide (0 < size v))
    [fMask 15, fRange 4 0 (im.kind.spSize - im.spare * 4096 - ws),
      fFrom 4 (0 :: others.map (fun v => v.ws + size v)) (fun a => others.all (fun v => decide (v.ws + size v ≤ a) || decide (a + ws ≤ v.ws)))]

/-- Services (0x0A). -/
def recSvc (b : List Byte) (p : Nat) (im : Image) : Parse (Image × Nat) := do
  let n ← rdKey b p 1 (im.svcs.getLast?.map (·.n)) [fRange 1 0 63]
  let ty ← rdR b (p + 1) 1 [fAt 1 (fun v => (svSize v).isSome)]
  let z := (svSize ty).getD (0, 0, 0, 0, 0)
  let st ← rdR b (p + 2) 1 [fRange 1 0 15]
  let nt ← rdR b (p + 3) 1 [fRange 1 z.1 z.1]
  let ns ← rdR b (p + 4) 1 [fRange 1 z.2.1 z.2.1]
  let nc ← rdR b (p + 5) 1 [fRange 1 z.2.2.1 z.2.2.1]
  let pl ← rdR b (p + 6) 2 [fRange 2 z.2.2.2.1 z.2.2.2.1]
  let ll := nt + ns + 2 * nc
  let base := p + 8 + up4 ll
  let next := base + up4 pl
  let thr ← rdMany b (p + 8) 1 nt
  let ses ← rdMany b (p + 8 + nt) 1 ns
  let chs ← rdMany b (p + 8 + nt + ns) 2 nc
  zeros b 0x3A (p + 8 + ll) (up4 ll - ll)
  let _ ← rdR b base 4 (svWsRule im z.2.2.2.2)
  rdParams b base (svParamRules ty)
  let par ← rdBytes b base pl
  zeros b 0x3A (base + pl) (up4 pl - pl)
  let r : SvcRec := { n := n, type := ty, stand := st, thr := thr, se := ses, ch := chs, params := par }
  resRule (svCrossOk im r) (next - 1)
  return ({ im with svcs := im.svcs ++ [r] }, next)

/-! ### Sections (R139, R137) -/

/-- Route entries of the links section (R140, R454). -/
def routeRows (b : List Byte) (on : Nat → Bool) : Nat → Nat → List (Word × Nat) → Parse (List (Word × Nat))
  | 0, _, l => .ok l
  | k + 1, p, l => do
    let node ← rdR b p 4 [match l.getLast? with
      | none => fRange 4 0 0xFFFFFFFF
      | some q => fRange 4 (q.1.toNat + 1) 0xFFFFFFFF]
    let link ← rdR b (p + 4) 1 [fAt 1 (fun v => decide (node = 0xFFFFFFFF) || on v)]
    zeros b 0x3B (p + 5) 3
    routeRows b on k (p + 8) (l ++ [(BitVec.ofNat 32 node, link)])

/-- The body of a section of a type, COUNT records, from `p` to `stop`. -/
def parseBody (b : List Byte) (otp : Nat → ZoneRec × Bool) (ty count p stop : Nat) (im : Image) : Parse Image :=
  match ty with
  | 1 => fixedRecs 8 stop (recStand b) count p none im
  | 2 => fixedRecs 16 stop (recThread b) count p none im
  | 3 => varRecs stop (recProg b) count p im
  | 4 => do
    let im1 ← fixedRecs 12 stop (recChan b) count p none im
    resRule (decide ((im1.chans.map (·.words)).sum ≤ 16384)) (stop - 1)
    return im1
  | 5 => do
    let im1 ← varRecs stop (recSe b) count p im
    resRule ((namedUnits 2 im1.chans).all (fun u => im1.ses.any (fun r => decide (r.n = u.1)))) (stop - 1)
    return im1
  | 6 => do
    let im1 ← fixedRecs 16 stop (recTimer b) count p none im
    resRule (im1.timers.all (fun r => !r.ctl.getLsbD 2 || im1.timers.any (fun q => decide (q.n = r.n + 1)))) (stop - 1)
    resRule ((namedUnits 3 im1.chans).all (fun u => im1.timers.any (fun r => decide (r.n = u.1)))) (stop - 1)
    return im1
  | 7 =>
    if im.compat then do
      structRule (decide (p + 8 * count + 8192 = stop)) (p - 4)
      let im1 ← fixedRecs 8 (stop - 8192) (recRoute b) count p none im
      let ws ← rdMany b (stop - 8192) 4 2048
      let bit (q c : Nat) : Bool := (ws.getD (8 * q + c / 32) 0 / 2 ^ (c % 32)) % 2 = 1
      resRule ((List.range 256).all (fun c =>
        let n := ((List.range 256).filter (fun q => bit q c)).length
        decide (n = 0) || (decide (n = 1) && im1.routes.any (fun r => decide (r.n = c)) && consumerOk im1 (columnConsumer c)))) (stop - 1)
      return { im1 with matrix := ws.map (BitVec.ofNat 32) }
    else fixedRecs 8 stop (recRoute b) count p none im
  | 8 => do
    let zs ← (List.range 8).foldlM (fun (l : List ZoneRec) z => do
      let q := p + 16 * z
      let w0 ← rdR b q 4 [fBits (fun v => decide (bitsOf v 8 8 ≤ 192))]
      let w1 ← rd b (q + 4) 4
      let w2 ← rd b (q + 8) 4
      zeros b 0x3B (q + 12) 4
      return l ++ [({ w0 := BitVec.ofNat 32 w0, vzone := BitVec.ofNat 32 w1, budget := BitVec.ofNat 32 w2 } : ZoneRec)]) []
    let im1 ← fixedRecs 8 stop (recPin b otp) count (p + 128) none { im with zones := zs }
    resRule ((List.range 8).all (fun z =>
      let l := zoneLimits im1 otp z
      let ps := im1.pins.filter (fun r => decide (r.zone = z) && decide (r.init % 2 = 1))
      decide (ps.length ≤ fld l.w0 8 8) && decide ((ps.map (fun r => r.cload * fld l.vzone 0 16)).sum ≤ l.budget.toNat * 1000))) (stop - 1)
    resRule (im1.ses.all (fun r => (List.range r.count).all (fun k => im1.pins.any (fun q => decide (q.n = r.base + k))))) (stop - 1)
    return im1
  | 9 => do
    let sp ← rdR b p 2 [fRange 2 0 (if im.kind = .veteran then 64 else 0)]
    zeros b 0x3B (p + 2) 2
    let lap ← rd b (p + 4) 4
    varRecs stop (recData b) count (p + 8) { im with spare := sp, lapAlarm := BitVec.ofNat 32 lap }
  | 10 => do
    let im1 ← varRecs stop (recSvc b) count p im
    resRule ((boundEps im1.chans).all (fun ep => decide (epKind ep ≠ 5) || im1.svcs.any (fun r => decide (r.n = epUnit ep) &&
      (svEndpoints r.type).any (fun e => decide (e.ep = epSub ep) && im1.chans.any (fun c => decide ((if e.send then c.send else c.recv) = ep)))))) (stop - 1)
    return im1
  | 11 => do
    let e := p + 16 * count
    let im1 ← fixedRecs 16 e (recLink b) count p none im
    let on (n : Nat) : Bool := im1.links.any (fun r => decide (r.n = n) && decide (r.mode ≠ 0))
    let nr ← rdR b e 2 [fRange 2 0 256]
    let df ← rdR b (e + 2) 1 [fAt 1 (fun v => decide (v = 255) || on v)]
    zeros b 0x3B (e + 3) 1
    structRule (decide (e + 4 + 8 * nr = stop)) (p - 4)
    let rows ← routeRows b on nr (e + 4) []
    resRule ((boundEps im1.chans).all (fun ep => decide (epKind ep ≠ 4) || decide (epSub ep < nr))) (stop - 1)
    return { im1 with defLink := df, nodes := rows }
  | 12 => do
    structRule (decide (count = 0)) (p - 6)
    structRule (decide (p + 8 = stop)) (p - 4)
    let cm ← rdR b p 2 [fFrom 2 [0, 10] (fun v => decide (v = 0) || within 10 1440 v)]
    let pw ← rd b (p + 2) 2
    zeros b 0x3B (p + 4) 4
    return { im with recd := some (cm, pw) }
  | 13 => fixedRecs 8 stop (recPolicy b) count p none im
  | _ => fixedRecs 4 stop (recEngine b) count p none im

/-- A body within its section: what it reads ends with the section, and a record that runs on past it breaks SECTION at the byte behind
it. -/
def inSection (b : List Byte) (stop : Nat) (body : List Byte → Parse Image) : Parse Image :=
  match body (b.take stop) with
  | .error none => if stop < b.length then .error (some (0x3A, stop)) else .error none
  | r => r

/-- The sections in ascending TYPE order, filling bytes 64 to LENGTH − 17 exactly (R139); `seen`: the types read. -/
def parseSections (b : List Byte) (otp : Nat → ZoneRec × Bool) : Nat → Nat → List Nat → Image → Parse (Image × List Nat)
  | 0, pos, seen, im => do
    structRule (decide (pos = im.length - 16)) pos
    return (im, seen)
  | k + 1, pos, seen, im => do
    structRule (decide (pos + 8 ≤ im.length - 16)) pos
    let ty ← rdC b pos 1 [(0x3A, fRange 1 (seen.headD 0 + 1) 14)]
    zeros b 0x3A (pos + 1) 1
    let count ← rd b (pos + 2) 2
    let bl ← rdC b (pos + 4) 4 [(0x3A, fMask 3), (0x3A, fRange 4 0 (im.length - 24 - pos))]
    let im1 ← inSection b (pos + 8 + bl) (fun b => parseBody b otp ty count (pos + 8) (pos + 8 + bl) im)
    parseSections b otp k (pos + 8 + bl) (ty :: seen) im1

/-- A whole image (R134–R140): the header, the sections, records that never arrive in an absent section (R137), and the 16 bytes of the
tag. `floor`, `node`, `otp`: the anti-rollback floor, the node identifier and the zones of OTP. -/
def parseImage (b : List Byte) (kind : Config.Kind) (floor : Nat) (node : Word) (otp : Nat → ZoneRec × Bool) : Parse Image := do
  let h ← parseHeader b kind floor node
  let r ← parseSections b otp h.2 64 [] h.1
  let im := r.1
  let has (t : Nat) : Bool := r.2.contains t
  let kinds := (boundEps im.chans).map epKind
  resRule ((has 5 || !kinds.contains 2) && (has 6 || !kinds.contains 3) && (has 8 || im.ses.isEmpty) && (has 10 || !kinds.contains 5) &&
    (has 11 || !kinds.contains 4)) (im.length - 17)
  let _ ← rd b (im.length - 16) 16
  return im

end Machine
end Sys2Proof
end

