-- ==== Sys2Proof/Machine/Security.lean ====
section
/-! DEFINITION. Protection against probing and faults: alarms and their responses, complement shadows, zeroise, and the debug
challenge (R495–R513). -/
namespace Sys2Proof
namespace Machine

/-! ### Alarm inputs (R503, R116) -/

/-- ALARM_INPUT (R503, R398): every pin goes fail-safe at an active level; an armed input sets its latch and disarms. The raising
waits for the end of P1 (R116). -/
def execAlarmInput (k : Fin 8) (stays : Bool) (s : State) : Out :=
  .next (
    let s1 := s.allFs.rput rSecAlStat (8 + k) stays
    if s.rbit rSecAlStat (16 + k) then
      let s2 := (s1.rset rSecAlStat k).rclr rSecAlStat (16 + k)
      if s.mode = .boot ∧ s.phase < 2 then s2 else s2.raise k
    else s1)

/-- ALARM_REARM (R503): the input has read 0 at two consecutive SMCLK edges. -/
def execAlarmRearm (k : Fin 8) (s : State) : Out := .next ((s.rclr rSecAlStat (8 + k)).rset rSecAlStat (16 + k))

/-- A W1C write to SEC_ALSTAT (R503, R11): a latch whose input is high stays. -/
def State.alClear (s : State) (m : Master) (mask : Nat) : State :=
  if s.maint m then
    s.modReg rSecAlStat (fun w => w &&& ~~~ BitVec.ofNat 32 (maskOf 8 (fun k => (BitVec.ofNat 8 mask).getLsbD k && !w.getLsbD (8 + k))))
  else s
/-- SEC_ALSTAT_CLEAR (R503). -/
def execSecAlstatClear (m : Master) (mask : Byte) (s : State) : Out :=
  .next (if m = .debugger then s.alClear m mask.toNat else s.gated (s.alClear m mask.toNat))

/-! ### Complement shadows (R499, R500) -/

/-- A zeroise is due, of an alarm source (R506, R509): one that is raised before the clear of a running one merges into it; one raised
later runs again in full. -/
def State.askZero (s : State) (src : Nat) (frz : Bool) : State :=
  match s.sec.zero with
  | .none | .cleared => { s with sec := { s.sec with zero := .asked, zsrc := src, zfreeze := frz } }
  | _ => { s with sec := { s.sec with zfreeze := s.sec.zfreeze || frz } }

/-- The Taken as column of R499 where it changes a register or a unit: SEC_RESPs as the OR of the copies; the windows, routes,
zones and slots ask `shBad`; a difference in K or K′ is a zeroise. -/
def State.shadowTaken (s : State) (g i : Nat) (flip : Word) : State :=
  match g with
  | 6 => s.modReg (rSecResp (i % 16)) (fun w => w ||| (flip &&& 0xFFFF000F#32))
  | 7 => s.askZero 9 false
  | _ => s

/-- SHADOW_MISMATCH (R499, R513): the group's bit; source 9 once per group; the value in the Taken as column from then on. -/
def execShadowMismatch (g : Fin 8) (i : Fin 256) (flip : Word) (s : State) : Out :=
  .next (if flip = 0#32 then s
  else
    let s1 : State := { s with shadow := if s.shBad g i then s.shadow else (g.val, i.val) :: s.shadow }
    let s2 := s1.shadowTaken g i flip
    if s.rbit rSecShStat g then s2 else ((s2.rset rSecShStat g).recBin 0x0C 0x04 0 g 4).raise 9)

/-! ### Responses (R505–R507, R532) -/

/-- The stands of a mask that own a resource, restarted with cause ALARM (R506, R20). -/
def State.alarmStands (s : State) (src : Nat) (mask : Nat) : State :=
  s.each (members 16 (fun n => (BitVec.ofNat 16 mask).getLsbD n)) (fun s n => s.askStand n 6 src)

/-- The part FREEZE of a response requested (R506, R526). -/
def State.alarmFreeze (s : State) (src : Nat) : State :=
  if s.mode = .run ∨ s.mode = .halted then
    ({ s with sec := { s.sec with frzSrc := some (s.sec.frzSrc.getD src) } } : State).freezeTrigger 5
  else s.freezeTrigger 5

/-- ALARM_RESPONSE (R506): the response of the oldest raised source begins, with BLK_ALARM and a pulse on Q269. A block reset
abandons every other part; a zeroise waits for ZEROISE; FREEZE and STANDRST are requested. STANDRST has no effect in BOOT and
RECOVERY. -/
def execAlarmResponse (s : State) : Out :=
  .next (match s.raised with
  | [] => s
  | src :: rest =>
    let r := s.reg (rSecResp src)
    if s.mode = .halted ∨ (s.mode = .boot ∧ s.phase < 2) then s
    else if fld r 0 4 = 0 then { s with raised := rest }
    else if r.getLsbD 3 then ({ s with raised := [] } : State).alarmReset src false false
    else
      let s1 := ({ s with raised := rest } : State).pulse 269
      let s2 := if r.getLsbD 1 then s1.askZero src (r.getLsbD 0)
        else if r.getLsbD 0 then s1.alarmFreeze src else s1
      if r.getLsbD 2 ∧ s.mode = .run then s2.alarmStands src (fld r 16 16) else s2)

/-- BLK_ALARM and SEC_STAT.RESPBUSY (R506): a zeroise is due or running, or a stand restarts with cause ALARM. -/
def State.blkAlarm (s : State) : Bool :=
  decide (s.sec.zero ≠ .none) || (List.range 16).any (fun n => (BitVec.ofNat 16 (s.stand n).causes).getLsbD 6)

/-- FREEZE_ALARM (R532): in a freeze, a response with ZEROISE or BLOCKRST performs an alarm block reset at once; one with only
STANDRST or FREEZE is held until the resume, its trigger recorded. -/
def execFreezeAlarm (s : State) : Out :=
  .next (if s.mode ≠ .halted then s
  else match s.raised with
  | [] => s
  | src :: rest =>
    let r := s.reg (rSecResp src)
    if r.getLsbD 1 || r.getLsbD 3 then ({ s with raised := [] } : State).alarmReset src false false
    else
      let s1 := ({ s with raised := rest } : State)
      let s2 := if r.getLsbD 0 then s1.alarmFreeze src else s1
      if r.getLsbD 2 then { s2 with sec := { s2.sec with held := s2.sec.held ++ [src] } } else s2)

/-- LK2_FREEZE_RESET (R507): at LK2, 3,277 ACLK after a freeze completed. -/
def execLk2FreezeReset (s : State) : Out :=
  .next (if s.mode = .halted ∧ s.rfld rDbgFrzStat 0 2 = 2 ∧ (s.rfld rBcMode 10 3 = 2 ∨ s.shGroup 0) then
    s.alarmReset (s.sec.frzSrc.getD 0) true s.sec.frzSrc.isSome
  else s)

/-! ### Zeroise (R496, R508, R509) -/

/-- K replaced by K′, or by 0 with KWEAK where none is held; four words for a new K′ (R496). -/
def State.zeroKey (s : State) : State :=
  let weak := s.sp.resv.isNone
  let s0 := s.setAside s.sp.key
  let s1 : State := { s0 with sp := { s0.sp with key := s0.sp.resv.getD 0#128, resv := none } }
  let s2 := (s1.rclr rSecStat 4).recBin 0x0C 0x06 0 (b2n weak) 4
  let s3 := if weak then s2.rset rSecStat 3 else s2
  if s3.ports.tr.any (fun r => decide (r.user = .zero)) then s3 else s3.trAsk .zero 4

/-- The cipher requests of links and services are abandoned (R508), and with a link's requests what they were made for: no frame that
was still under check is taken (R65). -/
def State.abandonCipher (s : State) : State :=
  (s.cpQuit CpUser.ofUnit).each (members 4 (fun n => !(s.lk n).jobs.isEmpty)) (fun s n => s.modLk n (fun l => { l with jobs := [] }))

/-- A link of a zeroised node (R508): its stores cleared, DOWN; the new session comes with its TRNG word. -/
def State.zeroLink (s : State) (n : Nat) : State :=
  ((s.cpDrop (.link n)).lkDown n).modLk n (fun l => { l with store := [], wait := [], rstore := [], jobs := [], busy := false })

/-- ZEROISE_CLEAR (R508): once every drained stand is drained, scratchpad, channel pool and link stores are cleared under the new
key, and a FREEZE that goes with the zeroise is requested (R506). In BOOT and RECOVERY it ends the zeroise (R506). -/
def execZeroiseClear (s : State) : Out :=
  .next (if s.sec.zero ≠ .drained ∨ s.mode = .halted then s
  else
    let s1 : State := { s with
      mem := s.mem.filter (fun c => decide (s.kind.spSize ≤ c.1))
      pool := []
      chans := s.chans.map (fun c => (c.1, { c.2 with msgs := [], staged := [] }))
      sp := { s.sp with bad := [], ttStep := 0, walk := false, wclr := none, copied := if s.sp.copy.isSome then 256 else s.sp.copied, under := none, rekeyed := [] } }
    let s2 := (s1.each (members 4 (fun n => s1.lkOn n)) State.zeroLink)
    let s3 := if s.mode = .run then s2.trAsk (.session 4) 1 else s2
    let s4 := if s.sec.zfreeze then s3.alarmFreeze s.sec.zsrc else s3
    if s.mode = .run then { s4 with sec := { s4.sec with zero := .cleared, zfreeze := false } }
    else ({ s4 with sec := { s4.sec with zero := .none, zfreeze := false } } : State).rset rSecStat 2)

/-- ZEROISE_RESTORE (R508): Restore and Release of every stand that the zeroise drained, once no freeze is requested. -/
def execZeroiseRestore (stopped : List (Fin 32)) (s : State) : Out :=
  .next (if s.sec.zero ≠ .cleared ∨ s.mode ≠ .run ∨ !s.frzTrig.isEmpty then s
  else
    let s1 := s.each (members 16 (fun n => (s.stand n).zero)) (fun s n =>
      let s1 := (s.modStand n (fun d => { d with zero := false })).standRestored n
      if s1.standState n = 2 then (s1.seClocks (s1.standSes n) stopped).standGo n else s1)
    ({ s1 with sec := { s1.sec with zero := .none } } : State).rset rSecStat 2)

/-! ### The debug challenge (R510–R512) -/

/-- The debugger reaches the SEC_DBG registers (R510, R514): at LK0 and LK1. -/
def State.dbgSec (s : State) : Bool := s.sec.lockRead && !s.shGroup 0 && decide (s.rfld rBcMode 10 3 ≤ 1)

/-- A command refused in a lockout (R512). -/
def State.dbgLocked (s : State) : State := (s.rset rSecDbgStat 1).recBin 0x0C 0x05 0 1 2

/-- A failed UNLOCK (R512): FAILS, the count, the lockout, and source 13 at every third failure in a row. -/
def State.unlockFail (s : State) : State :=
  let s1 := (s.rcount rSecDbgStat 4 4 1).recBin 0x0C 0x05 0 0 2
  let run := (s.sec.failRun + 1) % 3
  let s2 : State := { s1 with sec := { s1.sec with failRun := run, lockout := min 1024 (2 ^ (s1.rfld rSecDbgStat 4 4 - 1)) } }
  if run = 0 then s2.raise 13 else s2

/-- The challenge is consumed (R511). -/
def State.dropChallenge (s : State) : State := (s.setReg (rSecDbgCh 0) 0#32).setReg (rSecDbgCh 1) 0#32

/-- The end of the tag check of an UNLOCK (R511, R512). -/
def State.unlockEnd (s : State) (stat : Nat) : State :=
  match s.sec.unlockCtl with
  | none => s
  | some _ =>
    let s1 : State := { s with sec := { s.sec with unlockCtl := none } }
    if stat = 0 then ({ s1 with sec := { s1.sec with unlocked := true, failRun := 0 } } : State).rsetFld rSecDbgStat 4 4 0 else s1.unlockFail

/-- A write to SEC_DBGCTL by the debugger (R511, R512). An UNLOCK with a newer challenge while a check runs is ignored
(notes/assumptions/46.md). -/
def State.dbgCtl (s : State) (v : Word) : State :=
  let key := decide (fld v 0 16 = 0xD3B6)
  if !s.dbgSec then s
  else match fld v 16 2 with
  | 1 => if !key then s else if 0 < s.sec.lockout then s.dbgLocked else s.trAsk .debug 2
  | 2 =>
    if 0 < s.sec.lockout then s.dbgLocked
    else if !key || !s.sec.fresh then s.unlockFail
    else if s.sec.unlockCtl.isSome then s
    else
      let s1 : State := { s.dropChallenge with sec := { s.sec with unlockCtl := some v, fresh := false } }
      s1.cpAsk { user := .debug, op := opCheck, slot := fld (s.genWord 1) 24 8, iv := leBytes 4 (s.reg rLkNodeId).toNat ++ s.regBytes rSecDbgCh 2
                 aad := leBytes 4 v.toNat ++ leBytes 4 s.aon.pcc, tag := s.regBytes rSecDbgRsp 4 }
  | 3 => if key then { s with sec := { s.sec with unlocked := false } } else s
  | _ => s

/-- NEWCH (R511). -/
def execNewch (key : BitVec 16) (s : State) : Out := .next (s.dbgCtl (BitVec.ofNat 32 (key.toNat + 2 ^ 16)))
/-- UNLOCK (R511). -/
def execUnlock (key : BitVec 16) (s : State) : Out := .next (s.dbgCtl (BitVec.ofNat 32 (key.toNat + 2 * 2 ^ 16)))
/-- RELOCK (R510). -/
def execRelock (key : BitVec 16) (s : State) : Out := .next (s.dbgCtl (BitVec.ofNat 32 (key.toNat + 3 * 2 ^ 16)))
/-- DEBUG_LOCKOUT_END (R512). -/
def execDebugLockoutEnd (s : State) : Out := .next { s with sec := { s.sec with lockout := 0 } }

/-! ### Registers -/

/-- A read of a SEC register: live fields. -/
def State.secRead (s : State) (a : Nat) : Word :=
  if a = rSecStat then putBit (putBit (s.reg a) 0 s.blkAlarm) 1 (decide (s.sec.zero = .drained) || decide (s.sec.zero = .cleared) ||
    (List.range 16).any (fun n => (s.stand n).zero))
  else if a = rSecDbgStat then
    setFld (putBit (s.reg a) 0 (s.sec.unlocked && decide (s.rfld rBcMode 10 3 = 1))) 16 10
      s.sec.lockout
  else s.reg a

/-- A write to a SEC register that is not of the debug challenge (17_protection_and_alarms.md, Registers). -/
def State.secWrite (s : State) (m : Master) (a : Nat) (v : Word) : State :=
  if a = rSecAlStat then s.alClear m (fld v 0 8)
  else if !s.maint m then s
  else if a = rSecStat then s.modReg a (fun w => w &&& ~~~ (v &&& 4#32))
  else if a = rSecInStat then s.modReg a (fun w => w &&& ~~~ (v &&& 0xFF00#32))
  else s

/-- A write to a register of the debug challenge, by the debugger (R511). -/
def State.secDbgWrite (s : State) (a : Nat) (v : Word) : State :=
  if a = rSecDbgCtl then s.dbgCtl v
  else if (List.range 4).any (fun i => decide (a = rSecDbgRsp i)) then s.setReg a v
  else if a = rSecDbgStat then s.modReg a (fun w => w &&& ~~~ (v &&& 2#32))
  else s

end Machine
end Sys2Proof
end

