-- ==== Sys2Proof/Machine/Loader.lean ====
section
/-! DEFINITION. The image loader (R134–R137, R147–R150), and the commands that burn OTP (R123–R130). -/
namespace Sys2Proof
namespace Machine

/-! ### Bytes that have arrived -/

/-- The data of the records of a section of program images or of initial data, as far as it is here (R136). -/
def loadedRecs (b : List Byte) (prog : Bool) : Nat → Nat → List (Nat × List Byte)
  | 0, _ => []
  | k + 1, p =>
    let at4 (o : Nat) : Nat := leNat ((b.drop (p + o)).take 4)
    let hdr := if prog then 12 else 8
    let nb := at4 (if prog then 8 else 4)
    if b.length < p + hdr then []
    else (if prog then 0x400000 + (at4 0 % 8) * 0x20000 + at4 4 else at4 0, (b.drop (p + hdr)).take nb) ::
      loadedRecs b prog k (p + hdr + up4 nb)

/-- The memory contents that the bytes of an image carry so far (R133, R136). -/
def loadedBytes (b : List Byte) : Nat → Nat → List (Nat × List Byte)
  | 0, _ => []
  | k + 1, p =>
    let h := (b.drop p).take 8
    if h.length < 8 then []
    else
      let ty := leNat (h.take 1)
      let n := leNat ((h.drop 2).take 2)
      -- initial data follows the section's 4-byte preamble of SPAREPAGES and its 4-byte lap alarm
      (if ty = 3 then loadedRecs b true n (p + 8) else if ty = 9 then loadedRecs b false n (p + 16) else []) ++
        loadedBytes b k (p + 8 + leNat (h.drop 4))

/-- The loader's writes of program bytes and initial data (R136). -/
def State.loadMem (s : State) (b : List Byte) : State :=
  (loadedBytes b (leNat ((b.drop 19).take 1)) 64).foldl (fun (s : State) r => s.writeBytes r.1 r.2) s

/-- The image that bytes make, by this block's OTP. -/
def State.parse (s : State) (b : List Byte) : Parse Image := parseImage b s.kind s.arbFloor (s.genWord 0) s.zoneOtp

/-! ### Loads -/

/-- The running load. -/
def State.setLoad (s : State) (l : Option Load) : State := { s with boot := { s.boot with load := l } }
/-- The boot sources in order (R134). -/
def State.loadSrcs (s : State) : List Nat :=
  match fld (s.genWord 2) 0 2 with
  | 0 => [1]
  | 1 => [2]
  | 2 => [1, 2]
  | _ => [2, 1]
/-- BC_IMGSTAT.STATE. -/
def State.imgState (s : State) : Nat := s.rfld rBcImgStat 0 3
/-- BC_IMGSTAT.STATE written. -/
def State.setImgState (s : State) (v : Nat) : State := s.rsetFld rBcImgStat 0 3 v
/-- BC_IMGSTAT.BYTES written. -/
def State.setImgBytes (s : State) (n : Nat) : State := s.rsetFld rBcImgStat 8 24 (min 16777215 n)

/-- A RECOV frame of this node in answer to a request (R464). -/
def State.recovSay (s : State) (n : Nat) (dst : Word) (op tag status : Nat) (ws : List Word) : State :=
  s.lkEnter n { ty := .recov, src := 4, f :=
    { dst := dst, src := s.nodeId, ttl := max 1 (s.rfld rLkGCfg 0 8)
      payload := bytesOf (BitVec.ofNat 32 (op + tag * 2 ^ 8 + status * 2 ^ 16) :: ws) } }

/-- A load that fails (R114, R134, R149): the other source is tried; in BOOT the phase fails; in RECOVERY the memories are refilled and the
block stays there. `say`: a link stream is answered 0x84 (R464). -/
def State.loadFail (s : State) (l : Load) (code off : Nat) (say : Bool) : State :=
  let s0 := if code = 0x31 then s.rset rXpNvStat 4 else s
  match (if l.src ≠ 3 ∧ !l.second ∧ 0x31 ≤ code ∧ code ≤ 0x3B then s.loadSrcs[1]? else none) with
  | some x =>
    let s1 := (s0.fill).setLoad (some { src := x, second := true })
    if s.mode = .recovery then s1.setImgState 3 else s1
  | none =>
    if s.mode = .boot then s0.bootFail code l.src off
    else
      let s1 := (((({ s0.fill.zonesBlank with phase := 3 } : State).setLoad none).bootErr code l.src off)).setImgState 0
      match l.link with
      | some (n, dst, tag) => if say then s1.recovSay n dst 0x84 tag 0 [BitVec.ofNat 32 code] else s1
      | none => s1

/-- Bytes of the image taken (R135–R137): what they carry is written; a broken rule fails the load; once all are here the tag is
checked under IMGSLOT. -/
def State.loadTake (s : State) (l : Load) (b : List Byte) : State :=
  let l1 := { l with bytes := b }
  match s.parse b with
  | .error none => ((s.setLoad (some l1)).setImgBytes b.length).loadMem b
  | .error (some e) => (s.setImgBytes (if l.src = 3 then b.length else e.2 + 1)).loadFail l1 e.1 e.2 true
  | .ok im =>
    let s1 := ((s.setLoad (some { l1 with image := some { im with source := l.src } })).setImgBytes im.length).loadMem b
    (if s.mode = .recovery then s1.setImgState 4 else s1).cpAsk
      { user := .image, op := opCheck, slot := fld (s.genWord 1) 0 8, iv := (b.drop 0x18).take 12, aad := b.take (im.length - 16)
        tag := (b.drop (im.length - 16)).take 16 }

/-- The first `n` bytes that a memory presents; past the bytes named by the command it presents erased ones (R562). -/
def padTo (n : Nat) (b : List Byte) : List Byte := b.take n ++ List.replicate (n - b.length) 0xFF#8

/-- The read mode (R70): 1 for 1-1-1, 2 for 1-1-4, 3 for 1-4-4, with QEOFF and the dummy count. -/
def State.nvMode (s : State) (nv : NvRead) : Nat × Bool × Nat :=
  if !nv.sfdp then (1, false, 0)
  else
    let m := if nv.q144 && s.rbit rXpNvCfg 6 then 3 else if nv.q114 && s.rbit rXpNvCfg 5 then 2 else 1
    if m = 1 then (1, false, 8) else if !nv.qe then (1, true, 8) else (m, false, if m = 3 then nv.dummy.toNat else 8)

/-- The commands of a serial NVM read (R69–R71): the reset sequence and 0xAB, SFDP, the status read for the quad-enable bit where the
fastest mode is quad, then the header's read and the rest's, with the command of the mode. -/
def State.nvCmds (s : State) (nv : NvRead) (m : Nat × Bool × Nat) (rest : Bool) : List NvCmd :=
  let a := fld (s.genWord 3) 0 24
  let quad := nv.sfdp && ((nv.q144 && s.rbit rXpNvCfg 6) || (nv.q114 && s.rbit rXpNvCfg 5))
  let rd (at_ : Nat) : NvCmd :=
    if !nv.sfdp then { code := 0x03, addr := some at_ }
    else if m.1 = 3 then { code := 0xEB, addr := some at_, dummy := 2 + m.2.2, lines := (1, 4, 4) }
    else if m.1 = 2 then { code := 0x6B, addr := some at_, dummy := 8, lines := (1, 1, 4) }
    else { code := 0x0B, addr := some at_, dummy := 8 }
  [{ code := 0x66 }, { code := 0x99 }, { code := 0xAB }, { code := 0x5A, addr := some 0, dummy := 8 }] ++
  (if quad then [{ code := if nv.q35 then 0x35 else 0x05 }] else []) ++
  (if !nv.sfdp && s.rbit rXpNvCfg 8 then [] else rd a :: (if rest then [rd (a + 64)] else []))

/-- The serial NVM read (R69–R71, R135, R562). -/
def State.loadNvm (s : State) (l : Load) (nv : NvRead) : State :=
  let m := s.nvMode nv
  let whole := match parseHeader (padTo 64 nv.bytes) s.kind s.arbFloor (s.genWord 0) with
    | .ok _ => true
    | .error _ => false
  let s : State := { s with ports := { s.ports with nvOut := s.nvCmds nv m whole } }
  let s1 := s.modReg rXpNvStat (fun w =>
    putBit (putBit (setFld (setFld w 0 2 m.1) 8 8 m.2.2) 2 nv.sfdp) 3 (w.getLsbD 3 || m.2.1))
  if !nv.sfdp && s.rbit rXpNvCfg 8 then ((s.rclr rXpNvStat 2).setImgBytes 0).loadFail l 0x31 0 false
  else
    let hdr := padTo 64 nv.bytes
    let ans := parseHeader hdr s.kind s.arbFloor (s.genWord 0)
    let early := match ans with
      | .error (some e) => decide (e.2 < 8)
      | _ => false
    if !early && decide (2 ^ 24 < fld (s.genWord 3) 0 24 + leNat ((hdr.drop 8).take 4)) then (s1.setImgBytes 9).loadFail l 0x31 8 false
    else match ans with
      | .ok (im, _) => s1.loadTake l (padTo im.length nv.bytes)
      | .error _ => s1.loadTake l hdr

/-- An array read of a 32-byte unit issued (R53). -/
def State.flRead (s : State) (addr retries : Nat) : State :=
  { s with ports := { s.ports with flash := .read addr retries false, flOut := [{ we := false, reg := false, addr := BitVec.ofNat 32 addr }] } }

/-- IMAGE_LOAD (R134, R135): the read of the boot source, in P3 or for a source load (R148). Chip flash is read unit by unit
(FLASH_READ_RESPONSE). -/
def execImageLoad (nv : NvRead) (s : State) : Out :=
  .next (
    let l : Option Load := match s.boot.load with
      | some l => if l.src ≠ 3 ∧ l.image.isNone ∧ l.bytes.isEmpty ∧ !l.ok then some l else none
      | none => if s.mode = .boot ∧ s.phase = 3 then some { src := s.loadSrcs.headD 1 } else none
    match l with
    | none => s
    | some l =>
      if l.src = 1 then s.loadNvm l nv
      else if s.ports.flash = .none then (s.setLoad (some l)).flRead (s.genWord 4).toNat 0
      else s)

/-- The end of an array read (R58, R59). -/
def State.flashReadEnd (s : State) (addr retries : Nat) (data : Option (List Byte)) : State :=
  let s1 := ((s.setFlash .none).rsetFld rXpFlStat 16 4 retries)
  match s.boot.load with
  | none => s1
  | some l =>
    match data with
    | none => (s1.rset rXpFlStat 2).loadFail l 0x32 l.bytes.length false
    | some d =>
      let s2 := s1.loadTake l (l.bytes ++ padTo 32 d)
      if s2.boot.load.any (fun k => k.src = 2 && k.image.isNone && !k.bytes.isEmpty) then s2.flRead (addr + 32) 0 else s2

/-- FLASH_READ_RESPONSE (R58): OK, INDET (retried up to 8 times), ERR. -/
def execFlashReadResponse (stat : Fin 4) (data : List Byte) (s : State) : Out :=
  .next (match s.ports.flash with
  | .read addr r false =>
    if !s.flashOn then s
    else if stat = 0 then s.flashReadEnd addr r (some data)
    else if stat = 1 then
      let s1 := s.rset rXpFlStat 1
      if r < 8 then s1.setFlash (.read addr r true) else s1.flashReadEnd addr r none
    else s.flashReadEnd addr r none
  | _ => s)

/-- FLASH_INDET_RETRY (R58). -/
def execFlashIndetRetry (s : State) : Out :=
  .next (match s.ports.flash with
  | .read addr r true => if s.flashOn then (s.flRead addr (r + 1)).rsetFld rXpFlStat 16 4 (r + 1) else s
  | _ => s)

/-- The end of the image's tag check (R135, R137, R115): OK; failed after its re-issue or a refused slot; AUTHFAIL. -/
def State.imageEnd (s : State) (stat : Nat) : State :=
  match s.boot.load with
  | some l =>
    match l.image with
    | some im =>
      if stat = 0 then s.setLoad (some { l with ok := true })
      else s.loadFail l (if stat = 2 then 0x38 else 0x39) (im.length - 16) true
    | none => s
  | none => s

/-- The image check is re-issued (R66): the read starts again at the same source. -/
def State.imageAgain (s : State) : State :=
  match s.boot.load with
  | some l =>
    let s1 := s.setLoad (some { l with bytes := [], image := none, again := true })
    if s.mode = .recovery then s1.setImgState 3 else s1
  | none => s

/-- IMAGE_COMMIT (R136, R112): P4 begins in BOOT; in RECOVERY acceptance follows. -/
def execImageCommit (s : State) : Out :=
  .next (match s.boot.load with
  | some l =>
    match l.image with
    | some im =>
      if !l.ok then s
      else
        let s1 := (s.commitImage im).rsetFld rBcBootErr 8 2 l.src
        if s.mode = .boot then { s1.setLoad none with phase := 4 } else s1.setLoad (some { l with image := none })
    | none => s
  | none => s)

/-- IMAGE_ACCEPT (R149): BOOT at P4; the recovery link goes DOWN (R465). P4 restores the recorder only where a reset asked for it
(DESIGN CHOICE, notes/assumptions/70.md). -/
def execImageAccept (s : State) : Out :=
  .next (match s.boot.load with
  | some l =>
    if s.mode = .recovery ∧ l.ok ∧ l.image.isNone then
      ({ s with mode := .boot, phase := 4, boot := { s.boot with load := none, locked := false }, links := [], recovQ := [] } : State).setImgState 0
    else s
  | none => s)

/-! ### BC_IMGCTL (R147, R150) -/

/-- A stream or source load begins (R148). -/
def State.loadBegin (s : State) (l : Load) (st : Nat) : State := (((s.fill).setLoad (some l)).setImgState st).setImgBytes 0

/-- SRCLOAD's load (R147). -/
def State.srcLoad (s : State) : State := s.loadBegin { src := s.loadSrcs.headD 1 } 3

/-- The writers of R147, command by command. -/
def State.imgWriter (s : State) (m : Master) (cmd : Nat) : Bool :=
  match m with
  | .thread t => decide (cmd = 1) && s.maint (.thread t)
  | .host sec priv => sec && priv
  | .link sec _ => decide (cmd = 1) && sec
  | .recov => decide (cmd = 2) || decide (cmd = 4)
  | .debugger => s.dbgOpen

/-- The check of a command token (R127): IV NODEID and nonce; AAD the command word, PCC and the payload; TAG BC_TOKEN. -/
def State.tokenReq (s : State) (v : Word) (payload : Nat) (rel : Nat) : CpReq :=
  { user := .command, op := opCheck, slot := fld (s.genWord 1) 8 8, dslot := rel, iv := leBytes 4 (s.reg rLkNodeId).toNat ++ s.regBytes rBcNonce 2
    aad := leBytes 4 v.toNat ++ leBytes 4 s.aon.pcc ++ s.regBytes rOtpStage payload, tag := s.regBytes rBcToken 4 }

/-- A write to BC_IMGCTL (R147, R129, R150). -/
def State.imgCtl (s : State) (m : Master) (v : Word) : State :=
  let refused := s.rset rBcImgStat 6
  let cmd := fld v 16 4
  let denied := match m with
    | .host sec priv => !(sec && priv)
    | _ => false
  if denied then s
  else if fld v 0 16 ≠ 0x1A6E ∨ cmd = 0 ∨ 4 < cmd then refused
  else if s.boot.otp.isSome then refused.rset rBcImgStat 4
  else if !s.imgWriter m cmd ∨ s.mode ≠ (if cmd = 1 then .run else .recovery) then refused
  else match cmd with
    | 1 =>
      if s.boot.reload.isSome then refused
      else ({ s with boot := { s.boot with reload := some v } } : State).cpAsk (s.tokenReq v 0 1)
    | 2 => if s.imgState ≠ 0 then refused.rset rBcImgStat 3 else s.srcLoad
    | 3 => if s.imgState ≠ 0 then refused.rset rBcImgStat 3 else s.loadBegin { src := 3 } 1
    | _ =>
      match s.boot.load with
      | some l =>
        if s.imgState = 1 ∨ s.imgState = 3 then (s.setFlash .none).loadFail { l with second := true } 0x3C l.bytes.length false else s
      | none => s

/-- RELOAD (R147): its token is checked first. -/
def execReload (m : Master) (key : BitVec 16) (auto : Bool) (s : State) : Out :=
  .next (s.gated (s.imgCtl m (BitVec.ofNat 32 (key.toNat + 2 ^ 16 + b2n auto * 2 ^ 20))))
/-- SRCLOAD (R147). -/
def execSrcload (m : Master) (key : BitVec 16) (s : State) : Out := .next (s.gated (s.imgCtl m (BitVec.ofNat 32 (key.toNat + 2 * 2 ^ 16))))
/-- STREAM (R147). -/
def execStream (m : Master) (key : BitVec 16) (s : State) : Out := .next (s.gated (s.imgCtl m (BitVec.ofNat 32 (key.toNat + 3 * 2 ^ 16))))
/-- IMG_ABORT (R147). -/
def execImgAbort (m : Master) (key : BitVec 16) (s : State) : Out := .next (s.gated (s.imgCtl m (BitVec.ofNat 32 (key.toNat + 4 * 2 ^ 16))))

/-- A write to BC_IMGIN (R148). -/
def State.imgIn (s : State) (v : Word) : State :=
  match s.boot.load with
  | some l => if s.imgState = 1 then s.loadTake l (l.bytes ++ leBytes 4 v.toNat) else s
  | none => s
/-- BC_IMGIN_WRITE (R148). A host without HP_SEC and HP_PRIV is denied by R497. -/
def execBcImginWrite (m : Master) (v : Word) (s : State) : Out :=
  .next (s.gated (match m with
  | .host sec priv => if sec && priv then s.imgIn v else s
  | _ => s.imgIn v))

/-- STREAM_IDLE_TIMEOUT (R148). -/
def execStreamIdleTimeout (s : State) : Out :=
  .next (s.gated (match s.boot.load with
  | some l => if s.imgState = 1 ∨ s.imgState = 2 then s.loadFail l 0x3C l.bytes.length false else s
  | none => s))

/-- The operations STREAM, IMAGE and ABORT of a RECOV frame (R464), with the response where there is one. -/
def State.recovLoad (s : State) (n op tag : Nat) (src : Word) (data : List Byte) : State :=
  match op with
  | 3 =>
    let refused := s.rset rBcImgStat 6
    let s1 := if s.boot.otp.isSome then refused.rset rBcImgStat 4
      else if s.imgState ≠ 0 then refused.rset rBcImgStat 3
      else s.loadBegin { src := 3, link := some (n, src, tag) } 2
    s1.recovSay n src 0x83 tag 0 []
  | 4 =>
    (match s.boot.load with
    | some l => if s.imgState = 2 then s.loadTake { l with link := some (n, src, tag) } (l.bytes ++ data) else s
    | none => s)
  | _ =>
    let s1 := match s.boot.load with
      | some l => if s.imgState = 2 then s.loadFail l 0x3C l.bytes.length false else s
      | none => s
    s1.recovSay n src 0x85 tag 0 []

/-! ### OTP commands (R123, R126–R130) -/

/-- The writers of R126. -/
def State.otpWriter (s : State) (m : Master) (cmd : Nat) : Bool :=
  match m with
  | .thread t => decide (cmd = 2) && s.maint (.thread t)
  | .host sec priv => sec && priv
  | .recov => decide (cmd ≠ 2)
  | .debugger => decide (cmd = 6) && decide (s.mode = .test)
  | .link _ _ => false

/-- The modes of R126. -/
def otpMode (cmd : Nat) (m : Mode) : Bool :=
  match cmd with
  | 2 => decide (m = .run)
  | 6 => decide (m = .recovery) || decide (m = .test)
  | _ => decide (m = .recovery)

/-- The steps of a command (R123, R124, R128, R130), or none where its target is burned, locked or exhausted (R126). -/
def State.otpSteps (s : State) (cmd zone : Nat) : Option (List (Nat × Word)) :=
  let lock (b : Nat) : Option (List (Nat × Word)) :=
    if s.lockWord.getLsbD b then none else some ((List.range 4).map (fun k => (0x124 + k, BitVec.ofNat 32 (2 ^ b))))
  match cmd with
  | 1 =>
    (match s.blankGen with
    | none => none
    | some g =>
      let ws := (List.range 31).map (fun i => s.reg (rOtpStage i))
      some ((List.range 32).map (fun i => (0x80 + 32 * g + i, (ws ++ [crcWords ws]).getD i 0#32))))
  | 2 =>
    let f := s.arbFloor
    let e := match s.image with
      | some im => im.epoch
      | none => 0
    some ((List.range (e - f)).map (fun i =>
      let k := f + i
      [(0x120 + k / 32, BitVec.ofNat 32 (2 ^ (k % 32))), (0x122 + k / 32, BitVec.ofNat 32 (2 ^ (k % 32)))])).flatten
  | 3 => lock 0
  | 4 => lock 1
  | 5 =>
    if (s.fuse (0x128 + 4 * zone + 3)).getLsbD 0 || (s.fuse (0x128 + 4 * zone + 3)).getLsbD 1 then none
    else some ((List.range 3).map (fun i => (0x128 + 4 * zone + i, s.reg (rOtpStage i))) ++ [(0x128 + 4 * zone + 3, 3#32)])
  | _ => lock 2

/-- A command's end (R128): read-back; BURNGEN and ZONEBURN wrote whole words. -/
def State.otpEnd (s : State) (o : OtpOp) : State :=
  let whole := decide (fld o.ctl 16 4 = 1) || decide (fld o.ctl 16 4 = 5)
  let ok := o.all.all (fun p => if whole then decide (s.fuse p.1 = p.2) else decide (s.fuse p.1 &&& p.2 = p.2))
  let s1 : State := { s with boot := { s.boot with otp := none } }
  if ok then (s1.loadMirror).rset rOtpStat 21 else s1.rset rOtpStat 22

/-- A command whose token, if any, is right: its steps begin. -/
def State.otpBurn (s : State) (o : OtpOp) : State :=
  if o.steps.isEmpty then s.otpEnd o else { s with boot := { s.boot with otp := some { o with check := false } } }

/-- A write to OTP_CTL (R126, R127, R129). -/
def State.otpCtl (s : State) (m : Master) (v : Word) : State :=
  let refused := s.rset rOtpStat 24
  let cmd := fld v 16 4
  let denied := match m with
    | .host sec priv => !(sec && priv)
    | _ => false
  if denied then s
  else if fld v 0 16 ≠ 0xA17C ∨ cmd = 0 ∨ 6 < cmd then refused
  else if s.imgState ≠ 0 then s.rset rOtpStat 23
  else if s.boot.otp.isSome ∨ !otpMode cmd s.mode ∨ !s.otpWriter m cmd then refused
  else match s.otpSteps cmd (fld v 20 3) with
    | none => refused
    | some st =>
      let o : OtpOp := { ctl := v, check := decide (cmd ≠ 2) && !(decide (cmd = 6) && decide (s.mode = .test)), steps := st, all := st }
      if o.check then
        ({ s with boot := { s.boot with otp := some o } } : State).cpAsk (s.tokenReq v (if cmd = 1 then 31 else if cmd = 5 then 3 else 0) 0)
      else s.otpBurn o

/-- BURNGEN (R128). -/
def execBurngen (m : Master) (key : BitVec 16) (s : State) : Out := .next (s.gated (s.otpCtl m (BitVec.ofNat 32 (key.toNat + 2 ^ 16))))
/-- ARBRAISE (R123). -/
def execArbraise (m : Master) (key : BitVec 16) (s : State) : Out := .next (s.gated (s.otpCtl m (BitVec.ofNat 32 (key.toNat + 2 * 2 ^ 16))))
/-- LOCK1 (R126). -/
def execLock1 (m : Master) (key : BitVec 16) (s : State) : Out := .next (s.gated (s.otpCtl m (BitVec.ofNat 32 (key.toNat + 3 * 2 ^ 16))))
/-- LOCK2 (R126). -/
def execLock2 (m : Master) (key : BitVec 16) (s : State) : Out := .next (s.gated (s.otpCtl m (BitVec.ofNat 32 (key.toNat + 4 * 2 ^ 16))))
/-- ZONEBURN (R126). -/
def execZoneburn (m : Master) (key : BitVec 16) (zone : Fin 8) (s : State) : Out :=
  .next (s.gated (s.otpCtl m (BitVec.ofNat 32 (key.toNat + 5 * 2 ^ 16 + zone.val * 2 ^ 20))))
/-- TESTDIS (R126). -/
def execTestdis (m : Master) (key : BitVec 16) (s : State) : Out := .next (s.gated (s.otpCtl m (BitVec.ofNat 32 (key.toNat + 6 * 2 ^ 16))))

/-- OTP_BURN_STEP_DONE (R130): the step's bits are burned but for `missed`; a freeze lets the step in progress complete and no
further one, and the command ends after the resume. -/
def execOtpBurnStepDone (missed : Word) (s : State) : Out :=
  .next (match s.boot.otp with
  | none => s
  | some o =>
    match o.steps with
    | [] => s
    | (w, bits) :: rest =>
      if o.check ∨ o.stepped then s
      else
        let s1 : State := { s with otp := Bank.put (fun _ => 0#32) s.otp w (s.fuse w ||| (bits &&& ~~~ missed)) }
        if rest.isEmpty ∧ s.mode ≠ .halted then s1.otpEnd o
        else { s1 with boot := { s1.boot with otp := some { o with steps := rest, stepped := decide (s.mode = .halted) } } })

/-- The end of a token check (R127): the nonce is renewed; a failed check sets TOKBAD. `rel`: the RELOAD command's; answers the state and
whether RELOAD now acts. -/
def State.tokenEnd (s : State) (rel : Bool) (stat : Nat) : State × Option Word :=
  let s1 := s.trAsk .nonce 2
  if rel then
    match s.boot.reload with
    | none => (s1, none)
    | some v =>
      let s2 : State := { s1 with boot := { s1.boot with reload := none } }
      if stat = 0 then (s2, some v) else (s2.rset rBcImgStat 5, none)
  else
    match s.boot.otp with
    | none => (s1, none)
    | some o =>
      if stat = 0 then (s1.otpBurn o, none)
      else (({ s1 with boot := { s1.boot with otp := none } } : State).rset rOtpStat 25, none)

end Machine
end Sys2Proof
end

