-- ==== Sys2Proof/Machine/RegMap.lean ====
section
/-! DEFINITION. The register map as masters meet it: which addresses are registers, each register's fields by access type (R8–R13),
reads and writes with their effects, the attribute check (R497) and rejected writes (R554–R557). The DBG unit is in
Machine/Debug.lean. -/
namespace Sys2Proof
namespace Machine

/-! ### Access types (R10) -/

/-- The fields of a register by access type, as masks; every other bit is RO or not listed. -/
structure RegKind where
  rw : Word := 0#32
  rwl : Word := 0#32
  w1c : Word := 0#32
  rc : Word := 0#32
  wo : Word := 0#32
  deriving DecidableEq, Repr

/-- Registers of one kind: the first address, the stride, how many. -/
structure RegRow where
  base : Nat
  stride : Nat := 4
  count : Nat := 1
  kind : RegKind := {}
  deriving DecidableEq, Repr

/-- All bits. -/
def allBits : Word := 0xFFFFFFFF#32

/-- BC and STC. -/
def rowsBc : List RegRow := [
  { base := 0x600000, count := 3 }, { base := 0x600010, count := 2 }, { base := 0x600018, kind := { w1c := 0xC0000000#32 } },
  { base := 0x60001C, kind := { rc := 0xFFFF#32 } }, { base := 0x600020, count := 6 },
  { base := 0x600038, count := 6, kind := { wo := allBits } }, { base := 0x600050, kind := { w1c := 0x78#32 } }, { base := 0x600054 },
  { base := 0x601000, stride := 0x80, count := 16, kind := { rwl := 0xFFFFF73F#32 } },
  { base := 0x601004, stride := 0x80, count := 16, kind := { w1c := 0x18#32 } },
  { base := 0x601008, stride := 0x80, count := 16, kind := { wo := allBits } },
  { base := 0x60100C, stride := 0x80, count := 16, kind := { wo := allBits } },
  { base := 0x601010, stride := 0x80, count := 16, kind := { w1c := 0xFF#32 } },
  { base := 0x601014, stride := 0x80, count := 16 }, { base := 0x601800, kind := { rwl := 0x3FF#32 } }]

/-- Engines, 4 KiB each. -/
def rowsE : List RegRow := [
  { base := 0x610000, stride := 0x1000, count := 8, kind := { rwl := 0x00FF00FF#32 } },
  { base := 0x610004, stride := 0x1000, count := 8 }, { base := 0x610008, stride := 0x1000, count := 8 },
  { base := 0x61000C, stride := 0x1000, count := 8 },
  { base := 0x610010, stride := 0x1000, count := 8, kind := { rc := allBits } },
  { base := 0x610014, stride := 0x1000, count := 8, kind := { rc := allBits } },
  { base := 0x610018, stride := 0x1000, count := 8, kind := { w1c := allBits } }] ++
  (List.range 8).map (fun e => { base := rE e 0x100, count := 16, kind := { rc := allBits } }) ++
  (List.range 8).map (fun e => { base := rE e 0x200, count := 16 })

/-- Channels. -/
def rowsMc : List RegRow := [
  { base := 0x620000, stride := 8, count := 4096 }, { base := 0x620004, stride := 8, count := 4096, kind := { w1c := 0x38000000#32 } },
  { base := 0x628000, kind := { w1c := 0xB#32 } }, { base := 0x628004, kind := { rc := allBits } },
  { base := 0x628010, count := 4 }, { base := 0x628020, count := 4 }, { base := 0x628040 },
  { base := 0x628044, kind := { rc := allBits } }, { base := 0x628050, kind := { rw := 0x1FFF#32 } }, { base := 0x628054 },
  { base := 0x629000, stride := 0x10, count := 16, kind := { wo := allBits } },
  { base := 0x629004, stride := 0x10, count := 16, kind := { wo := allBits } },
  { base := 0x629008, stride := 0x10, count := 16, kind := { rc := allBits } }, { base := 0x62900C, stride := 0x10, count := 16 }]

/-- A register of every shift engine. -/
def rowSe (off : Nat) (k : RegKind) : RegRow := { base := 0x630000 + off, stride := 0x400, count := 32, kind := k }
/-- Shift engines. -/
def rowsSe : List RegRow := [
  rowSe 0x00 { rw := 1#32, rwl := 0x7FFFFFFE#32 }, rowSe 0x04 { rwl := 0xBFFFFFFF#32 }, rowSe 0x08 {}, rowSe 0x0C { w1c := 0x3F00#32 },
  rowSe 0x10 { rw := 0x1F#32 }, rowSe 0x14 { rw := allBits }, rowSe 0x18 { rw := allBits }, rowSe 0x1C {}, rowSe 0x20 {}, rowSe 0x24 {},
  rowSe 0x28 {}, rowSe 0x2C { w1c := 0xF#32 }, rowSe 0x30 { rc := allBits }, rowSe 0x34 { rc := allBits },
  rowSe 0x38 { rwl := 0x3F3F3F#32 }, rowSe 0x3C { rwl := allBits }, rowSe 0x40 {}, rowSe 0x44 { rw := 0x1F01#32 },
  rowSe 0x48 { rc := allBits }, rowSe 0x4C { rwl := allBits }, rowSe 0x50 { rwl := allBits }, rowSe 0x54 { rwl := allBits },
  rowSe 0x58 { rwl := allBits }] ++
  (List.range 32).map (fun i => rowSe (0x80 + 4 * i) { rw := 0xFFFF#32 }) ++
  (List.range 32).map (fun i => rowSe (0x100 + 4 * i) { w1c := 0x80000000#32 }) ++
  (List.range 16).map (fun i => rowSe (0x200 + 4 * i) {})

/-- A register of every timer: the even timers' and the odd ones'. -/
def rowTm (off : Nat) (k : RegKind) : List RegRow := [
  { base := 0x640100 + off, stride := 0x80, count := 32, kind := k }, { base := 0x640104 + off, stride := 0x80, count := 32, kind := k }]
/-- Timers and block time. -/
def rowsTm : List RegRow := [
  { base := 0x640000, count := 4 }, { base := 0x640010, count := 3, kind := { rw := allBits } }, { base := 0x64001C },
  { base := 0x640020, kind := { rw := 0x7FF3#32 } }, { base := 0x640024, kind := { rw := 0xFFFFFFF#32 } },
  { base := 0x640028, kind := { rw := allBits } }, { base := 0x64002C, kind := { w1c := 0x35#32 } }, { base := 0x640030, count := 3 },
  { base := 0x640040, count := 2, kind := { rw := allBits } }, { base := 0x640048, kind := { wo := allBits } },
  { base := 0x64004C, kind := { w1c := 6#32 } }] ++
  rowTm 0x00 { rw := 9#32, rwl := 0xFFFF0006#32 } ++ rowTm 0x08 {} ++ rowTm 0x10 { rw := allBits } ++ rowTm 0x18 {} ++
  rowTm 0x20 { rw := allBits } ++ rowTm 0x28 { w1c := 0xF#32 }

/-- Event routes. -/
def rowsEv : List RegRow := [
  { base := 0x650000, stride := 0x10, count := 256 }, { base := 0x650004, stride := 0x10, count := 256, kind := { w1c := 7#32 } },
  { base := 0x650008, stride := 0x10, count := 256, kind := { rc := allBits } }, { base := 0x651000 },
  { base := 0x651004, kind := { wo := allBits } }, { base := 0x651008, kind := { w1c := 7#32 } }, { base := 0x651020, count := 16 },
  { base := 0x651060, kind := { w1c := 1#32 } }, { base := 0x651064, kind := { rc := allBits } }, { base := 0x652000, count := 2048 }]

/-- Scratchpad control. -/
def rowsSp : List RegRow := [
  { base := 0x660000, kind := { rw := 0xF03#32 } }, { base := 0x660004, kind := { rw := allBits } },
  { base := 0x660008, kind := { w1c := 0x1FF#32 } }, { base := 0x66000C }, { base := 0x660010, kind := { rc := allBits } }, { base := 0x660014 },
  { base := 0x660020, kind := { rc := allBits } }, { base := 0x660024, kind := { w1c := 0xC0000000#32 } },
  { base := 0x660028, kind := { rc := 0xFFFFFF#32 } }, { base := 0x66002C, count := 2, kind := { wo := allBits } },
  { base := 0x660034, kind := { w1c := 0xF0000#32 } }, { base := 0x660038 }, { base := 0x660040, kind := { wo := allBits } },
  { base := 0x660044, kind := { w1c := 6#32 } }, { base := 0x660048, count := 3 }, { base := 0x660100, count := 64 },
  { base := 0x660200, stride := 0x10, count := 8, kind := { rw := 0xFFF000#32 } },
  { base := 0x660204, stride := 0x10, count := 8, kind := { rw := 0xFFF000#32 } },
  { base := 0x660208, stride := 0x10, count := 8, kind := { rw := 0xF#32 } }]

/-- Pins and governor. -/
def rowsPg : List RegRow := [
  { base := 0x670000, stride := 8, count := 192, kind := { rw := 0x3F#32 } },
  { base := 0x670004, stride := 8, count := 192, kind := { w1c := 0xF00#32 } }, { base := 0x670600, count := 192 },
  { base := 0x670900, count := 6 }, { base := 0x670A00, stride := 0x20, count := 8 }, { base := 0x670A04, stride := 0x20, count := 8 },
  { base := 0x670A08, stride := 0x20, count := 8 }, { base := 0x670A0C, stride := 0x20, count := 8 },
  { base := 0x670A10, stride := 0x20, count := 8 }, { base := 0x670A14, stride := 0x20, count := 8, kind := { rc := allBits } },
  { base := 0x670A18, stride := 0x20, count := 8 }, { base := 0x670A1C, stride := 0x20, count := 8, kind := { w1c := 0x1F#32 } },
  { base := 0x670B00, kind := { w1c := 1#32 } }]

/-- A register of every link. -/
def rowLk (off : Nat) (k : RegKind) : RegRow := { base := 0x680000 + off, stride := 0x400, count := 4, kind := k }
/-- Links. -/
def rowsLk : List RegRow := [
  rowLk 0x00 {}, rowLk 0x04 {}, rowLk 0x08 { rw := 0xFFFFFF03#32 }, rowLk 0x0C { w1c := 0x1F0#32 }, rowLk 0x10 {}, rowLk 0x14 {},
  rowLk 0x18 { rc := allBits }, rowLk 0x1C { rc := allBits }, rowLk 0x20 { rc := allBits }, rowLk 0x24 { rc := allBits },
  rowLk 0x28 { rc := allBits }, rowLk 0x2C { rc := allBits }, rowLk 0x30 { rw := allBits }, rowLk 0x34 {},
  rowLk 0x40 { wo := allBits }, rowLk 0x44 { w1c := 6#32 }, rowLk 0x48 { w1c := 3#32 }] ++
  (List.range 64).map (fun w => rowLk (0x100 + 4 * w) { rw := allBits }) ++ (List.range 64).map (fun w => rowLk (0x200 + 4 * w) {}) ++ [
  { base := 0x681000, kind := { rw := 0xFFFF03FF#32 } }, { base := 0x681004, kind := { wo := allBits } }, { base := 0x681008 },
  { base := 0x68100C, kind := { rw := 0xFF#32 } }, { base := 0x681010, count := 3 }, { base := 0x68101C, kind := { w1c := 7#32 } },
  { base := 0x681020, kind := { rc := allBits } }]

/-- Recorder and security. -/
def rowsErSec : List RegRow := [
  { base := 0x690000, kind := { rw := 0x7FF#32, wo := 0x10000#32 } }, { base := 0x690004, kind := { w1c := 0xCFC#32 } },
  { base := 0x690008 }, { base := 0x690010, count := 6 }, { base := 0x690028, kind := { rc := allBits } }, { base := 0x690030, count := 3 },
  { base := 0x690040, count := 4 }, { base := 0x690050, kind := { wo := allBits } }, { base := 0x690060, count := 2 },
  { base := 0x690068, count := 5, kind := { wo := allBits } }, { base := 0x690100, count := 32 },
  { base := 0x6A0000, kind := { w1c := 4#32 } }, { base := 0x6A0004, kind := { w1c := 0xFF#32 } },
  { base := 0x6A0008, kind := { w1c := 0xFF00#32 } }, { base := 0x6A000C }, { base := 0x6A0040, count := 16 }, { base := 0x6A0080, count := 16 }]

/-- The debug challenge: mapped for the debug port alone (R511, R550). -/
def rowsSecDbg : List RegRow := [
  { base := 0x6A0100, count := 2 }, { base := 0x6A0108, count := 5, kind := { wo := allBits } }, { base := 0x6A011C, kind := { w1c := 2#32 } }]

/-- OTP, services and ports. -/
def rowsOtp : List RegRow := [
  { base := 0x6C0000, kind := { w1c := 0x03E10000#32 } }, { base := 0x6C0004, kind := { wo := allBits } },
  { base := 0x6C0100, count := 31, kind := { rw := allBits } }, { base := 0x6C0800, count := 512 },
  { base := 0x6D0000, stride := 0x20, count := 64 }, { base := 0x6D0004, stride := 0x20, count := 64 },
  { base := 0x6D0008, stride := 0x20, count := 64, kind := { w1c := 0x3F00#32 } },
  { base := 0x6D0010, stride := 0x20, count := 64, kind := { rc := allBits } }, { base := 0x6D0014, stride := 0x20, count := 64, kind := { rc := allBits } },
  { base := 0x6D0018, stride := 0x20, count := 64, kind := { rc := allBits } }, { base := 0x6D001C, stride := 0x20, count := 64, kind := { rc := allBits } },
  { base := 0x6D0800 }, { base := 0x6E0000, kind := { rwl := 0x00FF03FF#32 } }, { base := 0x6E0004, kind := { w1c := 0x1E#32 } },
  { base := 0x6E0100, kind := { rwl := 0xFFFF#32 } }, { base := 0x6E0104, kind := { w1c := 0x3E#32 } },
  { base := 0x6E0200, kind := { rwl := 0xF17F#32 } }, { base := 0x6E0204, kind := { w1c := 0x18#32 } },
  { base := 0x6E0300, kind := { w1c := 5#32 } }, { base := 0x6E0400, kind := { w1c := 0xC0000000#32 } }]

/-- The rows of the unit that an address lies in. -/
def rowsAt (a : Nat) : List RegRow :=
  if a < 0x600000 then []
  else if a < 0x610000 then rowsBc
  else if a < 0x620000 then rowsE
  else if a < 0x630000 then rowsMc
  else if a < 0x640000 then rowsSe
  else if a < 0x650000 then rowsTm
  else if a < 0x660000 then rowsEv
  else if a < 0x670000 then rowsSp
  else if a < 0x680000 then rowsPg
  else if a < 0x690000 then rowsLk
  else if a < 0x6B0000 then rowsErSec
  else if a < 0x6C0000 then []
  else rowsOtp

/-- The kind of the register at an address (R551): none where no master but the debug port finds one. -/
def regKind (a : Nat) : Option RegKind := ((rowsAt a).find? (fun r => inRun a r.base r.stride r.count)).map (·.kind)
/-- The kind of a register of the debug challenge. -/
def secDbgKind (a : Nat) : Option RegKind := (rowsSecDbg.find? (fun r => inRun a r.base r.stride r.count)).map (·.kind)

/-- The address lies in the block of an instance that a configuration lacks (R2, R3): an engine, a shift engine, a link. -/
def absentReg (c : Config.Kind) (a : Nat) : Bool :=
  (decide (0x610000 + c.engines * 0x1000 ≤ a) && decide (a < 0x618000)) ||
  (decide (0x630000 + c.ses * 0x400 ≤ a) && decide (a < 0x638000)) ||
  (decide (0x680000 + c.links * 0x400 ≤ a) && decide (a < 0x681000))

/-- The register that a master finds at an address, but for the DBG unit (R550). -/
def regFor (c : Config.Kind) (m : Master) (a : Nat) : Option RegKind :=
  if absentReg c a then none
  else match regKind a with
  | some k => some k
  | none => if m = .debugger then secDbgKind a else none

/-! ### Live words -/

/-- The number of a mode (R25). -/
def Mode.code : Mode → Nat
  | .boot => 0
  | .run => 1
  | .recovery => 2
  | .test => 3
  | .halted => 4

/-- BC_MODE; a mismatch of group 0 reads as it is taken (R499). -/
def State.bcMode (s : State) : Word :=
  let w := s.reg rBcMode
  let w1 := if s.shGroup 0 then setFld (w &&& ~~~ 0x300#32) 10 3 2 else w
  setFld (setFld w1 0 3 s.mode.code) 4 3 s.phase

/-- The operations parked on one side of a channel. -/
def State.parkedOn (s : State) (c : Nat) (recv : Bool) : List Parked :=
  (List.range 128).filterMap (fun t =>
    match (s.thr t).park with
    | some p =>
      let b := (s.thr (s.copyA t)).port p.op.port
      if b.bound && b.recv == recv && decide (b.ch = c) then some p else none
    | none => none)

/-- MCn_STAT: live fields (R249, R256, R261, R269). -/
def State.mcStat (s : State) (c : Nat) : Word :=
  let ch := s.chan c
  let snd := s.parkedOn c false
  let rcv := s.parkedOn c true
  (s.reg (rMcStat c) &&& 0x38000000#32) ||| BitVec.ofNat 32 (ch.msgs.length + ch.heldWords * 2 ^ 4 + ch.staged.length * 2 ^ 16 +
    b2n (!snd.isEmpty) * 2 ^ 24 + b2n (!rcv.isEmpty) * 2 ^ 25 + b2n ch.lnkdn * 2 ^ 26 + b2n ((snd ++ rcv).any (·.marked)) * 2 ^ 30)

/-- SEn_STAT: live fields. -/
def State.seStat (s : State) (n : Nat) : Word :=
  let e := s.se n
  let k := match e.latch with
    | some l => l.stall
    | none => 0
  (s.reg (rSeStat n) &&& 0x3F00#32) ||| BitVec.ofNat 32 (b2n (s.rbit (rSeCtl n) 0 && s.seAssigned n && !e.inRst) + 2 * b2n (decide (k ≠ 0)) + 4 * k +
    e.txq.length * 2 ^ 16 + e.rxq.length * 2 ^ 20 + b2n e.inRst * 2 ^ 24)

/-- En_STAT: STALL is computed (R157); ROT and RRP are held. -/
def State.eStat (s : State) (e : Nat) : Word :=
  (s.reg (rEStat e) &&& 0xF0F#32) ||| BitVec.ofNat 32 (maskOf 16 (fun k => s.standsStill (16 * e + k)) * 2 ^ 16)

/-- What runs with time while the block is not frozen, brought up to the moment it is looked at; how much time passed is the clock's
and free (notes/assumptions/45.md): the rotation counter (R151), the empty cycles of an engine in RUN (R187), the milliseconds of a
running watchdog, which reach 0 only by WATCHDOG_EXPIRY (R103), the seconds left of a debug lockout (R512), the µs of the running scrub
lap (R369), what the maintenance sequencer did of a test and a copy (R367), and the levels of the pads (R389). -/
def State.timePass (s : State) (a : Nat) : State :=
  if s.mode = .halted then s
  else if inRun a (rEStat 0) 0x1000 8 then (s.rsetFld a 0 4 (s.free.toNat % 16)).drew
  else if inRun a (rEEmpty 0) 0x1000 8 then (if s.mode = .run then (s.rcount a 0 32 s.free.toNat).drew else s)
  else if inRun a (rStcStat 0) 0x80 16 then
    (let n := (a - rStcStat 0) / 0x80
    if s.mode = .run && (s.stand n).wdOn && !s.rbit rDbgShalt n then (s.rsetFld a 16 16 (wdLeft (s.rfld a 16 16) s.free.toNat)).drew else s)
  else if a = rSecDbgStat then
    (if 0 < s.sec.lockout then ({ s with sec := { s.sec with lockout := wdLeft s.sec.lockout s.free.toNat } } : State).drew else s)
  else if a = rSpLapNow then (if s.mode = .run && s.rbit rSpCfg 0 then (s.rcount a 0 32 s.free.toNat).drew else s)
  else if a = rSpTtStat then s.seqPass
  else if inRun a (rPgIn 0) 4 6 then s.padsMove (8 * (a - rPgIn 0)) 32
  else if inRun a (rPgPinStat 0) 8 192 then s.padsMove ((a - rPgPinStat 0) / 8) 1
  else s

/-- The registers that `State.timePass` brings up to date. -/
def timeRegs : List Nat :=
  (List.range 8).map rEStat ++ (List.range 8).map rEEmpty ++ (List.range 16).map rStcStat ++ [rSecDbgStat, rSpLapNow, rSpTtStat] ++ (List.range 6).map rPgIn

/-- The word that a read of a mapped register sees, WO fields included (R10). -/
def State.regLive (s : State) (a : Nat) : Word :=
  if a < 0x610000 then
    if a = rBcMode then s.bcMode else if a = rBcId then s.kind.bcId else if a = rBcCap then s.kind.bcCap else if a < 0x601000 then s.reg a else s.stcRead a
  else if a < 0x620000 then
    if a % 0x1000 = 0xC then s.eStat ((a - 0x610000) / 0x1000) else s.reg a
  else if a < 0x630000 then
    if a < 0x628000 then (if a % 8 = 4 then s.mcStat ((a - 0x620000) / 8) else s.reg a)
    else if inRun a (rMcHstat 0) 0x10 16 then s.mailStat ((a - rMcHstat 0) / 16)
    else if a = rMcDlStat then putBit (s.reg a) 2 s.det.busy
    else if a = rMcEpVal then
      let ch := s.chan (s.rfld rMcEpq 0 12)
      if s.rbit rMcEpq 12 then ch.recvEp else ch.sendEp
    else s.reg a
  else if a < 0x640000 then
    let n := (a - 0x630000) / 0x400
    let off := (a - 0x630000) % 0x400
    if (s.se n).inRst then (if off = 0xC then 0x01000000#32 else regReset a)
    else if off = 0xC then s.seStat n
    else if off = 0x10 then (match (s.se n).latch with
      | some l => if l.stall = 0 ∧ 0 < l.rest then BitVec.ofNat 32 l.pc else s.reg a
      | none => s.reg a)
    else if 0x200 ≤ off ∧ off < 0x240 then
      BitVec.ofNat 32 (Bank.get (fun _ => 0) (s.cal n (s.rfld (rSeCalCtl n) 8 5)).hist ((off - 0x200) / 4))
    else s.reg a
  else if a < 0x650000 then s.tmRead a
  else if a < 0x660000 then s.evRead a
  else if a < 0x670000 then s.spReg a
  else if a < 0x680000 then s.pgRead a
  else if a < 0x690000 then s.lkRead a
  else if a < 0x6A0000 then s.erRead a
  else if a < 0x6B0000 then s.secRead a
  else if a = rOtpStat then putBit (s.reg a) 20 s.boot.otp.isSome
  else if a < 0x6D0800 ∧ 0x6D0000 ≤ a ∧ a % 32 = 8 then s.svStat ((a - 0x6D0000) / 32)
  else if a = rXpFlStat then putBit (s.reg a) 0 (decide (s.ports.flash ≠ .none))
  else if a = rXpCpStat then putBit (s.reg a) 0 s.ports.cpCur.isSome
  else if a = rXpTrStat then s.reg a ||| BitVec.ofNat 32 (3 * b2n s.ports.health)
  else s.reg a

/-- A register of a shift engine that is held in reset: the crossing answers without reaching the engine (R309). -/
def State.seHeldAt (s : State) (a : Nat) : Bool :=
  decide (0x630000 ≤ a) && decide (a < 0x638000) && (s.se ((a - 0x630000) / 0x400)).inRst

/-- An access to an engine out of reset whose clock stands still waits in the crossing (R82, R309). -/
def State.regWaits (s : State) (a : Nat) : Bool :=
  let n := (a - 0x630000) / 0x400
  decide (0x630000 ≤ a) && decide (a < 0x638000) && s.seAssigned n && !(s.se n).inRst && (s.se n).stopped

/-- A read of a register by a master (R10): the word; RC fields cleared but for the debug port, and what else the read does. -/
def State.regRead (s : State) (m : Master) (k : RegKind) (a : Nat) : Word × State :=
  if inRun a (rMcHget 0) 0x10 16 then
    let s1 := s.mailGet m ((a - rMcHget 0) / 16)
    (s1.rdata, s1)
  else
    let s := s.timePass a
    let w := s.regLive a &&& ~~~ k.wo
    let s1 := if m = .debugger ∨ k.rc = 0#32 ∨ s.seHeldAt a = true then s else s.modReg a (fun w => w &&& ~~~ k.rc)
    (w, s1.capReadAt a m false)

/-- A W64 read of a pair (R323): both words of one cycle. -/
def State.pairRead (s : State) (m : Master) (lo hi : Nat) : BitVec 64 × State :=
  (s.regLive hi ++ s.regLive lo, s.capReadAt lo m true)

/-! ### Writes -/

/-- A rejected RWL write (R556, R557). -/
def State.rwlReject (s : State) (m : Master) (a : Nat) : State :=
  let src := match m with
    | .thread _ => 0
    | .host _ _ => 1
    | .debugger => 3
    | _ => 2
  let s1 := s.rcount rBcRwlCnt 0 16 1
  if s.rbit rBcRwlRef 31 then s1.rset rBcRwlRef 30
  else s1.modReg rBcRwlRef (fun w => (w &&& 0x40000000#32) ||| BitVec.ofNat 32 (a % 2 ^ 24 + src * 2 ^ 24 + 2 ^ 31))

/-- A write's rejected part, if any (R556). -/
def State.rwlCheck (s : State) (m : Master) (k : RegKind) (a : Nat) (v : Word) : State :=
  if !s.rwlOpen && decide ((v ^^^ s.reg a) &&& k.rwl ≠ 0#32) then s.rwlReject m a else s

/-- A write acting by access types alone (R10, R556). -/
def State.plainWrite (s : State) (m : Master) (k : RegKind) (a : Nat) (v : Word) : State :=
  let keep := k.rw ||| (if s.rwlOpen then k.rwl else 0#32)
  (s.rwlCheck m k a v).modReg a (fun w => ((w &&& ~~~ keep) ||| (v &&& keep)) &&& ~~~ (v &&& k.w1c))

/-- A write to a register of a shift engine (R299–R302, R309). -/
def State.seWrite (s : State) (m : Master) (k : RegKind) (a : Nat) (v : Word) : State :=
  let n := (a - 0x630000) / 0x400
  if !s.seAssigned n || (s.se n).inRst then s
  else if a = rSePc n then s.seSetPc n (fld v 0 5)
  else s.plainWrite m k a v

/-- A write to a register of the timer and block-time unit. -/
def State.tmWrite (s : State) (m : Master) (k : RegKind) (a : Nat) (v : Word) : State :=
  if a < rTm 0 0 then
    if a = rBtOfsLo then s.btWriteOfsLo v
    else if a = rBtOfsHi then s.btWriteOfsHi v
    else if a = rBtAdj then s.btWriteAdj v
    else if a = rBtDisc then s.btWriteDisc v
    else if a = rTmGstart then (if fld v 0 16 = 0x6A51 then s.groupStart m else s)
    else s.plainWrite m k a v
  else
    let n := 2 * ((a - 0x640100) / 0x80) + (a / 4) % 2
    if !(s.tmr n).hasRec then s
    else if a = rTmCtl n then
      (s.rwlCheck m { k with rwl := if n % 2 = 1 then clrBit k.rwl 2 else k.rwl } a v).tmWriteCtl n v s.rwlOpen
    else if a = rTmCmp n then s.tmWriteCmp n v
    else s.plainWrite m k a v

/-- A write to a mailbox register (R259). -/
def State.mailWrite (s : State) (m : Master) (a : Nat) (v : Word) : State :=
  let n := (a - rMcHput 0) / 16
  if a = rMcHput n then s.mailAccess m n .put v
  else if a = rMcHpute n then s.mailAccess m n .pute v
  else if a = rMcHstat n then s.mailStatWrite m n v
  else s

/-- A write to a mapped register by a master that the attribute check admits (R10 and the unit's own rules). -/
def State.regWrite (s : State) (m : Master) (k : RegKind) (a : Nat) (v : Word) : State :=
  if a < 0x610000 then
    if a = rBcImgCtl then s.imgCtl m v
    else if a = rBcImgIn then s.imgIn v
    else if inRun a (rBcToken 0) 4 4 then s.setReg a v
    else if inRun a (rStcCtl 0) 0x80 16 then s.stcCtl m ((a - rStcCtl 0) / 0x80) v
    else if inRun a (rStcWdKick 0) 0x80 16 then s.wdKick m ((a - rStcWdKick 0) / 0x80) (fld v 0 16)
    else s.plainWrite m k a v
  else if a < 0x630000 then (if rMcHput 0 ≤ a then s.mailWrite m a v else s.plainWrite m k a v)
  else if a < 0x640000 then s.seWrite m k a v
  else if a < 0x650000 then s.tmWrite m k a v
  else if a < 0x660000 then
    if inRun a (rEvStat 0) 0x10 256 then s.evStatWrite m false ((a - rEvStat 0) / 16) v
    else if a = rEvHattn then s.evStatWrite m true 0 v
    else if a = rEvFire then s.evFire m (fld v 0 16) (fld v 16 8)
    else s.plainWrite m k a v
  else if a < 0x670000 then (if k.w1c = 0#32 then s.spWrite m a v else s.plainWrite m k a v)
  else if a < 0x680000 then
    if inRun a (rPgOut 0) 8 192 then s.pgOutWrite m ((a - rPgOut 0) / 8) v else s.plainWrite m k a v
  else if a < 0x690000 then (if k.w1c = 0#32 then s.lkWrite m a v else s.plainWrite m k a v)
  else if a < 0x6A0000 then s.erWrite m a v
  else if a < 0x6B0000 then (if a < 0x6A0100 then s.secWrite m a v else s.secDbgWrite a v)
  else if a = rOtpCtl then s.otpCtl m v
  else s.plainWrite m k a v

/-! ### The attribute check (R497, R101, R344, R366, R387) -/

/-- The stand that owns the resource of a register, if one does. -/
def State.regOwner (s : State) (a : Nat) : Option Nat :=
  if a < 0x610000 then (if 0x601000 ≤ a ∧ a < 0x601800 then some ((a - 0x601000) / 0x80) else none)
  else if a < 0x620000 then none
  else if a < 0x628000 then s.chanStand ((a - 0x620000) / 8)
  else if a < 0x630000 then
    if rMcHput 0 ≤ a then (match s.mailbox ((a - rMcHput 0) / 16) with
      | some (c, _) => s.chanStand c
      | none => none)
    else none
  else if a < 0x640000 then
    let n := (a - 0x630000) / 0x400
    if s.seAssigned n then some (s.seStand n) else none
  else if a < 0x650000 then
    if a < rTm 0 0 then none
    else
      let n := 2 * ((a - 0x640100) / 0x80) + (a / 4) % 2
      if (s.tmr n).hasRec then some (s.tmr n).stand else none
  else if a < 0x670000 then none
  else if a < 0x680000 then
    if a < rPgCfg 0 then (let n := (a - 0x670000) / 8; if s.pinOwned n then some (s.pinStand n) else none)
    else if a < rPgIn 0 then (let n := (a - rPgCfg 0) / 4; if s.pinOwned n then some (s.pinStand n) else none)
    else none
  else if 0x6D0000 ≤ a ∧ a < 0x6D0800 then
    let i := (a - 0x6D0000) / 32
    if s.rbit (rSvCfg i) 15 then some (s.rfld (rSvCfg i) 8 4) else none
  else none

/-- The check of R497 refuses a host or link request to a register. The writer check of a register's own chapter replaces the write
column: STCn_CTL, OTP_CTL and BC_IMGCTL (R102, R126, R147), TM_GSTART (R325), ER_CURSOR (R476), PGn_OUT of a pin that no stand
owns (R387). -/
def State.regRefuses (s : State) (sec priv wr : Bool) (m : Master) (a : Nat) : Bool :=
  let both := sec && priv
  if 0x6A0000 ≤ a ∧ a < 0x6B0000 then !both
  else if inRun a (rEvCfg 0) 0x10 256 || inRun a (rEvStat 0) 0x10 256 || inRun a (rEvCnt 0) 0x10 256 then !s.routeWriter m ((a - rEvCfg 0) / 16)
  else if a = rEvHattn then (if s.attnRoute.isNone && !wr then false else !s.attnWriter m)
  else match s.regOwner a with
    | some n =>
      if wr && decide (0x601000 ≤ a) && decide (a < 0x601800) && decide (a % 0x80 = 8) then !both else !s.standAdmits n sec priv
    | none =>
      if !wr then false
      else if a = rTmGstart then
        (s.gsel.filter (fun n => !s.tmOdd n)).any (fun n => (s.tmr n).hasRec && !s.standAdmits (s.tmr n).stand sec priv)
      else if a = rErCursor || inRun a (rPgOut 0) 8 192 || (decide (rMcHput 0 ≤ a) && decide (a < 0x630000)) then false
      else !both

/-- A host or link write to STCn_CTL with a wrong KEY is answered DENIED (R102). -/
def keyDenied (m : Master) (a : Nat) (v : Word) : Bool :=
  (match m with
  | .host _ _ | .link _ _ => true
  | _ => false) && inRun a (rStcCtl 0) 0x80 16 && decide (fld v 0 16 ≠ 0x5E7D)

/-- A 32-bit access of a master to the register space: the code of R39, the word read, the state. -/
def State.regAccess (s : State) (m : Master) (we : Bool) (a : Nat) (v : Word) : Nat × Word × State :=
  match (if a % 4 = 0 then regFor s.kind m a else none) with
  | none => (2, 0#32, s)
  | some k =>
    let refused := match m with
      | .host sec priv | .link sec priv => s.regRefuses sec priv we m a
      | .recov => s.regRefuses true true we (.link true true) a
      | _ => false
    if refused || (we && keyDenied m a v) then (1, 0#32, s)
    else if we then (0, 0#32, s.regWrite m k a v)
    else
      let r := s.regRead m k a
      (0, r.1, r.2)

end Machine
end Sys2Proof
end

