-- ==== Sys2Proof/Machine/Debug.lean ====
section
/-! DEFINITION. Accesses of the masters that are no threads, the test access port, debugger halts, the freeze and its record
(R514–R539, R561). -/
namespace Sys2Proof
namespace Machine

/-! ### Accesses by address (R39, R41, R497, R552) -/

/-- A scratchpad access by a master (R351, R362): whether the word's outcome serves it, the data read, the state. -/
def State.spAccess (s : State) (we : Bool) (a n v : Nat) (err : WordErr) : Bool × Nat × State :=
  let r := s.spRead (wordOf a) err .master
  if !r.1.good then (false, 0, r.2)
  else if we then (true, 0, r.2.spWriteLE a n v)
  else (true, r.2.spReadLE a n, r.2)

/-- A byte of the service ROM or of the memories, with no code effects. -/
def State.romLE (a : Nat) : Nat → Nat
  | 0 => 0
  | n + 1 => (Config.romByte a).toNat + 256 * State.romLE (a + 1) n

/-- Address ranges (R550). -/
def inPm (a : Nat) : Bool := decide (0x400000 ≤ a) && decide (a < 0x500000)
/-- See `inPm`. -/
def inRom (a : Nat) : Bool := decide (0x500000 ≤ a) && decide (a < 0x540000)

/-- An address in the program memory of an engine present (R3). -/
def State.pmAt (s : State) (a : Nat) : Bool := inPm a && decide ((a - 0x400000) / 0x20000 < s.kind.engines)

/-- Data on the byte lanes of its address (the signal table of the host port). -/
def laneOut (a n d : Nat) : Word := BitVec.ofNat 32 ((d % 2 ^ (8 * n)) * 2 ^ (8 * (a % 4)))
/-- See `laneOut`. -/
def laneIn (a n : Nat) (v : Word) : Nat := v.toNat / 2 ^ (8 * (a % 4)) % 2 ^ (8 * n)

/-- The attributes that a request carries; none for a thread and for the debug port, which are not checked (R498). -/
def attrsOf : Master → Option (Bool × Bool)
  | .host sec priv => some (sec, priv)
  | .link sec priv => some (sec, priv)
  | .recov => some (true, true)
  | _ => none

/-- A write to a program memory (R41, R145): none in RUN and HALTED. -/
def State.pmWrite (s : State) (m : Master) (a n v : Nat) : State :=
  if s.rwlOpen then s.writeLE a n v
  else if s.readLE a n = v then s else s.rwlReject m (a / 4 * 4)

/-- Whether an access of `n` bytes meets UNMAPPED, FORM or DENIED (R39), as its code; 0 if none. -/
def State.busCheck (s : State) (m : Master) (we : Bool) (a n : Nat) : Nat :=
  let mem := decide (a < s.spLimit) || s.pmAt a || inRom a
  if !mem && (regFor s.kind m (a / 4 * 4)).isNone then 2
  else if a % n ≠ 0 ∨ (!mem ∧ n ≠ 4) then 3
  else match attrsOf m with
    | none => if we && inRom a then 1 else 0
    | some (sec, priv) =>
      let refused :=
        if a < s.spLimit then !s.windowAdmits a sec priv we
        else if inPm a then !(sec && priv) || (we && !s.rwlOpen)
        else if inRom a then we || !(sec && priv)
        else s.regRefuses sec priv we (match m with
          | .recov => .link true true
          | m => m) a
      if refused then 1 else 0

/-- An access of `n` bytes: the code of R39, the word, the state (R38, R552). -/
def State.busAccess (s : State) (m : Master) (we : Bool) (a n : Nat) (v : Word) (err : WordErr) : Nat × Word × State :=
  let c := s.busCheck m we a n
  if c ≠ 0 then (c, 0#32, s)
  else if a < s.spLimit then
    let r := s.spAccess we a n (laneIn a n v) err
    if r.1 then (0, laneOut a n r.2.1, r.2.2) else (4, 0#32, r.2.2)
  else if inPm a then
    if s.upsetIn a n then (4, 0#32, s)
    else if we then (0, 0#32, s.pmWrite m a n (laneIn a n v)) else (0, laneOut a n (s.readLE a n), s)
  else if inRom a then (0, laneOut a n (State.romLE a n), s)
  else s.regAccess m we a v

/-! ### The DBG unit's registers -/

/-- The registers of the DBG unit by access type. -/
def rowsDbg : List RegRow := [
  { base := 0x6B0000, kind := { wo := allBits } }, { base := 0x6B0004, kind := { w1c := 6#32 } }, { base := 0x6B0010, count := 5 },
  { base := 0x6B0024, kind := { rw := 0xFFFF#32 } }, { base := 0x6B0040, stride := 8, count := 8, kind := { rw := 0xFFFFFF#32 } },
  { base := 0x6B0044, stride := 8, count := 8, kind := { rw := 0xF7F0F#32 } },
  { base := 0x6B0080, stride := 0x10, count := 4, kind := { rw := 0xFFFFFF#32 } },
  { base := 0x6B0084, stride := 0x10, count := 4, kind := { rw := 0xFFFFFF#32 } },
  { base := 0x6B0088, stride := 0x10, count := 4, kind := { rw := 0xF7F3F#32 } }, { base := 0x6B00C0, kind := { w1c := 0xFFF#32 } },
  { base := 0x6B00D0, kind := { rw := 0xFF#32 } }, { base := 0x6B0100, count := 41 }, { base := 0x6B0200, kind := { rw := 0xFFFF#32 } },
  { base := 0x6B0204, kind := { w1c := 0x1C#32 } }, { base := 0x6B0208, count := 4 }, { base := 0x6B0220, kind := { rw := 0xFFFF#32 } },
  { base := 0x6B0224, kind := { rw := 0xFFFFFF#32 } }, { base := 0x6B0228, count := 2 }]
/-- The kind of a DBG register. -/
def dbgKind (a : Nat) : Option RegKind := (rowsDbg.find? (fun r => inRun a r.base r.stride r.count)).map (·.kind)

/-- A command of DBG_CMD refused (R561): REASON 1 LOCK, 2 MODE, 3 TARGET, 4 STATE. -/
def State.dbgRefuse (s : State) (reason : Nat) : State := (s.rset rDbgCmdStat 2).rsetFld rDbgCmdStat 8 4 reason
/-- A command completed. -/
def State.dbgDone (s : State) : State := s.rset rDbgCmdStat 1

/-- A thread command of DBG_CMD: refused outside RUN, for a thread of idle class, and by the command's own state check (R561). -/
def State.dbgThread (s : State) (t : Nat) (ok : Bool) (act : State → State) : State :=
  if !s.dbgOpen then s
  else if s.mode ≠ .run then s.dbgRefuse 2
  else if (s.thr t).cls = .idle then s.dbgRefuse 3
  else if !ok then s.dbgRefuse 4
  else (act s).dbgDone
/-- A stand command of DBG_CMD. -/
def State.dbgStand (s : State) (n : Nat) (ok : Bool) (act : State → State) : State :=
  if !s.dbgOpen then s
  else if s.mode ≠ .run then s.dbgRefuse 2
  else if s.standState n = 0 ∨ s.standState n = 5 then s.dbgRefuse 3
  else if !ok then s.dbgRefuse 4
  else (act s).dbgDone

/-- A thread halt ended (R519); `step`: for one issue. -/
def State.resumeOne (s : State) (t : Nat) (step : Bool) : State := s.modThr t (fun h => { h with halted := false, step := step })
/-- Every copy's halt ended. -/
def State.resumeThread (s : State) (t : Nat) (step : Bool) : State := s.each (s.copies t) (fun s t => s.resumeOne t step)

/-- HALTT (R516). -/
def State.dbgHaltT (s : State) (t : Nat) : State := s.dbgThread t true (fun s => s.haltThread t)
/-- RESUMET (R519). -/
def State.dbgResumeT (s : State) (t : Nat) : State := s.dbgThread t (s.thr t).halted (fun s => s.resumeThread t false)
/-- STEPT (R519). -/
def State.dbgStepT (s : State) (t : Nat) : State := s.dbgThread t (s.thr t).halted (fun s => s.resumeThread t true)
/-- TRESET (R519, R97): the restart itself is THREAD_RESTART. -/
def State.dbgReset (s : State) (t : Nat) : State := s.dbgThread t true (fun s => s.askRestart t)
/-- HALTS (R520). -/
def State.dbgHaltS (s : State) (n : Nat) : State := s.dbgStand n true (fun s => s.haltStand n)
/-- RESUMES (R520): the stand's threads, shift engines and frozen timers go on (R326). -/
def State.dbgResumeS (s : State) (n : Nat) : State :=
  s.dbgStand n (s.rbit rDbgShalt n) (fun s =>
    let tms := (s.tmrs.map Prod.fst).filter (fun k => s.tmDfrz k && decide ((s.tmr k).stand = n))
    ((s.rclr rDbgShalt n).each (s.standThreads n) (fun s t => s.resumeOne t false)).each tms State.tmWake)

/-- ABORT (R522, R272): the staged words are discarded; a parked operation on the port completes with ABORTED, else the flag is
set. -/
def State.dbgAbortT (s : State) (t p : Nat) : State :=
  let a := s.copyA t
  let b := (s.thr a).port p
  s.dbgThread t ((s.thr t).halted && b.bound && !b.recv) (fun s =>
    if (s.chan b.ch).staged.isEmpty then s
    else
      let s1 := s.unstage b.ch
      let hit (t : Nat) : Bool := match (s.thr t).park with
        | some q => decide (q.op.port = p)
        | none => false
      if (s.copies t).any hit then
        s1.each ((s.copies t).filter hit) (fun s t => s.modThr t (fun h => { h with park := h.park.map (fun q => { q with aborted := true }) }))
      else s1.modThr a (fun h => h.setPort p { b with abortp := true }))

/-- FREEZE (R526). -/
def State.dbgFreezeCmd (s : State) : State := if s.dbgOpen then (s.freezeTrigger 1).dbgDone else s

/-- The HELD stands whose bit of DBG_SHOLD is clear release (R521). -/
def State.letGo (s : State) : State :=
  s.each (members 16 (fun n => decide (s.standState n = 4) && !s.rbit rDbgShold n)) (fun s n => s.standReleaseNow n)

/-- A shift engine's clock runs: one that is in reset only for its clock leaves it (R95, R106). -/
def State.seClockOn (s : State) (n : Nat) : State :=
  if (s.se n).stopped then s
  else if s.standState (s.seStand n) = 1 then s.modSe n (fun e => { e with inRst := false }) else s

/-- An OTP command whose last step completed in the freeze ends (R130). -/
def State.otpResume (s : State) : State :=
  match s.boot.otp with
  | some o => if o.steps.isEmpty && !o.check then s.otpEnd o else s
  | none => s

/-- The end of a freeze (R538): the block runs again, and the next sample of block time is a first one (R334); what waited goes on: held STANDRST parts, deadlock policies under FTDL, the
cipher port's discarding of result beats (R531), the OTP step after the one that completed (R130), the release of a stand whose
hold was cleared in the freeze, the sampling of clamp latches (R401), engines whose clock started in the freeze. -/
def State.unfreeze (s : State) : State :=
  let held := s.sec.held
  let s1 : State := { s with
    mode := .run
    frzTrig := []
    bt := { s.bt with first := true }
    sec := { s.sec with held := [], frzSrc := none }
    dbg := { s.dbg with notack := 0, late := 0, excl := false }
    ports := { s.ports with cpDiscard := s.ports.cpCur.isSome }
    boot := { s.boot with otp := s.boot.otp.map (fun o => { o with stepped := false }) } }
  let s2 := ((s1.rsetFld rDbgFrzStat 0 2 0).setReg (rDbgFrzAck 0) 0#32).setReg (rDbgFrzAck 1) 0#32
  let s3 := if s.dbg.excl then s2.rset rSpTtStat 18 else s2
  (held.foldl (fun (s : State) src => s.alarmStands src (fld (s.reg (rSecResp src)) 16 16)) s3.chargeOwed).otpResume.duePolicies.letGo.sampleHeldClamps.each (List.range 32) State.seClockOn

/-- RESUME (R538): refused with no freeze, and while FREEZE_N is low. -/
def State.dbgResume (s : State) (high : Bool) : State :=
  if !s.dbgOpen then s
  else if s.rfld rDbgFrzStat 0 2 = 0 then s.dbgRefuse 4
  else if !high then (s.dbgRefuse 4).rset rDbgFrzStat 3
  else s.unfreeze.dbgDone

/-- A write to DBG_CMD. The level of FREEZE_N that a RESUME meets is taken as high (notes/assumptions/33.md); the REASON of a code that
names no command is a free value. -/
def State.dbgCmd (s : State) (v : Word) : State :=
  let t := fld v 8 7
  let n := fld v 16 4
  match fld v 0 4 with
  | 1 => s.dbgHaltT t
  | 2 => s.dbgResumeT t
  | 3 => s.dbgStepT t
  | 4 => s.dbgReset t
  | 5 => s.dbgHaltS n
  | 6 => s.dbgResumeS n
  | 7 => s.dbgAbortT t (fld v 24 3)
  | 8 => s.dbgFreezeCmd
  | 9 => s.dbgResume true
  | _ => if s.dbgOpen then s.drew.dbgRefuse (1 + s.free.toNat % 4) else s

/-- The thread that DBG_TREGr reads (R518). -/
def State.tselRead (s : State) : Nat :=
  let t := s.rfld rDbgTsel 0 7
  if (s.thr t).twin then (if s.rbit rDbgTsel 7 then (if t < 64 then partner t else t) else (if t < 64 then t else partner t)) else t

/-- Register `r` of a thread as DBG_TREGr shows it (R518). -/
def Thread.dbgReg (h : Thread) (r : Nat) : Word :=
  if r = 0 then h.pc.setWidth 32
  else if r < 16 then h.rg r
  else if r < 36 then (h.rx ((r - 16) / 5)).getField ((r - 16) % 5)
  else if r = 36 then h.readTr 0 else if r = 37 then h.readTr 1 else if r = 38 then h.readTr 2 else if r = 39 then h.readTr 3
  else if r = 40 then h.evp.setWidth 32
  else 0#32
/-- Register `r` of a thread written by the debugger (R518). -/
def Thread.dbgSet (h : Thread) (r : Nat) (v : Word) : Thread :=
  if r = 0 then { h with pc := v.setWidth 24 }
  else if r < 16 then h.write r v
  else if r < 36 then h.wx ((r - 16) / 5) ((h.rx ((r - 16) / 5)).setField ((r - 16) % 5) v)
  else if r = 36 then h.writeTr 0 v else if r = 37 then h.writeTr 1 v else if r = 38 then h.writeTr 2 v else if r = 39 then h.writeTr 3 v
  else if r = 40 then { h with evp := h.evp &&& ~~~ (v.setWidth 8) }
  else h

/-- An access to DBG_TREGr (R518): the word, and the state. -/
def State.dbgTreg (s : State) (we : Bool) (r : Nat) (v : Word) : Word × State :=
  let t := s.rfld rDbgTsel 0 7
  if !(s.thr t).halted then (0#32, s.dbgRefuse 4)
  else if we then (0#32, s.each (s.copies t) (fun s t => s.modThr t (fun h => h.dbgSet r v)))
  else ((s.thr s.tselRead).dbgReg r, s)

/-- A write to DBG_SHOLD (R521): clearing a bit lets a held stand release. -/
def State.dbgShold (s : State) (v : Word) : State :=
  let s1 := s.setReg rDbgShold (v &&& 0xFFFF#32)
  if s.mode = .run then s1.letGo else s1

/-! ### The freeze record (R533–R537) -/

/-- A word of a register image (R534): read as by the debug port, unmapped offsets 0. -/
def State.imgWord (s : State) (a : Nat) : Word :=
  match regFor s.kind .debugger a with
  | some k => s.regLive a &&& ~~~ k.wo
  | none => 0#32

/-- Word `k` of an engine section's thread block (R535). The state word, the prefetch queue, the entries of the store buffer and the
deferred results have a layout that the spec does not give: none. -/
def State.threadWord (s : State) (t k : Nat) : Option Word :=
  let h := s.thr t
  if k = 0 then some (h.pc.setWidth 32)
  else if k = 1 then none
  else if k < 17 then some (h.rg (k - 1))
  else if k < 37 then some ((h.rx ((k - 17) / 5)).getField ((k - 17) % 5))
  else if k < 41 then some (h.dbgReg (k - 1))
  else if k = 41 then some (h.evp.setWidth 32)
  else if k = 47 then some (BitVec.ofNat 32 h.sbuf.length)
  else none

/-! ### Crossing queues (R93, R536) -/

/-- The queues of R93 that do not touch TCK, in the order of the record: those of each engine, shift engine and link, and the node's. -/
inductive XQ where
  | engine (e : Nat) (up : Bool) | seTx (n : Nat) | seRx (n : Nat) | seReg (n : Nat) (up : Bool) | seLane (n : Nat) | seObs (n : Nat)
  | seMove (n : Nat) | link (n : Nat) (rx : Bool) | node2 (k : Nat) | timers (up : Bool) | host (up : Bool) | node4 (k : Nat) | nvm
  deriving DecidableEq, Repr
/-- The depth of a queue (R93, R536). -/
def XQ.depth : XQ → Nat
  | .seTx _ | .seRx _ => 8
  | .seMove _ | .node2 _ => 2
  | .link _ _ | .nvm => 16
  | _ => 4
/-- The queues of a configuration in the order of R536. -/
def crossings (c : Config.Kind) : List XQ :=
  ((List.range c.engines).map (fun e => [XQ.engine e false, .engine e true])).flatten ++
  ((List.range c.ses).map (fun n => [XQ.seTx n, .seRx n, .seReg n false, .seReg n true, .seLane n, .seObs n, .seMove n])).flatten ++
  ((List.range c.links).map (fun n => [XQ.link n false, .link n true])).flatten ++
  (List.range 8).map .node2 ++ [.timers false, .timers true, .host false, .host true] ++ (List.range 6).map .node4 ++ [.nvm]
/-- The entries that wait in a queue: requests behind a full lane (R353), a shift engine's words and lane records, tap moves (R306), host
requests not yet served (R38); every other queue passes its entries on within the command. -/
def State.crossWait (s : State) (q : XQ) : Nat :=
  match q with
  | .engine e false => min 4 (s.xqueue e).length
  | .seTx n => (s.se n).txq.length
  | .seRx n => (s.se n).rxq.length
  | .seLane n => (s.se n).lane.length
  | .seMove n => min 2 (members 32 (fun k => (s.cal n k).move.isSome)).length
  | .host false => (s.ports.hostQ.filter (fun r => r.ans.isNone && !r.sent)).length
  | _ => 0
/-- Word 0 of a queue's block (R536): depth and pointers. Where the pointers stand is free; they lie as far apart as entries wait. -/
def State.crossHead (s : State) (q : XQ) : Word :=
  let rp := s.free.toNat % 64
  let n := s.crossWait q
  BitVec.ofNat 32 (q.depth + (rp + n) % 64 * 2 ^ 8 + rp * 2 ^ 16 + (rp + s.free.toNat / 64 % (n + 1)) % 64 * 2 ^ 24)
/-- Word `k` of the blocks of queues, 1 + 5·D words each (R536); none for a slot's data and tag, whose layout the spec does not give. -/
def State.crossWord (s : State) : List XQ → Nat → Option Word
  | [], _ => none
  | q :: l, k => if k = 0 then some (s.crossHead q) else if k < 1 + 5 * q.depth then none else s.crossWord l (k - (1 + 5 * q.depth))
/-- The words of the blocks. -/
def crossLen (c : Config.Kind) : Nat := ((crossings c).map (fun q => 1 + 5 * q.depth)).sum

/-- The content words of a section (R535); 0 for one that does not exist. -/
def sectLen (c : Config.Kind) (sid inst : Nat) : Nat :=
  match sid with
  | 0x00 => 16
  | 0x01 => 136
  | 0x02 => if inst < c.engines then 1095 else 0
  | 0x03 => 24710
  | 0x04 => 16896
  | 0x05 => c.spSize / 4 + c.spSize / 512
  | 0x06 => 468
  | 0x07 => 1091
  | 0x08 => 845
  | 0x09 => 513
  | 0x0A => 9 + 10192 * c.links
  | 0x0B => 64 * c.ses
  | 0x0C => 1112
  | 0x0D => 8388
  | 0x0E => crossLen c
  | 0x0F => 28
  | 0x10 => 36
  | 0x11 => if inst < c.ses then 148 else 0
  | _ => 0

/-- Content word `k` of a section (R535); none where the spec gives no layout for it, or where it shows a crossing or pointer that the
model does not keep. -/
def State.sectWord (s : State) (sid inst k : Nat) : Option Word :=
  match sid with
  | 0x00 => some (([0x7E1AF2E0#32, BitVec.ofNat 32 (1 + (16 + s.kind.engines + s.kind.ses) * 2 ^ 16), BitVec.ofNat 32 s.kind.frLen, s.kind.bcId, s.kind.bcCap, s.bcMode, s.reg rDbgFrzCause,
      s.reg (rDbgFrzAck 0), s.reg (rDbgFrzAck 1), BitVec.ofNat 32 s.dbg.aon.hours, BitVec.ofNat 32 s.dbg.aon.secs, BitVec.ofNat 32 s.dbg.aon.pcc,
      s.reg rDbgFrzCnt] : List Word).getD k 0#32)
  | 0x01 =>
    if k < 22 then some (s.imgWord (0x600000 + 4 * k))
    else if k < 118 then some (s.imgWord (0x601000 + (k - 22) / 6 * 0x80 + (k - 22) % 6 * 4))
    else if k = 118 then some (s.imgWord rStcTick)
    else if k < 135 then none
    else some (s.imgWord rOtpStat)
  | 0x02 =>
    if k < 7 then some (s.imgWord (rE inst (4 * k)))
    else if k < 23 then some (s.imgWord (rE inst (0x100 + 4 * (k - 7))))
    else if k < 39 then some (s.imgWord (rE inst (0x200 + 4 * (k - 23))))
    else s.threadWord (16 * inst + (k - 39) / 66) ((k - 39) % 66)
  | 0x03 =>
    if k < 24576 then (if k % 6 < 2 then some (s.imgWord (0x620000 + k / 6 * 8 + k % 6 * 4)) else none)
    else if k < 24598 then some (s.imgWord (0x628000 + 4 * (k - 24576)))
    else if k < 24662 then
      (if k % 4 = 24606 % 4 then some (s.mailPeek ((k - 24598) / 4)) else some (s.imgWord (0x629000 + 4 * (k - 24598))))
    else none
  | 0x04 =>
    if k < 16384 then some (s.poolWord k).v
    else some (BitVec.ofNat 32 (maskOf 32 (fun j => (s.poolWord (32 * (k - 16384) + j)).bad)))
  | 0x05 =>
    if k < s.kind.spSize / 4 then some (BitVec.ofNat 32 ((s.rekey (s.home (k / 4))).spReadLE (4 * k) 4))
    else some (BitVec.ofNat 32 (maskOf 32 (fun j =>
      let w := 32 * (k - s.kind.spSize / 4) + j
      (s.rekey (s.home w)).spPoisoned w)))
  | 0x06 =>
    if k < 160 then some (s.imgWord (0x660000 + 4 * k)) else if k < 192 then some (BitVec.ofNat 32 (s.scrubPtr (k - 160)))
    else if k < 448 ∧ 3 ≤ s.sp.ttStep then
      let b := s.rfld rSpTtStat 3 5
      ((List.range s.rowsN).find? (fun r => decide (s.physRow b r = 64 * s.rfld rSpTtStat 8 7 + (k - 192) / 4))).map (fun r =>
        BitVec.ofNat 32 (s.readLE (16 * (32 * r + b) + 4 * ((k - 192) % 4)) 4))
    else none
  | 0x07 =>
    if k < 1024 then some (s.imgWord (0x650000 + 4 * k))
    else if k < 1050 then some (s.imgWord (0x651000 + 4 * (k - 1024)))
    else some (BitVec.ofNat 32 (maskOf 32 (fun j => decide (0 < s.view (32 * (k - 1050) + j)))))
  | 0x08 =>
    if k < 384 then some (s.imgWord (0x670000 + 4 * k))
    else if k < 576 then some (s.imgWord (rPgCfg (k - 384)))
    else if k < 582 then some (s.imgWord (rPgIn (k - 576)))
    else if k < 646 then some (s.imgWord (0x670A00 + 4 * (k - 582)))
    else if k = 646 then some (s.imgWord rPgStat)
    else if k < 839 then none
    else some (BitVec.ofNat 32 (maskOf 32 (fun j => (s.pin (32 * (k - 839) + j)).fs)))
  | 0x09 => if k < 512 then some (s.imgWord (0x6D0000 + 4 * k)) else some (s.imgWord rSvRomId)
  | 0x0A =>
    if k < 9 then some (s.imgWord (0x681000 + 4 * k))
    else if (k - 9) % 10192 < 192 then some (s.imgWord (rLk ((k - 9) / 10192) (4 * ((k - 9) % 10192))))
    else none
  | 0x0C =>
    if k < 20 then some (s.imgWord (0x640000 + 4 * k)) else if k < 1044 then some (s.imgWord (0x640100 + 4 * (k - 20))) else none
  | 0x0D =>
    if k < 96 then some (s.imgWord (0x690000 + 4 * k))
    else if k < 8288 then some (objWord ((k - 96) / 32) (s.obj ((k - 96) / 32)) ((k - 96) % 32)) else none
  | 0x0E => s.crossWord (crossings s.kind) k
  | 0x0F => [rXpFlCfg, rXpFlStat, rXpCpCfg, rXpCpStat, rXpNvCfg, rXpNvStat, rXpTrStat, rXpHpErr][k]?.map s.imgWord
  | 0x10 =>
    if k < 4 then some (s.imgWord (0x6A0000 + 4 * k)) else if k < 20 then some (s.imgWord (rSecResp (k - 4))) else some (s.imgWord (rSecAcnt (k - 20)))
  | 0x11 => if k < 144 then some (s.imgWord (0x630000 + inst * 0x400 + 4 * k)) else none
  | _ => none

/-- The domains of a section (R529, R535). -/
def sectDomains (sid inst : Nat) : List Nat :=
  match sid with
  | 0x00 => [17]
  | 0x01 => [15]
  | 0x02 => [inst]
  | 0x0A => [8, 19, 20, 21, 22, 23, 24, 25, 26]
  | 0x0B => [16]
  | 0x0C => [13]
  | 0x0D => [15]
  | 0x0E => (List.range 60).filter (fun d => decide (d ≠ 14) && decide (d ≠ 17) && decide (d ≠ 18))
  | 0x0F => [9, 10, 11, 12]
  | 0x10 => [17]
  | 0x11 => [27 + inst]
  | _ => [8]

/-- A word of the record (R533, R534): header words, content, 0 beyond the end; a free value where `sectWord` gives none. -/
def State.recordWord (s : State) (sid inst k : Nat) : Word × State :=
  let n := sectLen s.kind sid inst
  let marks (d : Nat) : Bool := (sectDomains sid inst).any (fun x => (d / 2 ^ x) % 2 = 1)
  if n = 0 ∨ n + 2 ≤ k then (0#32, s)
  else if k = 0 then (BitVec.ofNat 32 (sid + b2n (marks s.dbg.notack) * 2 ^ 8 + b2n (marks s.dbg.late) * 2 ^ 9 + inst * 2 ^ 16), s)
  else if k = 1 then (BitVec.ofNat 32 n, s)
  else match s.sectWord sid inst (k - 2) with
    | some w => (w, if sid = 0x0E then s.drew else s)
    | none => (s.free, s.drew)

/-- The read of the word at DBG_FRPTR, which advances (R533): available while frozen; the scratchpad section is refused while a test
is stopped in RESTORE (R374). Answers whether a word was there. -/
def State.frRead (s : State) : Bool × Word × State :=
  if !s.dbgOpen || decide (s.rfld rDbgFrzStat 0 2 ≠ 2) then (false, 0#32, s)
  else
    let sid := s.rfld rDbgFrSel 0 8
    if sid = 5 ∧ s.sp.ttStep = 4 then (false, 0#32, ({ s with dbg := { s.dbg with excl := true } } : State).rset rDbgFrzStat 4)
    else
      let ptr := s.rfld rDbgFrPtr 0 24
      let r := s.recordWord sid (s.rfld rDbgFrSel 8 8) ptr
      (true, r.1, r.2.rsetFld rDbgFrPtr 0 24 (ptr + 1))

/-! ### Accesses to the DBG unit -/

/-- A read of a DBG register. DBG_THALTi shows a halt once the thread's store buffer has drained (R516). -/
def State.dbgRead (s : State) (k : RegKind) (a : Nat) : Word × State :=
  if a = rDbgFrData then (s.frRead).2
  else if inRun a (rDbgTreg 0) 4 41 then s.dbgTreg false ((a - rDbgTreg 0) / 4) 0#32
  else if a = rDbgFrLen then (BitVec.ofNat 32 s.kind.frLen, s)
  else if inRun a (rDbgThalt 0) 4 4 then (BitVec.ofNat 32 (maskOf 32 (fun j =>
    (s.thr (8 * (a - rDbgThalt 0) + j)).halted && (s.thr (8 * (a - rDbgThalt 0) + j)).sbuf.isEmpty)), s)
  else (s.reg a &&& ~~~ k.wo, s)

/-- A write to a DBG register. -/
def State.dbgWrite (s : State) (k : RegKind) (a : Nat) (v : Word) : State :=
  if a = rDbgCmd then s.dbgCmd v
  else if a = rDbgShold then s.dbgShold v
  else if a = rDbgFrSel then (s.setReg rDbgFrSel (v &&& 0xFFFF#32)).setReg rDbgFrPtr 0#32
  else if inRun a (rDbgTreg 0) 4 41 then (s.dbgTreg true ((a - rDbgTreg 0) / 4) v).2
  else s.modReg a (fun w => ((w &&& ~~~ k.rw) ||| (v &&& k.rw)) &&& ~~~ (v &&& k.w1c))

/-- A debug-port access (R515): STATUS, DATA and the state. -/
def State.dbgAccess (s : State) (we : Bool) (a : Nat) (v : Word) : Nat × Word × State :=
  let secDbg := (secDbgKind a).isSome
  if !s.dbgOpen && !secDbg then (3, 0#32, s)
  else match dbgKind a with
    | some k => if we then (0, 0#32, s.dbgWrite k a v) else (0, s.dbgRead k a)
    | none =>
      let sec := secDbg || (decide (0x6A0000 ≤ a) && decide (a < 0x6B0000))
      let filled := !(decide (s.mode = .boot) && decide (s.phase = 2)) || decide (0x540000 ≤ a)
      if !sec && (!filled || decide (s.mode = .halted) || !s.frzTrig.isEmpty) then (2, 0#32, s)
      else
        let r := s.busAccess .debugger we a 4 v []
        (if r.1 = 0 then 0 else 2, r.2.1, r.2.2)

/-! ### The test access port (R514, R515, R533) -/

/-- The instruction register, and the data register as captured. -/
def State.tapLoad (s : State) (ir : BitVec 5) (dr : BitVec 64) : State := { s with dbg := { s.dbg with ir := ir, dr := dr } }

/-- BYPASS. -/
def execBypass (s : State) : Out := .next (s.tapLoad 31#5 0#64)

/-- IDCODE: 1, the manufacturer, 0x0128, BC_ID.STEP[3:0]. -/
def idcodeWord (c : Config.Kind) : BitVec 64 :=
  BitVec.ofNat 64 (1 + Config.manufacturer.toNat * 2 + 0x0128 * 2 ^ 12 + fld c.bcId 8 4 * 2 ^ 28)
/-- IDCODE (R514). -/
def execIdcode (s : State) : Out := .next (s.tapLoad 1#5 (idcodeWord s.kind))

/-- An access of DBGACC performed: DATA and STATUS (R515). -/
def State.dbgPort (s : State) (we : Bool) (a : Addr) (v : Word) : State :=
  let r := s.dbgAccess we a.toNat v
  let d := if we then v else r.2.1
  ({ r.2.2 with dbg := { r.2.2.dbg with accData := d, accStat := BitVec.ofNat 2 r.1, accPend := none } } : State).tapLoad 8#5
    (BitVec.ofNat 64 (d.toNat + a.toNat * 2 ^ 32 + b2n we * 2 ^ 56 + r.1 * 2 ^ 57))

/-- DBGACC (R515): BUSY while the access waits in a crossing (R309); withheld at LK2 and before P1 has read the lock word, where it acts as BYPASS. -/
def execDbgacc (we : Bool) (a : Addr) (v : Word) (s : State) : Out :=
  .next (if !s.dbgSec then s.tapLoad 31#5 0#64
  else if s.dbg.accPend.isSome then s
  else if s.dbgOpen && decide (s.mode ≠ .halted) && s.frzTrig.isEmpty && s.regWaits a.toNat then
    ({ s with dbg := { s.dbg with accPend := some (we, a, v), accStat := 1#2 } } : State).tapLoad 8#5
      (BitVec.ofNat 64 (a.toNat * 2 ^ 32 + b2n we * 2 ^ 56 + 2 ^ 57))
  else s.dbgPort we a v)

/-- FRREAD (R533): WORD in [31:0], VALID in [32]; withheld at LK1 locked and LK2. -/
def execFrread (s : State) : Out :=
  .next (if !s.dbgOpen then s.tapLoad 31#5 0#64
  else
    let r := s.frRead
    r.2.2.tapLoad 10#5 (BitVec.ofNat 64 (r.2.1.toNat + b2n r.1 * 2 ^ 32)))

/-- TAP_RESET (R514): Test-Logic-Reset selects IDCODE. -/
def execTapReset (s : State) : Out := .next { s with dbg := { s.dbg with ir := 1#5 } }

/-! ### Commands -/

/-- HALTT. -/
def execHaltt (t : Tid) (s : State) : Out := .next (s.dbgHaltT t)
/-- RESUMET. -/
def execResumet (t : Tid) (s : State) : Out := .next (s.dbgResumeT t)
/-- STEPT. -/
def execStept (t : Tid) (s : State) : Out := .next (s.dbgStepT t)
/-- TRESET. -/
def execTreset (t : Tid) (s : State) : Out := .next (s.dbgReset t)
/-- HALTS. -/
def execHalts (n : Fin 16) (s : State) : Out := .next (s.dbgHaltS n)
/-- RESUMES. -/
def execResumes (n : Fin 16) (s : State) : Out := .next (s.dbgResumeS n)
/-- DBG_ABORT. -/
def execDbgAbort (t : Tid) (p : Port) (s : State) : Out := .next (s.dbgAbortT t p)
/-- DBG_FREEZE. -/
def execDbgFreeze (s : State) : Out := .next s.dbgFreezeCmd
/-- RESUME. -/
def execResume (high : Bool) (s : State) : Out := .next (s.dbgResume high)
/-- DBG_TREG_ACCESS (R518). -/
def execDbgTregAccess (we : Bool) (r : Fin 41) (v : Word) (s : State) : Out :=
  .next (if s.dbgOpen then
    let q := s.dbgTreg we r v
    { q.2 with rdata := q.1 }
  else s)
/-- DBG_SHOLD_WRITE (R521). -/
def execDbgSholdWrite (v : Word) (s : State) : Out := .next (if s.dbgOpen then s.dbgShold v else s)
/-- DBG_FRSEL_WRITE (R533). -/
def execDbgFrselWrite (v : Word) (s : State) : Out :=
  .next (if s.dbgOpen then (s.setReg rDbgFrSel (v &&& 0xFFFF#32)).setReg rDbgFrPtr 0#32 else s)
/-- DBG_FRDATA_READ (R533). -/
def execDbgFrdataRead (s : State) : Out :=
  .next (if s.dbgOpen then
    let r := s.frRead
    { r.2.2 with rdata := r.2.1 }
  else s)

/-- REGISTER_WRITE (R10, R556, R557): a write of any master to a register; the DBG unit answers the debug port alone, and that not at
LK2 (R80). A write to an engine whose clock stands still has not reached it (R309). -/
def execRegisterWrite (m : Master) (a : Addr) (v : Word) (s : State) : Out :=
  .next (match m with
  | .debugger => if s.dbgSec && !s.regWaits a.toNat then (s.dbgAccess true a.toNat v).2.2 else s
  | _ => s.gated (if s.regWaits a.toNat then s else (s.regAccess m true a.toNat v).2.2))

/-! ### The freeze (R526–R529) -/

/-- FREEZE_N_LOW (R526). -/
def execFreezeNLow (s : State) : Out := .next (s.freezeTrigger 0)

/-- The domains that count as acknowledged from the start (R529): ACLK, SMCLK, TCK, BOOTCLK, and those of absent instances. -/
def ackedFirst (c : Config.Kind) (d : Nat) : Bool :=
  decide (d ∈ ([14, 17, 18, 59] : List Nat)) || (decide (d < 8) && decide (c.engines ≤ d)) ||
  (decide (19 ≤ d) && decide (d < 27) && decide (c.links ≤ (d - 19) % 4)) || (decide (27 ≤ d) && decide (d < 59) && decide (c.ses ≤ d - 27))
/-- DBG_FRZACKk for the domains that satisfy `p`. -/
def ackWord (p : Nat → Bool) (k : Nat) : Word := BitVec.ofNat 32 (maskOf 32 (fun j => decide (32 * k + j < 60) && p (32 * k + j)))

/-- FREEZE_REQUEST (R528): DBG_FRZCAUSE holds the triggers since the last request; every domain gates its clock, and MODE becomes
HALTED. -/
def execFreezeRequest (s : State) : Out :=
  .next (if s.mode ≠ .run ∨ s.frzTrig.isEmpty then s
  else
    let s1 := s.setReg rDbgFrzCause (BitVec.ofNat 32 (maskOf 7 (fun k => s.frzTrig.contains k)))
    let s2 := ((s1.rsetFld rDbgFrzStat 0 2 1).setReg (rDbgFrzAck 0) (ackWord (ackedFirst s.kind) 0)).setReg (rDbgFrzAck 1) (ackWord (ackedFirst s.kind) 1)
    { s2 with mode := .halted, frzTrig := [] })

/-- The freeze completes (R529): `notack` names the domains that did not acknowledge, for their clock stands still. What ran with time
stands still from here on. -/
def State.freezeDone (s : State) (cycles notack : Nat) : State :=
  let ack := ackWord (fun d => !notack.testBit d)
  let s := (({ s with mode := .run } : State).each (timeRegs) State.timePass)
  let s := { s with mode := .halted }
  let s1 := ((s.rsetFld rDbgFrzStat 0 2 2).setReg (rDbgFrzAck 0) (ack 0)).setReg (rDbgFrzAck 1) (ack 1)
  let s2 := (s1.rcount rDbgFrzCnt 0 16 1).rsetFld rDbgFrzCnt 16 16 (min 65535 cycles)
  let s3 : State := ({ s2 with dbg := { s2.dbg with notack := notack, late := 0, aon := s2.aon } } : State).each
    (members 32 (fun n => decide ((notack / 2 ^ (27 + n)) % 2 = 1))) (fun s n => s.modSe n (fun e => { e with stopped := true }))
  s3

/-- FREEZE_COMPLETE (R529). -/
def execFreezeComplete (cycles : Nat) (s : State) : Out :=
  .next (if s.rfld rDbgFrzStat 0 2 = 1 then s.freezeDone cycles 0 else s)

/-- FREEZE_ACK_TIMEOUT (R529). -/
def execFreezeAckTimeout (stopped : List (Fin 60)) (s : State) : Out :=
  .next (if s.rfld rDbgFrzStat 0 2 = 1 then
    s.freezeDone (max 1 (s.rfld rDbgFrzCfg 0 16) * 256)
      (maskOf 60 (fun d => stopped.any (fun x => decide (x.val = d)) && !ackedFirst s.kind d))
  else s)

end Machine
end Sys2Proof
end

