-- ==== Sys2Proof/Machine/Memory.lean ====
section
/-! DEFINITION. Loads, stores, FENCE and ATOM (R169–R172, R203, R220–R224), their answers, the grant of a scratchpad bank (R351–R362),
BTRD (R240), the compare points of twinned threads (R176–R180), and the ends of long stalls (R155). -/
namespace Sys2Proof
namespace Machine

/-! ### Where an address lies (R221, R550) -/

/-- The address an LDPC of a thread reads: copy B reads the thread's own program memory in its own engine's (R176, R213). -/
def State.twinAddr (s : State) (t : Nat) (a : Addr) : Addr :=
  let lo := 0x400000 + partner t / 16 * 0x20000
  if (s.thr t).copyB && decide (lo ≤ a.toNat) && decide (a.toNat < lo + 0x20000) then
    BitVec.ofNat 24 (0x400000 + t / 16 * 0x20000 + (a.toNat - lo))
  else a

/-- An address with a program-memory address taken as an offset (R178): that of the first engine's. -/
def pmOffset (a : Addr) : Addr := if inPm a.toNat then BitVec.ofNat 24 (0x400000 + a.toNat % 0x20000) else a

/-- The registers of MC, EV, SP, PG, SV and LK answer in FCLK (R172). -/
def fclkReg (a : Nat) : Bool :=
  (decide (0x620000 ≤ a) && decide (a < 0x630000)) || (decide (0x650000 ≤ a) && decide (a < 0x690000)) ||
  (decide (0x6D0000 ≤ a) && decide (a < 0x6E0000))

/-- An address of the unit register space. -/
def unitSpace (a : Nat) : Bool := decide (0x540000 ≤ a)

/-- A value of an access size as the 64 bits that reach the destination (R220). -/
def ldVal (sz : Size) (sx : Bool) (v : Nat) : BitVec 64 :=
  match sz with
  | .b8 => (if sx then sext 8 v else BitVec.ofNat 32 (v % 2 ^ 8)).setWidth 64
  | .b16 => (if sx then sext 16 v else BitVec.ofNat 32 (v % 2 ^ 16)).setWidth 64
  | .b32 => BitVec.ofNat 64 (v % 2 ^ 32)
  | .b64 => BitVec.ofNat 64 v

/-- A load from anything but the scratchpad and the service ROM (R221, R9): the value, none where it is refused. -/
def State.loadNow (s : State) (t : Tid) (a : Nat) (sz : Size) : Option Nat × State :=
  if s.pmAt a then (if s.upsetIn a (sizeBytes sz) then none else some (s.readLE a (sizeBytes sz)), s)
  else match sz with
    | .b32 =>
      let r := s.regAccess (.thread t) false a 0#32
      (if r.1 = 0 then some r.2.1.toNat else none, r.2.2)
    | .b64 =>
      (match pairHigh a with
      | some hi =>
        let r := s.pairRead (.thread t) a hi
        (some r.1.toNat, r.2)
      | none => (none, s))
    | _ => (none, s)

/-- A store to anything but the scratchpad (R221): whether it is performed. -/
def State.storeNow (s : State) (t : Tid) (e : StoreEntry) : Bool × State :=
  match e.size with
  | .b32 =>
    let r := s.regAccess (.thread t) true e.addr.toNat (loW e.data)
    (decide (r.1 = 0), r.2.2)
  | _ => (false, s)

/-! ### Deferred results (R163) -/

/-- A pending BUSERR (R182). -/
def State.busErr (s : State) (t : Nat) (a : Addr) : State :=
  s.modThr t (fun h => { h with imp := { h.imp with buserr := h.imp.buserr ++ [a] } })

/-- The first deferred result that `p` names, changed by `f`. -/
def updFirst (p : Deferred → Bool) (f : Deferred → Deferred) : List Deferred → List Deferred
  | [] => []
  | d :: r => if p d then f d :: r else d :: updFirst p f r

/-- The answer to an access that waits: its value is on its way, or its refusal. -/
def Thread.settle (h : Thread) (p : Deferred → Bool) (v : Option Nat) : Thread :=
  let ans (d : Deferred) : DefState := match v with
    | some n => .flight (ldVal d.size d.sx n)
    | none => .failed
  { h with defer := updFirst (fun d => decide (d.st = .waiting) && p d) (fun d => { d with st := ans d }) h.defer }

/-- The access is the load of an address and size, and has been sent. -/
def isLoad (a : Addr) (sz : Size) (d : Deferred) : Bool := decide (d.addr = a) && decide (d.size = sz) && d.atom.isNone && !d.held
/-- The access is the ATOM, and has been sent. -/
def isAtom (a : Addr) (d : Deferred) : Bool := decide (d.addr = a) && d.atom.isSome && !d.held

/-- Long stalls that end when data arrives are over once no marked result and no late fetch is outstanding (R155). -/
def Thread.stallEnds (h : Thread) : Thread :=
  if h.defer.any (fun d => d.late) || h.fetchLate then h
  else match h.stall with
    | .late | .regLoad => { h with stall := .none }
    | .hold => if h.held.isEmpty then { h with stall := .none } else h
    | _ => h

/-- LOAD_DATA_RETURN (R163, R182): the oldest answer reaches the engine; a result that is due is written at once; a refusal leaves the
destination and makes a BUSERR pending. -/
def State.loadReturn (s : State) (t : Nat) : State :=
  match (s.thr t).defer.find? (fun d => match d.st with
    | .flight _ | .failed => true
    | _ => false) with
  | none => s
  | some d =>
    let s1 := match d.st with
      | .flight v => s.modThr t (fun h =>
          (({ h with defer := [] } : Thread).chkDone d.chk (some v)).writeDue [] (updFirst (fun e => decide (e = d)) (fun e => { e with st := .ready v, late := false }) h.defer))
      | _ => (s.modThr t (fun h => ({ h with defer := h.defer.erase d } : Thread).chkDone d.chk none)).busErr t d.addr
    s1.modThr t Thread.stallEnds

/-- Loads of a thread that waited for a register of a stopped engine, whose clock runs again, are answered (R309). -/
def State.waitedLoads (s : State) (t : Tid) : State :=
  if (s.thr t).twin then s
  else ((s.thr t).defer.filter (fun d => decide (d.st = .waiting) && d.atom.isNone && !d.held && unitSpace d.addr.toNat &&
      !s.regWaits d.addr.toNat)).foldl (fun (s : State) d =>
    let r := s.loadNow t d.addr.toNat d.size
    r.2.modThr t (fun h => h.settle (isLoad d.addr d.size) r.1)) s

/-- LOAD_DATA_RETURN. -/
def execLoadDataReturn (t : Tid) (s : State) : Out := .next (s.gated ((s.waitedLoads t).loadReturn t))

/-! ### Sending accesses -/

/-- A load that waits among the deferred results leaves the engine (R170, R172, R178). -/
def State.sendLoad (s : State) (t : Tid) (d : Deferred) : State :=
  let a := d.addr.toNat
  let slow := unitSpace a && !fclkReg a
  let s := if slow then s.modThr t (fun h => { h with
      stall := if h.stall = .none then .regLoad else h.stall
      defer := updFirst (fun e => decide (e.st = .waiting) && isLoad d.addr d.size e) (fun e => { e with late := true }) h.defer }) else s
  if (s.thr t).twin && unitSpace a then s.modThr t (fun h => { h with recs := h.recs ++ [.regLoad d.addr d.size] })
  else if a < s.spLimit ∨ inRom a then s.pushLane t a (.load t d.addr d.size)
  else if s.regWaits a then s
  else
    let r := s.loadNow t a d.size
    r.2.modThr t (fun h => h.settle (isLoad d.addr d.size) r.1)

/-- A store enters the store buffer and is sent (R169, R178). -/
def State.enterStore (s : State) (t : Tid) (e : StoreEntry) : State :=
  let s1 := s.modThr t (fun h => { h with sbuf := h.sbuf ++ [e] })
  if (s.thr t).twin then s1.modThr t (fun h => { h with recs := h.recs ++ [.store e.addr e.size e.data] })
  else if e.addr.toNat < s.spLimit then s1.pushLane t e.addr.toNat (.store t e false)
  else s1

/-- An NT store is sent directly (R171). -/
def State.sendNt (s : State) (t : Tid) (e : StoreEntry) : State :=
  if (s.thr t).twin then s.modThr t (fun h => { h with recs := h.recs ++ [.store e.addr e.size e.data] })
  else if e.addr.toNat < s.spLimit then s.pushLane t e.addr.toNat (.store t e true)
  else
    let r := s.storeNow t e
    if r.1 then r.2 else r.2.busErr t e.addr

/-- An ATOM that waits among the deferred results is sent (R203, R223): one that addresses no scratchpad word is refused. -/
def State.sendAtom (s : State) (t : Tid) (d : Deferred) : State :=
  match d.atom with
  | none => s
  | some (op, rs, cmp) =>
    if (s.thr t).twin then s.modThr t (fun h => { h with recs := h.recs ++ [.atom d.addr op rs cmp] })
    else if d.addr.toNat < s.spLimit then s.pushLane t d.addr.toNat (.atom t d.addr op rs cmp)
    else s.modThr t (fun h => h.settle (isAtom d.addr) none)

/-- A channel operation that was held goes on (R171, R178). -/
def State.sendHeldChan (s : State) (t : Tid) (op : ChanOp) : State :=
  if (s.thr t).twin then s.modThr t (fun h => { h with recs := h.recs ++ [.chan op] }) else s.sendChan t op

/-! ### The store buffer (R169–R171) -/

/-- Two byte ranges meet. -/
def meets (a n b m : Nat) : Bool := decide (a < b + m) && decide (b < a + n)
/-- A pending store meets a load's bytes. -/
def StoreEntry.meets (e : StoreEntry) (d : Deferred) : Bool :=
  Machine.meets e.addr.toNat (sizeBytes e.size) d.addr.toNat (sizeBytes d.size)
/-- A pending store holds every byte of a load. -/
def StoreEntry.holds (e : StoreEntry) (d : Deferred) : Bool :=
  decide (e.addr.toNat ≤ d.addr.toNat) && decide (d.addr.toNat + sizeBytes d.size ≤ e.addr.toNat + sizeBytes e.size)
/-- The value that a pending store gives a load it holds. -/
def StoreEntry.forward (e : StoreEntry) (d : Deferred) : Nat :=
  e.data.toNat / 2 ^ (8 * (d.addr.toNat - e.addr.toNat)) % 2 ^ (8 * sizeBytes d.size)

/-- A load meets the store buffer (R170): forwarded from the youngest entry that meets it, held (none), or sent. -/
def State.memLoad (s : State) (t : Tid) (d : Deferred) : Option State :=
  match (s.thr t).sbuf.reverse.find? (fun e => e.meets d) with
  | none => some (s.sendLoad t d)
  | some e =>
    if e.holds d then
      let v := ldVal d.size d.sx (e.forward d)
      some (s.modThr t (fun k => ({ k with
        defer := updFirst (fun x => decide (x.st = .waiting) && isLoad d.addr d.size x) (fun x => { x with st := .ready v, late := false }) k.defer } :
        Thread).chkDone d.chk (some v)))
    else none

/-- The first held result let go; one whose hold was a long stall ends that stall with its data (R155). -/
def Thread.letFirst (h : Thread) : Thread :=
  { h with defer := updFirst (fun d => d.held) (fun d => { d with held := false, late := decide (h.stall = .hold) }) h.defer }

/-- The first operation held in the engine goes on, unless the store buffer holds it (none) (R155, R170, R171). -/
def State.unholdOne (s : State) (t : Tid) : Option State :=
  let h := s.thr t
  match h.held with
  | [] => none
  | x :: r =>
    let go : State := s.modThr t (fun h => { h with held := r, stall := if h.stall = .hold then .none else h.stall })
    match x.op with
    | .load d => ((s.modThr t (fun h => { h with held := r })).modThr t Thread.letFirst).memLoad t d |>.map (fun s => s.modThr t Thread.stallEnds)
    | .store e => if h.sbuf.length < 4 then some (go.enterStore t e) else none
    | .ntStore e => if h.sbuf.isEmpty && !s.regWaits e.addr.toNat then some (go.sendNt t e) else none
    | .fence => if h.sbuf.isEmpty then some go else none
    | .atom d => if h.sbuf.isEmpty then some (((s.modThr t Thread.letFirst).modThr t (fun h => { h with held := r })).sendAtom t d |>.modThr t Thread.stallEnds) else none
    | .chan op => if h.sbuf.isEmpty then some (go.sendHeldChan t op) else none

/-- Operations held in the engine go on in program order, as far as the store buffer lets them. -/
def State.unholdN (s : State) (t : Tid) : Nat → State
  | 0 => s
  | n + 1 =>
    match s.unholdOne t with
    | some s1 => s1.unholdN t n
    | none => s
/-- See `State.unholdN`. -/
def State.unhold (s : State) (t : Tid) : State := s.unholdN t (s.thr t).held.length

/-- The first entry that `p` names marked with its target's answer. -/
def markStore (p : StoreEntry → Bool) (g : Grant) : List StoreEntry → List StoreEntry
  | [] => []
  | e :: r => if p e then { e with grant := g } :: r else e :: markStore p g r

/-- The answer of a store's target reaches the entry of the thread, of both copies of a pair; an NT store, which has no entry, can only
be refused (R169, R182). -/
def State.storeAnswer (s : State) (t : Nat) (e : StoreEntry) (ok : Bool) : State :=
  let p (x : StoreEntry) : Bool := decide ({ x with addr := pmOffset x.addr } = { e with addr := pmOffset e.addr, grant := .pending })
  s.each (s.copies t) (fun s t =>
    if (s.thr t).sbuf.any p then s.modThr t (fun h => { h with sbuf := markStore p (if ok then .granted else .refused) h.sbuf })
    else if ok then s else s.busErr t e.addr)

/-- STORE_GRANT (R169, R182): the first entry whose target has answered is freed; a store to a unit register is performed in the order
of the buffer when its turn comes. -/
def State.storeGrant (s : State) (t : Tid) : State :=
  let h := s.thr t
  match h.sbuf.find? (fun e => decide (e.grant ≠ .pending) || (!h.twin && decide (s.spLimit ≤ e.addr.toNat) && !s.regWaits e.addr.toNat)) with
  | none => s
  | some e =>
    let s1 := s.modThr t (fun h => { h with sbuf := h.sbuf.erase e })
    let s2 := match e.grant with
      | .granted => s1
      | .refused => s1.busErr t e.addr
      | .pending =>
        let r := s1.storeNow t e
        if r.1 then r.2 else r.2.busErr t e.addr
    s2.unhold t

/-- STORE_GRANT. -/
def execStoreGrant (t : Tid) (s : State) : Out := .next (s.gated (s.storeGrant t))

/-- LATE_ACCESS_MARK (R155): the oldest access still unanswered, or the fetch from the service ROM; its stall ends with its answer, also
beside another long stall of the thread. -/
def execLateAccessMark (t : Tid) (s : State) : Out :=
  .next (s.gated (
    let h := s.thr t
    let out (d : Deferred) : Bool := (match d.st with
      | .waiting | .flight _ | .failed => true
      | .ready _ => false) && !d.late && !d.held
    let late (h : Thread) : Thread := { h with stall := if h.stall = .none then .late else h.stall }
    if h.defer.any out then
      s.modThr t (fun h => late { h with defer := updFirst out (fun d => { d with late := true }) h.defer })
    else if inRom h.pc.toNat then s.modThr t (fun h => late { h with fetchLate := true })
    else s))

/-- ENGINE_HOLD_STALL (R155, R171). -/
def execEngineHoldStall (t : Tid) (s : State) : Out :=
  .next (s.gated (if (s.thr t).held ≠ [] ∧ (s.thr t).stall = .none then s.modThr t (fun h => { h with stall := .hold }) else s))

/-- ROM_FETCH_RETURN (R167, R168): a late fetch's stall ends; an uncorrectable word makes the instruction at PC take BUSERR. -/
def execRomFetchReturn (t : Tid) (bad : Bool) (s : State) : Out :=
  .next (s.gated (if inRom (s.thr t).pc.toNat then
    s.modThr t (fun h => ({ h with romBad := if bad then some h.pc else h.romBad, fetchLate := false } : Thread).stallEnds)
  else s))

/-! ### Instructions (R220, R223, R240) -/

/-- The registers a load writes. -/
def loadDests (sz : Size) (rd : Nat) : List (Nat × Bool) := if sz = .b64 then [(rd, false), (rd + 1, true)] else [(rd, false)]

/-- The traps of an access before it is made: an illegal register pair, a misaligned address (R182, R199, R206). -/
def accessTrap (sz : Size) (r : Reg) (addr : Thread → Addr) (h : Thread) : Option TrapInfo :=
  if decide (sz = .b64) && !evenReg r then some { cause := 1 }
  else if aligned (addr h) sz then none else some { cause := 3, tfa := some (addr h).toNat }

/-- The traps of a load: SX stands only with W8 and W16 (R198). -/
def loadTrap (sz : Size) (sx : Bool) (r : Reg) (addr : Thread → Addr) (h : Thread) : Option TrapInfo :=
  if sx && decide (sz ≠ .b8) && decide (sz ≠ .b16) then some { cause := 1 } else accessTrap sz r addr h

/-- A load (R170): forwarded from the youngest store that meets it, held, or sent. Its result is deferred by one instruction; what the
debugger watches is met here. `at_` gives the address as it leaves the engine. -/
def State.issueLoad (s : State) (i : Iss) (sz : Size) (sx : Bool) (rd : Reg) (addr : Thread → Addr) (at_ : Addr → Addr)
    (post : Thread → Thread) : State :=
  s.issueLater i (unitSpace (addr (s.thr i.t)).toNat) (loadTrap sz sx rd addr) (fun h s =>
    let d : Deferred := { dests := loadDests sz rd, wait := 2, st := .waiting, addr := at_ (addr h), size := sz, sx := sx, chk := issChkAt i h }
    let s1 := (s.modThr i.t post).wpStop i.t (s.wpHits i.t (addr h) (sizeBytes sz) true false)
    let hold := s1.modThr i.t (fun k => { k with defer := k.defer ++ [{ d with held := true }], held := k.held ++ [{ op := .load d, pc := h.pc }] })
    if !h.held.isEmpty then (hold, none)
    else match h.sbuf.reverse.find? (fun e => e.meets d) with
      | none => ((s1.modThr i.t (fun k => { k with defer := k.defer ++ [d] })).sendLoad i.t d, none)
      | some e =>
        if e.holds d then
          let v := ldVal sz sx (e.forward d)
          (s1.modThr i.t (fun k => { k with defer := k.defer ++ [{ d with st := .ready v }] }), some v)
        else (hold, none))

/-- LD (R220). -/
def execLd (i : Iss) (sz : Size) (sx : Bool) (rd : Reg) (f : AddrForm) (s : State) : Out :=
  .next (s.issueLoad i sz sx rd (formAddr f) id (formPost f))
/-- LEA (R204, R220). -/
def execLea (i : Iss) (rd ga : Reg) (d : Word) (s : State) : Out :=
  .next (s.issueVal i true rd (fun h => (formAddr (.disp ga d) h).setWidth 32))
/-- LDPC (R204, R213, R220): A is the address of the instruction's first byte. -/
def execLdpc (i : Iss) (sz : Size) (sx : Bool) (rd : Reg) (d : Word) (s : State) : Out :=
  .next (s.issueLoad i sz sx rd (fun h => target h d) (s.twinAddr i.t) id)

/-- What a store of a size sends. -/
def storeData (sz : Size) (rs : Reg) (h : Thread) : BitVec 64 :=
  match sz with
  | .b64 => h.rpair rs
  | .b32 => (h.rg rs).setWidth 64
  | .b16 => BitVec.ofNat 64 ((h.rg rs).toNat % 2 ^ 16)
  | .b8 => BitVec.ofNat 64 ((h.rg rs).toNat % 2 ^ 8)

/-- ST (R169, R171, R220). -/
def execSt (i : Iss) (sz : Size) (nt : Bool) (rs : Reg) (f : AddrForm) (s : State) : Out :=
  .next (s.issue i true (accessTrap sz rs (formAddr f)) (fun h s =>
    let e : StoreEntry := { addr := formAddr f h, size := sz, data := storeData sz rs h }
    let s1 := (s.modThr i.t (formPost f)).wpStop i.t (s.wpHits i.t (formAddr f h) (sizeBytes sz) false true)
    let hold (op : HeldOp) : State := s1.modThr i.t (fun k => { k with held := k.held ++ [{ op := op, pc := h.pc }] })
    let s2 := if nt then (if h.sbuf.isEmpty && h.held.isEmpty && !s.regWaits e.addr.toNat then s1.sendNt i.t e else hold (.ntStore e))
      else if h.sbuf.length < 4 && h.held.isEmpty then s1.enterStore i.t e
      else hold (.store e)
    (s2, none)))

/-- FENCE (R171, R220). -/
def execFence (i : Iss) (s : State) : Out :=
  .next (s.issueThr i true (fun h =>
    if h.sbuf.isEmpty && h.held.isEmpty then h else { h with held := h.held ++ [{ op := .fence, pc := h.last }] }))

/-- An ATOM-prefixed store (R203, R223). -/
def State.issueAtom (s : State) (i : Iss) (op : AtomOp) (rs rd : Reg) (f : AddrForm) : State :=
  s.issueLater i true (accessTrap .b32 rs (formAddr f)) (fun h s =>
    let d : Deferred := { dests := [(rd.val, false)], wait := 2, st := .waiting, addr := formAddr f h, atom := some (op, h.rg rs, h.rg rd), chk := issChkAt i h }
    let s1 := (s.modThr i.t (formPost f)).wpStop i.t (s.wpHits i.t (formAddr f h) 4 true true)
    (if h.sbuf.isEmpty && h.held.isEmpty then (s1.modThr i.t (fun k => { k with defer := k.defer ++ [d] })).sendAtom i.t d
      else s1.modThr i.t (fun k => { k with defer := k.defer ++ [{ d with held := true }], held := k.held ++ [{ op := .atom d, pc := h.pc }] }), none))

/-- ATOM SWAP (R203). -/
def execAtomSwap (i : Iss) (rs rd : Reg) (f : AddrForm) (s : State) : Out := .next (s.issueAtom i .swap rs rd f)
/-- ATOM ADD (R203). -/
def execAtomAdd (i : Iss) (rs rd : Reg) (f : AddrForm) (s : State) : Out := .next (s.issueAtom i .add rs rd f)
/-- ATOM AND (R203). -/
def execAtomAnd (i : Iss) (rs rd : Reg) (f : AddrForm) (s : State) : Out := .next (s.issueAtom i .and rs rd f)
/-- ATOM OR (R203). -/
def execAtomOr (i : Iss) (rs rd : Reg) (f : AddrForm) (s : State) : Out := .next (s.issueAtom i .or rs rd f)
/-- ATOM XOR (R203). -/
def execAtomXor (i : Iss) (rs rd : Reg) (f : AddrForm) (s : State) : Out := .next (s.issueAtom i .xor rs rd f)
/-- ATOM MINU (R203). -/
def execAtomMinu (i : Iss) (rs rd : Reg) (f : AddrForm) (s : State) : Out := .next (s.issueAtom i .minu rs rd f)
/-- ATOM MAXU (R203). -/
def execAtomMaxu (i : Iss) (rs rd : Reg) (f : AddrForm) (s : State) : Out := .next (s.issueAtom i .maxu rs rd f)
/-- ATOM CAS (R203, R223). -/
def execAtomCas (i : Iss) (rs rd : Reg) (f : AddrForm) (s : State) : Out := .next (s.issueAtom i .cas rs rd f)

/-- The fabric's copy of block time as it is read next: it never goes back and lags by a free value within the bound (R240). -/
def BlockTime.snapshot (b : BlockTime) (lag : Nat) : BlockTime := { b with copy := max b.copy (b.bt.toNat - lag % (Config.btLagMax + 1)) }
/-- The copy read. -/
def State.readCopy (s : State) : Nat × State :=
  let b := s.bt.snapshot s.free.toNat
  (b.copy % 2 ^ 32, { s.drew with bt := b })

/-- BTRD (R240, R178). -/
def execBtrd (i : Iss) (rd : Reg) (s : State) : Out :=
  .next (s.issueLater i true (fun _ => none) (fun h s =>
    let d : Deferred := { dests := [(rd.val, false)], wait := 2, st := .waiting, addr := BitVec.ofNat 24 rBtCntLo, chk := issChkAt i h }
    if (s.thr i.t).twin then (s.modThr i.t (fun k => { k with recs := k.recs ++ [.blockTime], defer := k.defer ++ [d] }), none)
    else
      let r := s.readCopy
      (r.2.modThr i.t (fun k => { k with defer := k.defer ++ [{ d with st := .flight (BitVec.ofNat 64 r.1) }] }), none)))

/-! ### Ends of waits (R155, R237–R239) -/

/-- WAITT ends with a count (R238). -/
def Thread.gotCount (h : Thread) (rd : Nat) (v : Word) : Thread :=
  ({ h.write rd v with stall := .none } : Thread).chkDone (some h.last) (some (v.setWidth 64))

/-- A release of one thread: its condition holds, or its release is on its way. -/
def State.waitRelease (s : State) (t : Nat) : State :=
  let h := s.thr t
  match h.stall with
  | .waitev mask rd =>
    let v := h.evp &&& mask
    if v ≠ 0#8 then s.modThr t (fun h =>
      ({ h.write rd (v.setWidth 32) with evp := h.evp &&& ~~~ v, stall := .none } : Thread).chkDone (some h.last) (some (v.setWidth 64))) else s
  | .waitt tm rd => if s.rbit (rTmStat tm) 0 then s.modThr t (fun h => h.gotCount rd (s.reg (rTmCnt tm))) else s
  | .waitd rd v => s.modThr t (fun h => h.gotCount rd v)
  | .yield => s.modThr t (fun h => { h with stall := .none })
  | .sleep ga =>
    if fld ga 0 16 = 0 ∨ h.evp &&& ga.setWidth 8 ≠ 0#8 ∨ (sleepPorts ga).any (fun p => s.portReady t p) then
      s.modThr t (fun h => { h with stall := .none, sleepMarked := false })
    else s
  | _ => s

/-- WAIT_RELEASE (R155, R178): a release addressed to a twinned thread reaches both copies; YIELD ends in each copy by itself. -/
def execWaitRelease (t : Tid) (s : State) : Out :=
  .next (s.gated (if (s.thr t).stall = .yield then s.waitRelease t else s.each (s.copies t) State.waitRelease))

/-! ### The grant of a scratchpad bank (R351–R362) -/

/-- A read of the service ROM that its bank grants (R357): none for a word that is uncorrectable. A word differs from what was written
by `err`, and is corrected on every read; V2 is 0. -/
def romGrant (a n : Nat) (err : WordErr) : Option Nat :=
  if (decode (err.map (fun p => (p.1.val, p.2)))).1.good then some (State.romLE a n) else none

/-- A host access to the scratchpad, or read of the ROM, that its bank grants: the answer is decided (R36, R362). -/
def State.hostGrant (s : State) (err : WordErr) : State :=
  match s.ports.hostQ.find? (fun r => r.sent && r.ans.isNone) with
  | none => s
  | some r =>
    let n := 2 ^ r.size
    let a := r.addr.toNat
    let q := if inRom a then ((romGrant a n err).isSome, (romGrant a n err).getD 0, s) else s.spAccess r.we a n (laneIn a n r.wdata) err
    let ans : Nat × Word := if q.1 then (0, if r.we then 0#32 else laneOut a n q.2.1) else (4, 0#32)
    let s1 := q.2.2
    { s1 with ports := { s1.ports with hostQ := s1.ports.hostQ.map (fun x => if x.sent && x.ans.isNone then { x with ans := some ans } else x) } }

/-- A granted request is carried out (R351, R362). -/
def State.carryOut (s : State) (r : SpReq) (err : WordErr) : State :=
  match r with
  | .host => s.hostGrant err
  | .load t a sz =>
    if inRom a.toNat then s.modThr t (fun h => h.settle (isLoad a sz) (romGrant a.toNat (sizeBytes sz) err))
    else
      let q := s.spRead (wordOf a.toNat) err .master
      q.2.modThr t (fun h => h.settle (isLoad a sz) (if q.1.good then some (q.2.spReadLE a.toNat (sizeBytes sz)) else none))
  | .store t e _ =>
    let q := s.spRead (wordOf e.addr.toNat) err .master
    (if q.1.good then q.2.spWriteLE e.addr.toNat (sizeBytes e.size) e.data.toNat else q.2).storeAnswer t e q.1.good
  | .atom t a op rs cmp =>
    let q := s.spRead (wordOf a.toNat) err .master
    let old := q.2.spReadLE a.toNat 4
    let s1 := if q.1.good then q.2.spWriteLE a.toNat 4 (atomNew op (BitVec.ofNat 32 old) rs cmp).toNat else q.2
    s1.each (s1.copies t) (fun s t => s.modThr t (fun h => h.settle (isAtom a) (if q.1.good then some old else none)))

/-- SP_ACCESS_GRANT (R351–R362): a scratchpad bank, or one of the four of the service ROM, numbered from 32 (R357). -/
def execSpAccessGrant (bank : Fin 36) (err : WordErr) (wait : Nat) (s : State) : Out :=
  .next (if s.mode = .boot ∨ s.mode = .halted then s
  else match s.arbitrate bank with
    | none => s
    | some (r, slot, s1) => (if slot < 8 then s1.p3Late wait else s1).carryOut r err)

/-! ### Twinned threads (R178–R180) -/

/-- The effect of two records that agree, performed once (R178). -/
def State.twinEffect (s : State) (a : Tid) (r : TwinRec) : State :=
  match r with
  | .store ad sz data =>
    let e : StoreEntry := { addr := ad, size := sz, data := data }
    if ad.toNat < s.spLimit then s.pushLane a ad.toNat (.store a e false)
    else
      let q := s.storeNow a e
      q.2.storeAnswer a e q.1
  | .atom ad op rs cmp =>
    if ad.toNat < s.spLimit then s.pushLane a ad.toNat (.atom a ad op rs cmp)
    else s.each (s.copies a) (fun s t => s.modThr t (fun h => h.settle (isAtom ad) none))
  | .regLoad ad sz =>
    let q := s.loadNow a ad.toNat sz
    q.2.each (s.copies a) (fun s t => s.modThr t (fun h => h.settle (isLoad ad sz) q.1))
  | .blockTime =>
    let q := s.readCopy
    q.2.each (s.copies a) (fun s t => s.modThr t (fun h => h.settle (isLoad (BitVec.ofNat 24 rBtCntLo) .b32) (some q.1)))
  | .chan op => s.sendChan a op
  | .chk _ _ | .chkWait _ _ => s

/-- A record that a copy's result waits for. -/
def Deferred.waitsOn (d : Deferred) (l : List TwinRec) : Bool :=
  decide (d.st = .waiting) &&
  l.any (fun r => match r with
    | .regLoad a sz => isLoad a sz d
    | .atom a _ _ _ => isAtom a d
    | .blockTime => isLoad (BitVec.ofNat 24 rBtCntLo) .b32 d
    | _ => false)

/-- A long stall whose cancelling makes its instruction the cancelled one. -/
def Stall.cancels : Stall → Bool
  | .none | .late => false
  | _ => true

/-- An operation held in the engine would make no compare record: it goes on after a twin fault, unless its hold is a long stall. -/
def HeldOp.private_ : HeldOp → Bool
  | .load d => !unitSpace d.addr.toNat
  | .fence => true
  | _ => false

/-- The held operation is the load of a deferred result. -/
def HeldOp.isLoadOf (o : HeldOp) (d : Deferred) : Bool :=
  match o with
  | .load e => decide (e.addr = d.addr) && decide (e.size = d.size) && decide (e.dests = d.dests)
  | _ => false

/-- One copy after a twin fault (R180): records and what waits for them are discarded, a long stall is cancelled and its instruction is
the trap's tpc (R182). -/
def Thread.twinCancel (h : Thread) (tmo : Bool) : Thread :=
  let stores := (h.recs.filter (fun r => match r with
    | .store _ _ _ => true
    | _ => false)).length
  let kept := if h.stall = .hold then [] else h.held.filter (fun x => x.op.private_)
  { h with
    sbuf := h.sbuf.take (h.sbuf.length - stores)
    defer := (h.defer.filter (fun d => !d.waitsOn h.recs && (!d.held || kept.any (fun x => x.op.isLoadOf d)))).map (fun d => { d with late := false, chk := none })
    recs := [], held := kept, chanOut := false, resp := none, park := none, stall := .none, fetchLate := false
    pc := if h.stall = .hold then (h.held.head?.map (·.pc)).getD h.last else if h.stall.cancels then h.last else h.pc
    imp := if tmo then { h.imp with twintmo := true } else { h.imp with twin := true } }

/-- The staged messages of a pair's ports discarded. -/
def State.unstagePorts (s : State) (t : Nat) : State :=
  s.each (List.range 8) (fun s p =>
    let b := (s.thr (s.copyA t)).port p
    if b.bound && !b.recv then s.unstage b.ch else s)

/-- The staged, unfinished messages of a pair discarded at a twin fault: their ports' next send form is ABORTED (R180, R232). -/
def State.twinUnstage (s : State) (a : Nat) : State :=
  s.each (List.range 8) (fun s p =>
    let b := (s.thr a).port p
    if b.bound && !b.recv && !(s.chan b.ch).staged.isEmpty then
      (s.unstage b.ch).modThr a (fun h => h.setPort p { b with abortp := true })
    else s)

/-- A twin fault of pair `a` (R180, R501). -/
def State.twinFault (s : State) (a : Nat) (tmo : Bool) : State :=
  let s1 := s.each [a, a + 64] (fun s t => s.modThr t (fun h => h.twinCancel tmo))
  (((s1.twinUnstage a).rset (rETwFlt (a / 16)) (a % 16 + (if tmo then 16 else 0))).recBin 0x0C 0x02 a (b2n tmo) 3).raise 8

/-- The record fields of a channel operation (R178): port, operation, data words, END. The words of a send form are those it sends. -/
def ChanOp.sameOp (a b : ChanOp) : Bool :=
  decide (a.port = b.port) && decide (a.form = b.form) && decide (a.try_ = b.try_) && decide (a.wide = b.wide) && decide (a.snap = b.snap) &&
  (!(decide (a.form = .put) || decide (a.form = .pute)) || decide (a.words = b.words))

/-- A record that waits for its value (R178). -/
def TwinRec.waits : TwinRec → Bool
  | .chkWait _ _ => true
  | _ => false

/-- The effect of a record waits in the crossing to a stopped engine (R309). -/
def State.recWaits (s : State) (r : TwinRec) : Bool :=
  match r with
  | .store a _ _ | .regLoad a _ => s.regWaits a.toNat
  | _ => false

/-- Two records agree in every field, program-memory addresses of stores taken as offsets (R178). -/
def TwinRec.agrees (x y : TwinRec) : Bool :=
  match x, y with
  | .chan a, .chan b => a.sameOp b
  | .store a sz v, .store b sz' v' => decide (pmOffset a = pmOffset b) && decide (sz = sz') && decide (v = v')
  | _, _ => decide (x = y)

/-- TWIN_RECORD_MATCH (R178, R180): the first record of each copy; they agree in every field, or a twin fault follows. -/
def execTwinRecordMatch (pair : Fin 64) (s : State) : Out :=
  .next (s.gated (
    let a : Tid := ⟨pair.val, by omega⟩
    match (s.thr pair).twin, (s.thr pair).recs, (s.thr (pair + 64)).recs with
    | true, x :: _, y :: _ =>
      if x.waits || y.waits || s.recWaits x then s
      else if x.agrees y then (s.each [pair.val, pair.val + 64] (fun s t => s.modThr t (fun h => { h with recs := h.recs.tail }))).twinEffect a x
      else s.twinFault pair false
    | _, _, _ => s))

/-- TWIN_TIMEOUT (R179): a record of one copy waits for its partner's; no time counts while the partner copy is in a long stall. -/
def execTwinTimeout (pair : Fin 64) (s : State) : Out :=
  .next (s.gated (
    let a := s.thr pair
    let b := s.thr (pair + 64)
    if a.twin && ((!a.recs.isEmpty && b.recs.isEmpty && !b.longStall) || (a.recs.isEmpty && !b.recs.isEmpty && !a.longStall)) then
      s.twinFault pair true
    else s))

end Machine
end Sys2Proof
end

