-- ==== Sys2Proof/Machine/Drain.lean ====
section
/-! DEFINITION. What waits for in-flight accesses: thread restarts (R97–R99), Accept to Drain of a stand restart (R105, R107, R108), the
zeroise's first two steps (R508), and RELOAD (R147). -/
namespace Sys2Proof
namespace Machine

/-! ### In-flight accesses -/

/-- The thread that a request belongs to. -/
def SpReq.owner : SpReq → Option Nat
  | .load t _ _ => some t
  | .store t _ _ => some t
  | .atom t _ _ _ _ => some t
  | .host => none

/-- The requests of thread `t` in the lanes, in lane order, and behind them those of its engine's crossing queue. -/
def State.requestsOf (s : State) (t : Nat) : List SpReq :=
  (s.sp.lanes.map (fun l => l.2.filter (fun r => decide (r.owner = some t)))).flatten ++
  ((s.xqueue (t / 16)).map (·.2.2)).filter (fun r => decide (r.owner = some t))

/-- The accesses of thread `t` that wait in lanes are carried out, with rows that read clean (R98, R105). -/
def State.drainLanes (s : State) (t : Nat) : State :=
  let rs := s.requestsOf t
  let lanes := s.sp.lanes.foldl (fun (b : List (Nat × List SpReq)) l =>
    Bank.put (fun _ => []) b l.1 (l.2.filter (fun r => decide (r.owner ≠ some t)))) []
  let s1 : State := { s with sp := { s.sp with lanes := lanes } }
  let s2 := s1.setXq (t / 16) ((s.xqueue (t / 16)).filter (fun q => decide (q.2.2.owner ≠ some t)))
  rs.foldl (fun (s : State) r => s.carryOut r []) (s2.fillLanes (t / 16) (s.xqueue (t / 16)).length)

/-- The stores of a thread's buffer complete, oldest first; of a pair those that are compared (R98, R178). -/
def State.drainStores (s : State) (t : Tid) : State :=
  let s1 := s.drainLanes t
  ((s1.thr t).sbuf.filter (fun e => decide (e.grant = .pending) && !(s1.thr t).twin)).foldl (fun (s : State) e => (s.storeNow t e).2)
    (s1.modThr t (fun h => { h with sbuf := [] }))

/-- A held operation completes before a stand stops: a store or an ATOM. -/
def HeldOp.drains : HeldOp → Bool
  | .store _ | .ntStore _ | .atom _ => true
  | _ => false
/-- Stores and ATOMs held in the engine complete too, in program order (R105). -/
def State.drainHeld (s : State) (t : Tid) : State :=
  (List.range (s.thr t).held.length).foldl (fun (s : State) _ => (s.unhold t).drainStores t)
    (s.modThr t (fun h => { h with held := h.held.filter (fun x => x.op.drains) }))

/-- Blocked operations and waits of a thread cancelled, and what its engine holds (R98, R105). -/
def Thread.cancelAll (h : Thread) : Thread :=
  { h with held := [], fetchLate := false, chanOut := false, resp := none, park := none, defer := [], sbuf := [], recs := [], imp := {}, romBad := none, stall := .none }

/-! ### Thread restart (R97–R99) -/

/-- One copy restarted (R98): its stores complete, its staged messages go, its registers take their values at release; a debugger halt
stays (R519). -/
def State.restartCopy (s : State) (t : Tid) : State :=
  let s1 := (s.drainStores t).unstagePorts t
  ((s1.threadRestore t true).modThr t (fun h => { h with restarting := false })).rcount (rStcRcnt (s.thr t).stand) 16 16 1

/-- The other copy of a thread. -/
def partnerT (t : Tid) : Tid := ⟨partner t, by unfold partner; split <;> omega⟩

/-- THREAD_RESTART (R97–R99, R436): both copies of a pair together; in a stand that restarts it is absorbed (R96). -/
def execThreadRestart (t : Tid) (s : State) : Out :=
  .next (
    let h := s.thr t
    if s.mode = .run ∧ h.restarting ∧ s.standState h.stand = 1 then
      let s1 := s.restartCopy t
      let s2 := if h.twin then s1.restartCopy (partnerT t) else s1
      s2.svRestart (fun r => r.thr.any (fun k => decide (k = t.val) || (h.twin && decide (k = partner t))))
    else s)

/-! ### Accept to Drain (R105) -/

/-- Accept: causes, STATE, the storm check (R108); the debugger's halts in the stand end (R111). -/
def State.standAccept (s : State) (n : Nat) : State :=
  let d := s.stand n
  let s1 := s.each (members 8 (fun k => (BitVec.ofNat 32 d.causes).getLsbD k)) (fun s k => s.latchCause n k d.alarmId)
  let storm := s.rfld (rStcCfg n) 12 4
  ((s1.rsetFld (rStcStat n) 0 3 2).rclr rDbgShalt n).modStand n (fun e =>
    { e with req := false, parks := decide (storm ≠ 0) && decide (s.rfld (rStcStat n) 8 4 = storm), wdOn := false })

/-- Drain of one thread. -/
def State.drainThread (s : State) (t : Tid) : State :=
  ((s.drainStores t).drainHeld t).modThr t (fun h => { h.cancelAll with halted := false, step := false, restarting := false })

/-- The threads of a stand, as thread numbers. -/
def State.standTids (s : State) (n : Nat) : List Tid :=
  (List.finRange 128).filter (fun t => decide ((s.thr t).cls ≠ .idle) && decide ((s.thr t).stand = n))

/-- Fence and Drain: pins fail-safe, accesses complete, waits are cancelled, the channel table of R107. Threads, engines, timers and
routes stop by the stand's STATE. -/
def State.standFence (s : State) (n : Nat) : State :=
  let s1 := (s.standTids n).foldl State.drainThread (s.standFs n)
  (s1.drainChans n).modStand n (fun d => { d with step := .drained })

/-- STAND_RESTART (R105): a requested restart runs Accept to Drain. -/
def execStandRestart (n : Fin 16) (s : State) : Out :=
  .next (if s.mode = .run ∧ (s.stand n).req ∧ (s.stand n).step = .none then (s.standAccept n).standFence n else s)

/-! ### Zeroise (R508, R509) -/

/-- The stands that own a resource. -/
def State.ownedStands (s : State) : List Nat := members 16 (fun n => decide (s.standState n ≠ 0) && decide (s.standState n ≠ 5))

/-- A stand that a zeroise drains (R508): one that restarts already is drained again. -/
def State.zeroStand (s : State) (n : Nat) : State :=
  let s1 := s.modStand n (fun d => { d with causes := d.causes ||| 2 ^ 6, alarmId := s.sec.zsrc })
  ((s1.standAccept n).standFence n).modStand n (fun d => { d with zero := true })

/-- ZEROISE (R508): the key, then Accept to Drain of every stand that owns a resource; in BOOT and RECOVERY the key alone (R506). -/
def execZeroise (s : State) : Out :=
  .next (if s.sec.zero ≠ .asked ∨ s.mode = .halted then s
  else
    let s1 := s.zeroKey.abandonCipher
    let s2 := if s.mode = .run then s1.each s1.ownedStands State.zeroStand else s1
    { s2 with sec := { s2.sec with zero := .drained } })

/-! ### RELOAD (R147) -/

/-- A user that ends with the units of the image. -/
def TrUser.ofUnit : TrUser → Bool
  | .session _ | .svc _ => true
  | _ => false

/-- The requests of services and links at the ports end. -/
def State.dropUnits (s : State) : State :=
  let s1 := s.cpQuit CpUser.ofUnit
  { s1 with ports := { s1.ports with tr := s1.ports.tr.filter (fun r => !r.user.ofUnit) } }

/-- RELOAD acts: every stand runs Accept to Drain, the block enters RECOVERY, and with AUTO a source load follows. -/
def State.reloadNow (s : State) (v : Word) : State :=
  if s.mode ≠ .run then s
  else
    let s1 := s.each s.ownedStands (fun s n => (s.standAccept n).standFence n)
    let s2 := ({ s1.unitsOff.dropUnits.allFs with mode := .recovery } : State).recoveryLink
    if v.getLsbD 20 then s2.srcLoad else s2

/-- The end of a token check (R127, R147). -/
def State.commandEnd (s : State) (rel : Bool) (stat : Nat) : State :=
  let q := s.tokenEnd rel stat
  match q.2 with
  | some v => q.1.reloadNow v
  | none => q.1

end Machine
end Sys2Proof
end

