-- ==== Sys2Proof/Machine/Access.lean ====
section
/-! DEFINITION. The ports: host requests and responses (R35–R45, R83, R560), the cipher port (R63–R68, R531), the TRNG (R74–R76); the link
bridge (R435), and the frames that canopy links take, with RECOV requests served (R441, R464, R465). -/
namespace Sys2Proof
namespace Machine

/-! ### The host port -/

/-- A denied request counted in SEC.DENY (R498): bin 0 host, 1 link or recovery. -/
def State.denied (s : State) (code bin : Nat) : State := if code = 1 then s.recBin 0x0C 0x07 0 bin 1 else s

/-- The code that the host port decides itself at acceptance (R39, R560); 0 if none. -/
def State.hostEarly (s : State) (we : Bool) (a : Nat) : Nat :=
  if !s.rbit rBcMode 8 || s.shGroup 0 then 6
  else if decide (s.mode = .boot) && (we || !(a = rBcId || a = rBcCap || a = rBcMode)) then 5
  else 0

/-- The code of a request as the block checks it (R39). -/
def State.hostCode (s : State) (r : HostReq) : Nat :=
  let m := Master.host r.sec r.priv
  if r.size = 3 then (if s.busCheck m r.we r.addr.toNat 1 = 2 then 2 else 3) else s.busCheck m r.we r.addr.toNat (2 ^ r.size)

/-- A request waits for the clear of a zeroise (R509). -/
def State.zeroWaits (s : State) (a : Nat) : Bool :=
  decide (s.sec.zero = .drained) && (decide (a < s.kind.spSize) || (decide (rMcHput 0 ≤ a) && decide (a < 0x630000)))

/-- A request carried out on a register, a program memory or the ROM (R38, R42, R324): the answer. -/
def State.hostDo (s : State) (r : HostReq) : (Nat × Word) × State :=
  let a := r.addr.toNat
  if !r.we && (pairHigh a).isSome then
    let t := s.hostPairLow a
    ((0, t.rdata), t)
  else if !r.we && isPairHigh a then
    let t := s.hostPairHigh a
    ((0, t.rdata), t)
  else
    let q := s.busAccess (.host r.sec r.priv) r.we a (2 ^ r.size) r.wdata []
    ((q.1, q.2.1), q.2.2)

/-- The first request without an answer changed. -/
def firstOpen (f : HostReq → HostReq) : List HostReq → List HostReq
  | [] => []
  | r :: l => if r.ans.isNone then f r :: l else r :: firstOpen f l
/-- The answer of the first request without one. -/
def State.hostAnswer (s : State) (a : Nat × Word) : State :=
  { s with ports := { s.ports with hostQ := firstOpen (fun r => { r with ans := some a }) s.ports.hostQ } }

/-- The first request without an answer sent to its bank. -/
def State.hostSend (s : State) (a : Nat) : State :=
  ({ s with ports := { s.ports with hostQ := firstOpen (fun r => { r with sent := true }) s.ports.hostQ } } : State).setLane (bankOf a) 17 [.host]

/-- Requests take effect in the order of acceptance (R38): the next one that has no answer yet is served; one to the scratchpad waits
for its bank. -/
def State.hostPump (s : State) : Nat → State
  | 0 => s
  | n + 1 =>
    if s.mode = .halted then s
    else match s.ports.hostQ.find? (fun r => r.ans.isNone) with
      | none => s
      | some r =>
        if r.sent then s
        else
          let c := s.hostCode r
          if c ≠ 0 then ((s.hostAnswer (c, 0#32)).denied c 0).hostPump n
          else if s.zeroWaits r.addr.toNat || s.regWaits r.addr.toNat then s
          else if r.addr.toNat < s.spLimit ∨ inRom r.addr.toNat then s.hostSend r.addr.toNat
          else
            let q := s.hostDo r
            ((q.2.hostAnswer q.1).denied q.1.1 0).hostPump n

/-- HOST_REQUEST (R35, R36, R39): accepted while fewer than four requests are outstanding, the block is out of reset and not frozen. -/
def execHostRequest (we : Bool) (a : Addr) (size : Fin 4) (v : Word) (sec priv : Bool) (s : State) : Out :=
  .next (if s.mode = .halted ∨ (s.mode = .boot ∧ s.phase = 0) ∨ 4 ≤ s.ports.hostQ.length then s
  else
    let e := s.hostEarly we a.toNat
    let r : HostReq := { we := we, addr := a, size := size, wdata := v, sec := sec, priv := priv, ans := if e = 0 then none else some (e, 0#32) }
    ({ s with ports := { s.ports with hostQ := s.ports.hostQ ++ [r] } } : State).hostPump 4)

/-- XP_HPERR (R40, R83). -/
def State.hostErr (s : State) (r : HostReq) (code : Nat) : State :=
  if code = 0 ∨ code = 6 then s
  else if s.rbit rXpHpErr 31 then s.rset rXpHpErr 30
  else s.modReg rXpHpErr (fun w => (w &&& 0x40000000#32) ||| BitVec.ofNat 32 (r.addr.toNat + code * 2 ^ 24 + b2n r.we * 2 ^ 27 +
    b2n r.sec * 2 ^ 28 + b2n r.priv * 2 ^ 29 + 2 ^ 31))

/-- HOST_RESPONSE (R37, R44): the oldest request, once it has its answer. -/
def execHostResponse (s : State) : Out :=
  .next (if s.mode = .halted then s
  else
    let s0 := s.hostPump 4
    match s0.ports.hostQ with
    | r :: l =>
      (match r.ans with
      | some (code, d) =>
        let s1 : State := { s0 with ports := { s0.ports with hostQ := l, hpRerr := code }, rdata := d }
        (s1.hostErr r code).hostPump 4
      | none => s0)
    | [] => s0)

/-! ### RECOV requests and the link frames -/

/-- One RECOV frame taken from a receive store (R464–R466). -/
def State.recovOne (s : State) (n : Nat) (f : LinkFrame) : State :=
  let w := wordsOf f.payload
  let w0 := w.getD 0 0#32
  let op := fld w0 0 8
  let tag := fld w0 8 8
  if 0x81 ≤ op then (if s.mode = .run then s.lkResponse n f else s)
  else if s.mode = .run then s.recovSay n f.src (op + 0x80) tag 1 []
  else match op with
    | 1 =>
      let q := s.busAccess .recov false (w.getD 1 0#32).toNat 4 0#32 []
      (q.2.2.denied q.1 1).recovSay n f.src 0x81 tag q.1 [q.2.1]
    | 2 =>
      let q := s.busAccess .recov true (w.getD 1 0#32).toNat 4 (w.getD 2 0#32) []
      (q.2.2.denied q.1 1).recovSay n f.src 0x82 tag q.1 []
    | 3 => s.recovLoad n 3 tag f.src []
    | 4 => s.recovLoad n 4 tag f.src (f.payload.drop 4)
    | 5 => s.recovLoad n 5 tag f.src []
    | _ => s

/-- Every RECOV frame taken is served in turn. -/
def State.recovServe (s : State) : State := s.recovQ.foldl (fun (s : State) p => s.recovOne p.1 p.2) { s with recovQ := [] }

/-- A frame received, and what RECOV frames it lets through (R441, R464). -/
def State.frameIn (s : State) (n : Nat) (ty : FType) (f : LinkFrame) : State := s.gated (s.lkFrame n ty f).recovServe
/-- A RECOV frame with operation `p`. -/
def State.recovIn (s : State) (n : Nat) (f : LinkFrame) (p : Nat → Bool) : State :=
  if p (fld ((wordsOf f.payload).getD 0 0#32) 0 8) then s.frameIn n .recov f else s

/-- HELLO_FRAME (R445). -/
def execHelloFrame (n : Fin 4) (f : LinkFrame) (s : State) : Out := .next (s.frameIn n .hello f)
/-- ACK_FRAME (R447). -/
def execAckFrame (n : Fin 4) (f : LinkFrame) (s : State) : Out := .next (s.frameIn n .ack f)
/-- CDATA_FRAME (R460). -/
def execCdataFrame (n : Fin 4) (f : LinkFrame) (s : State) : Out := .next (s.frameIn n .cdata f)
/-- CREDIT_FRAME (R443). -/
def execCreditFrame (n : Fin 4) (f : LinkFrame) (s : State) : Out := .next (s.frameIn n .credit f)
/-- SYNC_FRAME (R459). -/
def execSyncFrame (n : Fin 4) (f : LinkFrame) (s : State) : Out := .next (s.frameIn n .sync f)
/-- GRANT_FRAME (R459). -/
def execGrantFrame (n : Fin 4) (f : LinkFrame) (s : State) : Out := .next (s.frameIn n .grant f)
/-- BDATA_FRAME (R456, R460). -/
def execBdataFrame (n : Fin 4) (f : LinkFrame) (s : State) : Out := .next (s.frameIn n .bdata f)
/-- FREEZE_FRAME (R461). -/
def execFreezeFrame (n : Fin 4) (f : LinkFrame) (s : State) : Out := .next (s.frameIn n .freeze f)
/-- TIME_FRAME (R462). -/
def execTimeFrame (n : Fin 4) (f : LinkFrame) (s : State) : Out := .next (s.frameIn n .time f)
/-- RECOV_READ (R464). -/
def execRecovRead (n : Fin 4) (f : LinkFrame) (s : State) : Out := .next (s.recovIn n f (· == 1))
/-- RECOV_WRITE (R464). -/
def execRecovWrite (n : Fin 4) (f : LinkFrame) (s : State) : Out := .next (s.recovIn n f (· == 2))
/-- RECOV_STREAM (R464). -/
def execRecovStream (n : Fin 4) (f : LinkFrame) (s : State) : Out := .next (s.recovIn n f (· == 3))
/-- RECOV_IMAGE (R464). -/
def execRecovImage (n : Fin 4) (f : LinkFrame) (s : State) : Out := .next (s.recovIn n f (· == 4))
/-- RECOV_ABORT (R464). -/
def execRecovAbort (n : Fin 4) (f : LinkFrame) (s : State) : Out := .next (s.recovIn n f (· == 5))
/-- RECOV_RESPONSE (R466). -/
def execRecovResponse (n : Fin 4) (f : LinkFrame) (s : State) : Out := .next (s.recovIn n f (fun k => decide (0x81 ≤ k)))

/-! ### The cipher port -/

/-- The order of R67; among services, whose order the rule does not give, the lower instance goes first (DESIGN CHOICE,
notes/assumptions/64.md); the token of an OTP or reload command has its place after the image loader. -/
def CpUser.rank : CpUser → Nat
  | .image => 0
  | .command => 1
  | .clear => 2
  | .debug => 3
  | .link n => 4 + n
  | .svc i => 8 + i
  | .gone => 72

/-- The waiting request of lowest rank, the older of two alike. -/
def cpNext : List CpReq → Option CpReq
  | [] => none
  | r :: l =>
    match cpNext l with
    | none => some r
    | some q => if q.user.rank < r.user.rank then some q else some r

/-- The end of a request at its user: 0 OK, 1 FAULT after its re-issue, 2 AUTHFAIL, 3 SLOTERR; `rdata`: the result beats. -/
def State.cpEnd (s : State) (r : CpReq) (stat : Nat) (rdata : List Byte) : State :=
  match r.user with
  | .image => s.imageEnd stat
  | .command => s.commandEnd (decide (r.dslot = 1)) stat
  | .clear => s.clrChecked stat
  | .debug => s.unlockEnd stat
  | .link n => (s.lkCipherEnd n stat rdata).recovServe
  | .svc i => s.svCipherEnd i stat rdata
  | .gone => s

/-- The request's slot is one of group 1 (R499). -/
def CpUser.slotGroup : CpUser → Bool
  | .link _ | .svc _ | .gone => false
  | _ => true

/-- CIPHER_REQUEST (R67, R499): the next request begins; under a mismatch of the slots a check fails without one. -/
def execCipherRequest (s : State) : Out :=
  .next (if s.mode = .halted ∨ s.ports.cpCur.isSome then s
  else match cpNext s.ports.cpWait with
    | none => s
    | some r =>
      let s1 : State := { s with ports := { s.ports with cpWait := s.ports.cpWait.erase r } }
      if r.user.slotGroup && s.shGroup 1 then s1.cpEnd r 2 []
      else
        let again := decide (r.user = .image) && s.boot.load.any (·.again)
        { s1 with ports := { s1.ports with cpCur := some r, cpAgain := again } })

/-- The port is free. -/
def State.cpFree (s : State) : State := { s with ports := { s.ports with cpCur := none, cpAgain := false } }
/-- FAULT1 set, with its pulse (R336). -/
def State.cpFault1 (s : State) : State := (s.rset rXpCpStat 1).pulse 270

/-- A request that ends FAULT or times out (R66). -/
def State.cpFault (s : State) (r : CpReq) (tmo : Bool) : State :=
  let s1 := s.rcount rXpCpStat 16 16 1
  let s2 := if tmo then s1.rset rXpCpStat 3 else s1
  let streamed := decide (r.user = .image) && s.boot.load.any (fun l => l.src = 3)
  if streamed then s2.cpFault1.cpFree.cpEnd r 1 []
  else if !s.ports.cpAgain then
    let s3 := s2.cpFault1
    if r.user = .image then s3.cpFree.imageAgain else { s3 with ports := { s3.ports with cpAgain := true } }
  else (((s2.rset rXpCpStat 2).raise 11).cpFree).cpEnd r 1 []

/-- CIPHER_RESULT (R63, R65, R66, R508): CP_RLAST with CP_RSTAT; codes above 3 are FAULT. The result of an abandoned request is
discarded. -/
def execCipherResult (a : CipherAnswer) (s : State) : Out :=
  .next (match s.ports.cpCur with
  | none => s
  | some r =>
    if s.mode = .halted ∨ s.ports.cpDiscard then s
    else if r.user = .gone then s.cpFree
    else if a.stat = 0 then s.cpFree.cpEnd r 0 a.rdata
    else if a.stat = 2 then ((s.rset rXpCpStat 4).cpFree).cpEnd r 2 []
    else if a.stat = 3 then ((s.rset rXpCpStat 5).cpFree).cpEnd r 3 []
    else s.cpFault r false)

/-- CIPHER_TIMEOUT (R66). -/
def execCipherTimeout (s : State) : Out :=
  .next (match s.ports.cpCur with
  | none => s
  | some r => if s.mode = .halted ∨ s.ports.cpDiscard then s else if r.user = .gone then s.cpFree else s.cpFault r true)

/-- CIPHER_RESUME_REISSUE (R531): result beats have been discarded after a resume; the request is sent again from its first beat. -/
def execCipherResumeReissue (s : State) : Out :=
  .next (if s.mode = .halted then s else { s with ports := { s.ports with cpDiscard := false } })

/-! ### The TRNG port -/

/-- A user's words are here. -/
def State.trGive (s : State) (u : TrUser) (ws : List Word) : State :=
  let w (k : Nat) : Word := ws.getD k 0#32
  match u with
  | .key => s.takeKey ws
  | .zero => s.takeReserve ws
  | .nonce => (s.setReg (rBcNonce 0) (w 0)).setReg (rBcNonce 1) (w 1)
  | .recNonce => (s.setReg (rErNonce 0) (w 0)).setReg (rErNonce 1) (w 1)
  | .debug => ({ s with sec := { s.sec with fresh := true } } : State).setReg (rSecDbgCh 0) (w 0) |>.setReg (rSecDbgCh 1) (w 1)
  | .session n => s.lkSession n (w 0)
  | .svc i => s.svRandom i ws

/-- TRNG_WORD (R74, R75): TR_HEALTH is 0, and HFAIL stays at 1 from the time that it was not; a healthy word goes to the request that waits longest, and is used once. -/
def execTrngWord (w : Word) (s : State) : Out :=
  .next (if s.mode = .halted then s
  else
    let s1 := if s.ports.health then s.rset rXpTrStat 0 else s
    let s0 : State := { s1 with ports := { s1.ports with health := false } }
    match s0.ports.tr with
    | [] => s0
    | r :: l =>
      if r.got.length + 1 < r.want then { s0 with ports := { s0.ports with tr := { r with got := r.got ++ [w] } :: l } }
      else ({ s0 with ports := { s0.ports with tr := l } } : State).trGive r.user (r.got ++ [w]))

/-- TRNG_WAIT_TIMEOUT (R75). -/
def execTrngWaitTimeout (s : State) : Out :=
  .next (if s.ports.tr.isEmpty then s
  else match s.mode with
    | .boot => s.bootFail 0x13 0 0
    | .run => (s.rset rXpTrStat 2).raise 12
    | _ => s)

/-- TR_HEALTH_FAIL (R75): HFAIL is set as long as TR_HEALTH is 1, and so reads 1 whatever clears it; a freeze leaves XP unchanged
(R84). -/
def execTrHealthFail (s : State) : Out :=
  .next (s.gated (({ s with ports := { s.ports with health := true } } : State).rset rXpTrStat 0))

/-! ### A clock that starts again (R82, R95, R309, R529) -/

/-- STOPPED_CLOCK_START: a shift engine's clock runs again, and what waited for it goes on; in a freeze the domain gates late, and the
rest happens at the resume. -/
def execStoppedClockStart (d : Fin 60) (s : State) : Out :=
  .next (
    let se := decide (27 ≤ d.val) && decide (d.val ≤ 58)
    let n := d.val - 27
    let on (s : State) : State := if se then s.modSe n (fun e => { e with stopped := false }) else s
    if s.mode = .halted then
      if s.rfld rDbgFrzStat 0 2 = 2 ∧ (s.dbg.notack / 2 ^ d.val) % 2 = 1 ∧ (s.dbg.late / 2 ^ d.val) % 2 = 0 then
        (on { s with dbg := { s.dbg with late := s.dbg.late + 2 ^ d.val } }).rset (rDbgFrzAck (d / 32)) (d % 32)
      else s
    else if se then
      let s1 := (on s).seClockOn n
      let s2 := (List.finRange 128).foldl (fun (s : State) t => (s.waitedLoads t).unhold t) s1
      let s3 := match s2.dbg.accPend with
        | some (we, a, v) => if s2.regWaits a.toNat then s2 else s2.dbgPort we a v
        | none => s2
      s3.hostPump 4
    else s)

/-! ### The link bridge (R435) -/

/-- The status of a code of R39 at the bridge, with its counter. -/
def bridgeStatus (code : Nat) : Nat × Nat :=
  match code with
  | 1 => (6, 1)
  | 4 => (7, 2)
  | _ => (1, 3)

/-- Words read in turn until one fails: the words, the code, the state. -/
def State.bridgeWords (s : State) (sec : Bool) : Nat → Nat → List Word × Nat × State
  | 0, _ => ([], 0, s)
  | n + 1, a =>
    let q := s.busAccess (.link sec sec) false a 4 0#32 []
    if q.1 ≠ 0 then ([], q.1, q.2.2.denied q.1 1)
    else
      let r := State.bridgeWords q.2.2 sec n (a + 4)
      (q.2.1 :: r.1, r.2)

/-- Words written in turn until one fails: how many, the code, the state. -/
def State.bridgePut (s : State) (sec : Bool) : List Word → Nat → Nat × Nat × State
  | [], _ => (0, 0, s)
  | v :: l, a =>
    let q := s.busAccess (.link sec sec) true a 4 v []
    if q.1 ≠ 0 then (0, q.1, q.2.2.denied q.1 1)
    else
      let r := State.bridgePut q.2.2 sec l (a + 4)
      (r.1 + 1, r.2)

/-- A request answered with a failure: counted. -/
def State.bridgeCount (s : State) (i code : Nat) : State := if code = 0 then s else s.svCount i (bridgeStatus code).2 1
/-- The status of a response. -/
def bridgeCode (code : Nat) : Nat := if code = 0 then 0 else (bridgeStatus code).1

/-- The bytes of words as data of a message. -/
def dataOf (ws : List Word) : List Byte := (ws.map (fun w => leBytes 4 w.toNat)).flatten

/-- A request of the bridge served, with the attribute of the frame that brought it (R453). -/
def State.bridgeDo (s : State) (i : Nat) (r : SvcRec) (m : List Word) (sec : Bool) : State :=
  let a := (mWord m 1).toNat
  let bad (fixed : List Word) : State := (s.svCount i 3 1).svAnswer i r 0 1 m 1 fixed []
  match mOpc m with
  | 0x09 =>
    let n := (mWord m 2).toNat
    if !mSized m 2 ∨ mLen m ≠ 0 ∨ n = 0 ∨ 31 < n then bad []
    else
      let q := s.bridgeWords sec n a
      (q.2.2.bridgeCount i q.2.1).svAnswer i r 0 1 m (bridgeCode q.2.1) [] (dataOf q.1)
  | 0x0A =>
    let n := mLen m / 4
    if !mSized m 1 ∨ mLen m % 4 ≠ 0 ∨ n = 0 ∨ 30 < n then bad [0#32]
    else
      let q := s.bridgePut sec ((m.drop 2).take n) a
      (q.2.2.bridgeCount i q.2.1).svAnswer i r 0 1 m (bridgeCode q.2.1) [BitVec.ofNat 32 q.1] []
  | 0x0B =>
    if !mSized m 0 ∨ mLen m ≠ 0 then bad [0#32, 0#32]
    else s.svAnswer i r 0 1 m 0 [s.kind.bcId, s.nodeId] []
  | _ => bad []

/-- A request of the bridge for a register of a shift engine whose clock stands still waits (R309). -/
def State.bridgeWaits (s : State) (m : List Word) : Bool :=
  decide (mOpc m ≠ 0x0B) && (List.range (if mOpc m = 0x09 then (mWord m 2).toNat % 32 else mLen m / 4)).any (fun k => s.regWaits ((mWord m 1).toNat + 4 * k))

/-- The head request of the bridge, where its operation is `opc`, or one that the bridge does not know. Requests wait for the clear of a
zeroise (R509). -/
def State.bridgeServe (s : State) (i opc : Nat) : State :=
  match s.svOn i 8 with
  | none => s
  | some r =>
    match s.svChan r 0 0 with
    | none => s
    | some c =>
      match (s.chan c).msgs with
      | [] => s
      | h :: _ =>
        let k := mOpc (h.words.map (·.v))
        if (k ≠ opc ∧ (k = 0x09 ∨ k = 0x0A ∨ k = 0x0B)) ∨ s.sec.zero = .drained ∨ s.bridgeWaits (h.words.map (·.v)) then s
        else match s.svTake i r 0 0 with
          | (none, s1) => s1
          | (some m, s1) => (s1.svCount i 0 1).bridgeDo i r m h.sec

/-- BRIDGE_READ (R435). -/
def execBridgeRead (i : Fin 64) (s : State) : Out := .next (s.bridgeServe i 0x09)
/-- BRIDGE_WRITE (R435). -/
def execBridgeWrite (i : Fin 64) (s : State) : Out := .next (s.bridgeServe i 0x0A)
/-- BRIDGE_PING (R435). -/
def execBridgePing (i : Fin 64) (s : State) : Out := .next (s.bridgeServe i 0x0B)

end Machine
end Sys2Proof
end

