-- ==== Sys2Proof/Machine/AluImm.lean ====
section
/-! DEFINITION. ALU immediate forms (R218) and compares to register (R219). -/
namespace Sys2Proof
namespace Machine

/-- A shift by a constant; a constant outside 0–31 is illegal (R202). -/
def shiftK (i : Iss) (rd ra : Reg) (k : Byte) (f : Word → Nat → Word) (s : State) : State :=
  s.issueVal i (kOk k) rd (fun h => f (h.rg ra) k.toNat)

/-- ADDI (R218; under W64 the immediate extends to 64 bits). -/
def execAddi (i : Iss) (m : Arith) (rd ra : Reg) (imm : Word) (s : State) : Out :=
  .next (match m with
    | .wide => s.issuePair i (evenReg rd && evenReg ra) rd (fun h => h.rpair ra + imm.signExtend 64)
    | .wrap => s.issueVal i true rd (fun h => addW false (h.rg ra) imm)
    | .sat => s.issueVal i true rd (fun h => addW true (h.rg ra) imm))
/-- RSUBI (R218). -/
def execRsubi (i : Iss) (sat : Bool) (rd ra : Reg) (imm : Word) (s : State) : Out :=
  .next (aluR i rd ra (fun a => subW sat imm a) s)
/-- ANDI (R218). -/
def execAndi (i : Iss) (rd ra : Reg) (imm : Word) (s : State) : Out := .next (aluR i rd ra (· &&& imm) s)
/-- ORI (R218). -/
def execOri (i : Iss) (rd ra : Reg) (imm : Word) (s : State) : Out := .next (aluR i rd ra (· ||| imm) s)
/-- XORI (R218). -/
def execXori (i : Iss) (rd ra : Reg) (imm : Word) (s : State) : Out := .next (aluR i rd ra (· ^^^ imm) s)
/-- SHLI (R218, R216). -/
def execShli (i : Iss) (sat : Bool) (rd ra : Reg) (k : Byte) (s : State) : Out := .next (shiftK i rd ra k (shlW sat) s)
/-- SHRI (R218). -/
def execShri (i : Iss) (rd ra : Reg) (k : Byte) (s : State) : Out := .next (shiftK i rd ra k (fun a n => a >>> n) s)
/-- SRAI (R218). -/
def execSrai (i : Iss) (rd ra : Reg) (k : Byte) (s : State) : Out := .next (shiftK i rd ra k (fun a n => a.sshiftRight n) s)
/-- RORI (R218). -/
def execRori (i : Iss) (rd ra : Reg) (k : Byte) (s : State) : Out := .next (shiftK i rd ra k rorW s)
/-- MULI (R218: delay 2). -/
def execMuli (i : Iss) (sat : Bool) (rd ra : Reg) (imm : Word) (s : State) : Out :=
  .next (s.issueDelayed i rd (fun h => mulW sat (h.rg ra) imm))
/-- MOVI (R218; under W64 the immediate extends to 64 bits). -/
def execMovi (i : Iss) (w : Bool) (rd : Reg) (imm : Word) (s : State) : Out :=
  .next (if w then s.issuePair i (evenReg rd) rd (fun _ => imm.signExtend 64) else s.issueVal i true rd (fun _ => imm))
/-- MINI (R218). -/
def execMini (i : Iss) (rd ra : Reg) (imm : Word) (s : State) : Out :=
  .next (aluR i rd ra (fun a => if a.slt imm then a else imm) s)
/-- MAXI (R218). -/
def execMaxi (i : Iss) (rd ra : Reg) (imm : Word) (s : State) : Out :=
  .next (aluR i rd ra (fun a => if imm.slt a then a else imm) s)

/-- A compare: 1 when the condition holds, else 0 (R219); under W64 on pairs, rd a single register. -/
def cmpWide (i : Iss) (wide : Bool) (rd ra rb : Reg) (f : Word → Word → Bool) (g : BitVec 64 → BitVec 64 → Bool)
    (s : State) : State :=
  if wide then s.issueVal i (evenReg ra && evenReg rb) rd (fun h => b2w (g (h.rpair ra) (h.rpair rb)))
  else s.issueVal i true rd (fun h => b2w (f (h.rg ra) (h.rg rb)))

/-- A compare of registers. -/
def cmpRR (i : Iss) (rd ra rb : Reg) (f : Word → Word → Bool) (s : State) : State := aluRR i rd ra rb (fun a b => b2w (f a b)) s
/-- A compare with the immediate. -/
def cmpRI (i : Iss) (rd ra : Reg) (imm : Word) (f : Word → Word → Bool) (s : State) : State :=
  aluR i rd ra (fun a => b2w (f a imm)) s

/-- SEQ (R219). -/
def execSeq (i : Iss) (w : Bool) (rd ra rb : Reg) (s : State) : Out := .next (cmpWide i w rd ra rb (· == ·) (· == ·) s)
/-- SNE (R219). -/
def execSne (i : Iss) (w : Bool) (rd ra rb : Reg) (s : State) : Out := .next (cmpWide i w rd ra rb (· != ·) (· != ·) s)
/-- SLT (R219). -/
def execSlt (i : Iss) (w : Bool) (rd ra rb : Reg) (s : State) : Out := .next (cmpWide i w rd ra rb BitVec.slt BitVec.slt s)
/-- SLTU (R219). -/
def execSltu (i : Iss) (w : Bool) (rd ra rb : Reg) (s : State) : Out := .next (cmpWide i w rd ra rb BitVec.ult BitVec.ult s)
/-- SLE (R219). -/
def execSle (i : Iss) (rd ra rb : Reg) (s : State) : Out := .next (cmpRR i rd ra rb BitVec.sle s)
/-- SLEU (R219). -/
def execSleu (i : Iss) (rd ra rb : Reg) (s : State) : Out := .next (cmpRR i rd ra rb BitVec.ule s)
/-- STST (R219). -/
def execStst (i : Iss) (rd ra rb : Reg) (s : State) : Out := .next (cmpRR i rd ra rb (fun a b => (a &&& b) != 0#32) s)
/-- SEQI (R219). -/
def execSeqi (i : Iss) (rd ra : Reg) (imm : Word) (s : State) : Out := .next (cmpRI i rd ra imm (· == ·) s)
/-- SNEI (R219). -/
def execSnei (i : Iss) (rd ra : Reg) (imm : Word) (s : State) : Out := .next (cmpRI i rd ra imm (· != ·) s)
/-- SLTI (R219). -/
def execSlti (i : Iss) (rd ra : Reg) (imm : Word) (s : State) : Out := .next (cmpRI i rd ra imm BitVec.slt s)
/-- SLTUI (R219). -/
def execSltui (i : Iss) (rd ra : Reg) (imm : Word) (s : State) : Out := .next (cmpRI i rd ra imm BitVec.ult s)
/-- SLEI (R219). -/
def execSlei (i : Iss) (rd ra : Reg) (imm : Word) (s : State) : Out := .next (cmpRI i rd ra imm BitVec.sle s)
/-- SLEUI (R219). -/
def execSleui (i : Iss) (rd ra : Reg) (imm : Word) (s : State) : Out := .next (cmpRI i rd ra imm BitVec.ule s)
/-- SGTI (R219). -/
def execSgti (i : Iss) (rd ra : Reg) (imm : Word) (s : State) : Out := .next (cmpRI i rd ra imm (fun a b => BitVec.slt b a) s)
/-- SGTUI (R219). -/
def execSgtui (i : Iss) (rd ra : Reg) (imm : Word) (s : State) : Out := .next (cmpRI i rd ra imm (fun a b => BitVec.ult b a) s)
/-- STSTI (R219). -/
def execStsti (i : Iss) (rd ra : Reg) (imm : Word) (s : State) : Out :=
  .next (cmpRI i rd ra imm (fun a b => (a &&& b) != 0#32) s)

end Machine
end Sys2Proof
end

