-- ==== Sys2Proof/Machine/Bitfield.lean ====
section
/-! DEFINITION. Bit-field forms (R243, R244), MAC and index-unit forms (R235), the escape page (R245, R246). -/
namespace Sys2Proof
namespace Machine

/-- A form with a field descriptor; an illegal descriptor takes ILLEGAL (R202, R208). -/
def descForm (i : Iss) (rd ra : Reg) (d : BitVec 16) (f : Word → Word → Nat → Nat → Word) (s : State) : State :=
  s.issueVal i (descOk d) rd (fun h => f (h.rg rd) (h.rg ra) (descPos d.toNat) (descLen d.toNat))

/-- EXT (R243). -/
def execExt (i : Iss) (rd ra : Reg) (d : BitVec 16) (s : State) : Out := .next (descForm i rd ra d (fun _ a p l => extW a p l) s)
/-- EXTS (R243). -/
def execExts (i : Iss) (rd ra : Reg) (d : BitVec 16) (s : State) : Out := .next (descForm i rd ra d (fun _ a p l => extsW a p l) s)
/-- INS (R243). -/
def execIns (i : Iss) (rd ra : Reg) (d : BitVec 16) (s : State) : Out := .next (descForm i rd ra d insW s)
/-- CLRF (R243). -/
def execClrf (i : Iss) (rd ra : Reg) (d : BitVec 16) (s : State) : Out :=
  .next (descForm i rd ra d (fun _ a p l => a &&& ~~~ fmask p l) s)
/-- SETF (R243). -/
def execSetf (i : Iss) (rd ra : Reg) (d : BitVec 16) (s : State) : Out :=
  .next (descForm i rd ra d (fun _ a p l => a ||| fmask p l) s)
/-- A form with a bit constant 0–31 (R202). -/
def bitForm (i : Iss) (rd ra : Reg) (k : Byte) (f : Word → Nat → Word) (s : State) : State :=
  s.issueVal i (kOk k) rd (fun h => f (h.rg ra) k.toNat)
/-- BSET (R243). -/
def execBset (i : Iss) (rd ra : Reg) (k : Byte) (s : State) : Out := .next (bitForm i rd ra k setBit s)
/-- BCLR (R243). -/
def execBclr (i : Iss) (rd ra : Reg) (k : Byte) (s : State) : Out := .next (bitForm i rd ra k clrBit s)
/-- BINV (R243). -/
def execBinv (i : Iss) (rd ra : Reg) (k : Byte) (s : State) : Out :=
  .next (bitForm i rd ra k (fun a n => a ^^^ BitVec.ofNat 32 (2 ^ n)) s)
/-- BTST (R243). -/
def execBtst (i : Iss) (rd ra : Reg) (k : Byte) (s : State) : Out := .next (bitForm i rd ra k (fun a n => b2w (a.getLsbD n)) s)
/-- EXTR (R244). -/
def execExtr (i : Iss) (rd ra rb : Reg) (s : State) : Out :=
  .next (aluRR i rd ra rb (fun a b => extW a (descPos b.toNat) (descLen b.toNat)) s)
/-- INSR (R244). -/
def execInsr (i : Iss) (rd ra rb : Reg) (s : State) : Out :=
  .next (s.issueVal i true rd (fun h => insW (h.rg rd) (h.rg ra) (descPos (h.rg rb).toNat) (descLen (h.rg rb).toNat)))
/-- BREV (R243). -/
def execBrev (i : Iss) (rd ra : Reg) (s : State) : Out := .next (aluR i rd ra revBits s)
/-- PACK (R243). -/
def execPack (i : Iss) (rd ra rb : Reg) (s : State) : Out :=
  .next (aluRR i rd ra rb (fun a b => (b <<< 16) ||| (a &&& 0xFFFF#32)) s)

/-- MAC (R235: delay 2). -/
def execMac (i : Iss) (sat : Bool) (rd ra rb : Reg) (s : State) : Out :=
  .next (s.issueDelayed i rd (fun h => macW sat (h.rg rd) (h.rg ra) (h.rg rb)))
/-- MSU (R235: delay 2). -/
def execMsu (i : Iss) (sat : Bool) (rd ra rb : Reg) (s : State) : Out :=
  .next (s.issueDelayed i rd (fun h => msuW sat (h.rg rd) (h.rg ra) (h.rg rb)))
/-- XADV (R205). -/
def execXadv (i : Iss) (xn : Xn) (s : State) : Out := .next (s.issueThr i true (fun h => h.postMod xn))
/-- XLEA (R204, R235). -/
def execXlea (i : Iss) (rd : Reg) (xn : Xn) (s : State) : Out :=
  .next (s.issueVal i true rd (fun h => ((h.rx xn).xb + (h.rx xn).xi).setWidth 32))
/-- XSET (R235); a field code above 4 is illegal (R202). -/
def execXset (i : Iss) (xn : Xn) (field : Fin 8) (reg : Reg) (s : State) : Out :=
  .next (s.issueThr i (decide (field.val ≤ 4)) (fun h => h.wx xn ((h.rx xn).setField field (h.rg reg))))
/-- XGET (R235). -/
def execXget (i : Iss) (xn : Xn) (field : Fin 8) (reg : Reg) (s : State) : Out :=
  .next (s.issueVal i (decide (field.val ≤ 4)) reg (fun h => (h.rx xn).getField field))

/-- MULL (R245). -/
def execMull (i : Iss) (rd ra rb : Reg) (s : State) : Out :=
  .next (s.issueDelayedPair i (evenReg rd) rd (fun h => mulS (h.rg ra) (h.rg rb)))
/-- MULLU (R245). -/
def execMullu (i : Iss) (rd ra rb : Reg) (s : State) : Out :=
  .next (s.issueDelayedPair i (evenReg rd) rd (fun h => mulU (h.rg ra) (h.rg rb)))
/-- MACL (R245). -/
def execMacl (i : Iss) (rd ra rb : Reg) (s : State) : Out :=
  .next (s.issueDelayedPair i (evenReg rd) rd (fun h => h.rpair rd + mulS (h.rg ra) (h.rg rb)))
/-- MACLU (R245). -/
def execMaclu (i : Iss) (rd ra rb : Reg) (s : State) : Out :=
  .next (s.issueDelayedPair i (evenReg rd) rd (fun h => h.rpair rd + mulU (h.rg ra) (h.rg rb)))
/-- CRCB (R246); a selector above 3 is illegal (R202). -/
def execCrcb (i : Iss) (rd ra : Reg) (sel : Byte) (s : State) : Out :=
  .next (s.issueVal i (decide (sel.toNat < 4)) rd (fun h => crcByte sel.toNat (h.rg rd) ((h.rg ra).setWidth 8)))
/-- CRCW (R246). -/
def execCrcw (i : Iss) (rd ra : Reg) (sel : Byte) (s : State) : Out :=
  .next (s.issueVal i (decide (sel.toNat < 4)) rd (fun h => crcWord sel.toNat (h.rg rd) (h.rg ra)))
/-- PAR (R245). -/
def execPar (i : Iss) (rd ra : Reg) (s : State) : Out := .next (aluR i rd ra (fun a => b2w (popCount a 32 % 2 = 1)) s)
/-- MADDI (R245: delay 2). -/
def execMaddi (i : Iss) (sat : Bool) (rd ra rb : Reg) (imm : Word) (s : State) : Out :=
  .next (s.issueDelayed i rd (fun h => maddW sat (h.rg ra) (h.rg rb) imm))

end Machine
end Sys2Proof
end

