-- ==== Sys2Proof/Machine/Dispatch.lean ====
section
/-! DEFINITION. The dispatch of commands: one arm per constructor, one direct call of its meaning each. -/
namespace Sys2Proof
namespace Machine

/-- The effect of a command on everything but the queue. -/
def exec (i : Instr) (s : State) : Host.Outcome State Fault Refusal :=
  match i with
  | .add iss m rd ra rb => Sys2Proof.Machine.execAdd iss m rd ra rb s
  | .sub iss m rd ra rb => Sys2Proof.Machine.execSub iss m rd ra rb s
  | .and iss wide rd ra rb => Sys2Proof.Machine.execAnd iss wide rd ra rb s
  | .or iss wide rd ra rb => Sys2Proof.Machine.execOr iss wide rd ra rb s
  | .xor iss wide rd ra rb => Sys2Proof.Machine.execXor iss wide rd ra rb s
  | .shl iss m rd ra rb => Sys2Proof.Machine.execShl iss m rd ra rb s
  | .shr iss wide rd ra rb => Sys2Proof.Machine.execShr iss wide rd ra rb s
  | .sra iss wide rd ra rb => Sys2Proof.Machine.execSra iss wide rd ra rb s
  | .ror iss rd ra rb => Sys2Proof.Machine.execRor iss rd ra rb s
  | .mul iss sat rd ra rb => Sys2Proof.Machine.execMul iss sat rd ra rb s
  | .mulh iss rd ra rb => Sys2Proof.Machine.execMulh iss rd ra rb s
  | .mulhu iss rd ra rb => Sys2Proof.Machine.execMulhu iss rd ra rb s
  | .div iss rd ra rb => Sys2Proof.Machine.execDiv iss rd ra rb s
  | .divu iss rd ra rb => Sys2Proof.Machine.execDivu iss rd ra rb s
  | .rem iss rd ra rb => Sys2Proof.Machine.execRem iss rd ra rb s
  | .remu iss rd ra rb => Sys2Proof.Machine.execRemu iss rd ra rb s
  | .min iss rd ra rb => Sys2Proof.Machine.execMin iss rd ra rb s
  | .max iss rd ra rb => Sys2Proof.Machine.execMax iss rd ra rb s
  | .minu iss rd ra rb => Sys2Proof.Machine.execMinu iss rd ra rb s
  | .maxu iss rd ra rb => Sys2Proof.Machine.execMaxu iss rd ra rb s
  | .sel iss rd ra rb rc => Sys2Proof.Machine.execSel iss rd ra rb rc s
  | .mov iss wide rd ra => Sys2Proof.Machine.execMov iss wide rd ra s
  | .not iss rd ra => Sys2Proof.Machine.execNot iss rd ra s
  | .neg iss sat rd ra => Sys2Proof.Machine.execNeg iss sat rd ra s
  | .abs iss sat rd ra => Sys2Proof.Machine.execAbs iss sat rd ra s
  | .clz iss rd ra => Sys2Proof.Machine.execClz iss rd ra s
  | .popc iss rd ra => Sys2Proof.Machine.execPopc iss rd ra s
  | .bswap iss rd ra => Sys2Proof.Machine.execBswap iss rd ra s
  | .andn iss rd ra rb => Sys2Proof.Machine.execAndn iss rd ra rb s
  | .addi iss m rd ra imm => Sys2Proof.Machine.execAddi iss m rd ra imm s
  | .rsubi iss sat rd ra imm => Sys2Proof.Machine.execRsubi iss sat rd ra imm s
  | .andi iss rd ra imm => Sys2Proof.Machine.execAndi iss rd ra imm s
  | .ori iss rd ra imm => Sys2Proof.Machine.execOri iss rd ra imm s
  | .xori iss rd ra imm => Sys2Proof.Machine.execXori iss rd ra imm s
  | .shli iss sat rd ra k => Sys2Proof.Machine.execShli iss sat rd ra k s
  | .shri iss rd ra k => Sys2Proof.Machine.execShri iss rd ra k s
  | .srai iss rd ra k => Sys2Proof.Machine.execSrai iss rd ra k s
  | .rori iss rd ra k => Sys2Proof.Machine.execRori iss rd ra k s
  | .muli iss sat rd ra imm => Sys2Proof.Machine.execMuli iss sat rd ra imm s
  | .movi iss wide rd imm => Sys2Proof.Machine.execMovi iss wide rd imm s
  | .mini iss rd ra imm => Sys2Proof.Machine.execMini iss rd ra imm s
  | .maxi iss rd ra imm => Sys2Proof.Machine.execMaxi iss rd ra imm s
  | .seq iss wide rd ra rb => Sys2Proof.Machine.execSeq iss wide rd ra rb s
  | .sne iss wide rd ra rb => Sys2Proof.Machine.execSne iss wide rd ra rb s
  | .slt iss wide rd ra rb => Sys2Proof.Machine.execSlt iss wide rd ra rb s
  | .sltu iss wide rd ra rb => Sys2Proof.Machine.execSltu iss wide rd ra rb s
  | .sle iss rd ra rb => Sys2Proof.Machine.execSle iss rd ra rb s
  | .sleu iss rd ra rb => Sys2Proof.Machine.execSleu iss rd ra rb s
  | .stst iss rd ra rb => Sys2Proof.Machine.execStst iss rd ra rb s
  | .seqi iss rd ra imm => Sys2Proof.Machine.execSeqi iss rd ra imm s
  | .snei iss rd ra imm => Sys2Proof.Machine.execSnei iss rd ra imm s
  | .slti iss rd ra imm => Sys2Proof.Machine.execSlti iss rd ra imm s
  | .sltui iss rd ra imm => Sys2Proof.Machine.execSltui iss rd ra imm s
  | .slei iss rd ra imm => Sys2Proof.Machine.execSlei iss rd ra imm s
  | .sleui iss rd ra imm => Sys2Proof.Machine.execSleui iss rd ra imm s
  | .sgti iss rd ra imm => Sys2Proof.Machine.execSgti iss rd ra imm s
  | .sgtui iss rd ra imm => Sys2Proof.Machine.execSgtui iss rd ra imm s
  | .ststi iss rd ra imm => Sys2Proof.Machine.execStsti iss rd ra imm s
  | .ld iss sz sx rd form => Sys2Proof.Machine.execLd iss sz sx rd form s
  | .lea iss rd ga d => Sys2Proof.Machine.execLea iss rd ga d s
  | .ldpc iss sz sx rd d => Sys2Proof.Machine.execLdpc iss sz sx rd d s
  | .st iss sz nt rs form => Sys2Proof.Machine.execSt iss sz nt rs form s
  | .fence iss => Sys2Proof.Machine.execFence iss s
  | .atomSwap iss rs rd form => Sys2Proof.Machine.execAtomSwap iss rs rd form s
  | .atomAdd iss rs rd form => Sys2Proof.Machine.execAtomAdd iss rs rd form s
  | .atomAnd iss rs rd form => Sys2Proof.Machine.execAtomAnd iss rs rd form s
  | .atomOr iss rs rd form => Sys2Proof.Machine.execAtomOr iss rs rd form s
  | .atomXor iss rs rd form => Sys2Proof.Machine.execAtomXor iss rs rd form s
  | .atomMinu iss rs rd form => Sys2Proof.Machine.execAtomMinu iss rs rd form s
  | .atomMaxu iss rs rd form => Sys2Proof.Machine.execAtomMaxu iss rs rd form s
  | .atomCas iss rs rd form => Sys2Proof.Machine.execAtomCas iss rs rd form s
  | .bz iss ga off => Sys2Proof.Machine.execBz iss ga off s
  | .bnz iss ga off => Sys2Proof.Machine.execBnz iss ga off s
  | .br iss off => Sys2Proof.Machine.execBr iss off s
  | .call iss rd off => Sys2Proof.Machine.execCall iss rd off s
  | .jmp iss ga => Sys2Proof.Machine.execJmp iss ga s
  | .jal iss rd ra => Sys2Proof.Machine.execJal iss rd ra s
  | .rett iss => Sys2Proof.Machine.execRett iss s
  | .bdec iss ga off => Sys2Proof.Machine.execBdec iss ga off s
  | .impreciseTrap t => Sys2Proof.Machine.execImpreciseTrap t s
  | .loadDataReturn t => Sys2Proof.Machine.execLoadDataReturn t s
  | .storeGrant t => Sys2Proof.Machine.execStoreGrant t s
  | .lateAccessMark t => Sys2Proof.Machine.execLateAccessMark t s
  | .engineHoldStall t => Sys2Proof.Machine.execEngineHoldStall t s
  | .twinRecordMatch pair => Sys2Proof.Machine.execTwinRecordMatch pair s
  | .twinTimeout pair => Sys2Proof.Machine.execTwinTimeout pair s
  | .romFetchReturn t bad => Sys2Proof.Machine.execRomFetchReturn t bad s
  | .put iss wide p rd rv gt => Sys2Proof.Machine.execPut iss wide p rd rv gt s
  | .pute iss wide p rd rv gt => Sys2Proof.Machine.execPute iss wide p rd rv gt s
  | .chEnd iss p rd gt => Sys2Proof.Machine.execChEnd iss p rd gt s
  | .get iss wide p rd rv gt => Sys2Proof.Machine.execGet iss wide p rd rv gt s
  | .getn iss p rd rv gt => Sys2Proof.Machine.execGetn iss p rd rv gt s
  | .drop iss p rd => Sys2Proof.Machine.execDrop iss p rd s
  | .abt iss p rd => Sys2Proof.Machine.execAbt iss p rd s
  | .tput iss wide p rd rv => Sys2Proof.Machine.execTput iss wide p rd rv s
  | .tpute iss wide p rd rv => Sys2Proof.Machine.execTpute iss wide p rd rv s
  | .tend iss p rd => Sys2Proof.Machine.execTend iss p rd s
  | .tget iss wide p rd rv => Sys2Proof.Machine.execTget iss wide p rd rv s
  | .tgetn iss p rd rv => Sys2Proof.Machine.execTgetn iss p rd rv s
  | .chs iss p rd => Sys2Proof.Machine.execChs iss p rd s
  | .channelResponse t => Sys2Proof.Machine.execChannelResponse t s
  | .parkedOpRedecide t => Sys2Proof.Machine.execParkedOpRedecide t s
  | .channelTimeout t => Sys2Proof.Machine.execChannelTimeout t s
  | .mac iss sat rd ra rb => Sys2Proof.Machine.execMac iss sat rd ra rb s
  | .msu iss sat rd ra rb => Sys2Proof.Machine.execMsu iss sat rd ra rb s
  | .xadv iss xn => Sys2Proof.Machine.execXadv iss xn s
  | .xlea iss rd xn => Sys2Proof.Machine.execXlea iss rd xn s
  | .xset iss xn field reg => Sys2Proof.Machine.execXset iss xn field reg s
  | .xget iss xn field reg => Sys2Proof.Machine.execXget iss xn field reg s
  | .waitev iss rd mask => Sys2Proof.Machine.execWaitev iss rd mask s
  | .waitt iss rd tm => Sys2Proof.Machine.execWaitt iss rd tm s
  | .yield iss => Sys2Proof.Machine.execYield iss s
  | .sleep iss ga => Sys2Proof.Machine.execSleep iss ga s
  | .waitRelease t => Sys2Proof.Machine.execWaitRelease t s
  | .btrd iss rd => Sys2Proof.Machine.execBtrd iss rd s
  | .evclr iss mask => Sys2Proof.Machine.execEvclr iss mask s
  | .sig iss h => Sys2Proof.Machine.execSig iss h s
  | .mft iss rd tr => Sys2Proof.Machine.execMft iss rd tr s
  | .mtt iss tr rs => Sys2Proof.Machine.execMtt iss tr rs s
  | .nop iss => Sys2Proof.Machine.execNop iss s
  | .ext iss rd ra desc => Sys2Proof.Machine.execExt iss rd ra desc s
  | .exts iss rd ra desc => Sys2Proof.Machine.execExts iss rd ra desc s
  | .ins iss rd ra desc => Sys2Proof.Machine.execIns iss rd ra desc s
  | .clrf iss rd ra desc => Sys2Proof.Machine.execClrf iss rd ra desc s
  | .setf iss rd ra desc => Sys2Proof.Machine.execSetf iss rd ra desc s
  | .bset iss rd ra k => Sys2Proof.Machine.execBset iss rd ra k s
  | .bclr iss rd ra k => Sys2Proof.Machine.execBclr iss rd ra k s
  | .binv iss rd ra k => Sys2Proof.Machine.execBinv iss rd ra k s
  | .btst iss rd ra k => Sys2Proof.Machine.execBtst iss rd ra k s
  | .extr iss rd ra rb => Sys2Proof.Machine.execExtr iss rd ra rb s
  | .insr iss rd ra rb => Sys2Proof.Machine.execInsr iss rd ra rb s
  | .brev iss rd ra => Sys2Proof.Machine.execBrev iss rd ra s
  | .pack iss rd ra rb => Sys2Proof.Machine.execPack iss rd ra rb s
  | .deftrap iss => Sys2Proof.Machine.execDeftrap iss s
  | .illegalInstruction iss => Sys2Proof.Machine.execIllegalInstruction iss s
  | .mull iss rd ra rb => Sys2Proof.Machine.execMull iss rd ra rb s
  | .mullu iss rd ra rb => Sys2Proof.Machine.execMullu iss rd ra rb s
  | .macl iss rd ra rb => Sys2Proof.Machine.execMacl iss rd ra rb s
  | .maclu iss rd ra rb => Sys2Proof.Machine.execMaclu iss rd ra rb s
  | .crcb iss rd ra sel => Sys2Proof.Machine.execCrcb iss rd ra sel s
  | .crcw iss rd ra sel => Sys2Proof.Machine.execCrcw iss rd ra sel s
  | .par iss rd ra => Sys2Proof.Machine.execPar iss rd ra s
  | .maddi iss sat rd ra rb imm => Sys2Proof.Machine.execMaddi iss sat rd ra rb imm s
  | .seBr n cond tgt tm pins => Sys2Proof.Machine.execSeBr n cond tgt tm pins s
  | .seWait n pc src arg tm pins => Sys2Proof.Machine.execSeWait n pc src arg tm pins s
  | .seEmit n dest n1 refill tm => Sys2Proof.Machine.execSeEmit n dest n1 refill tm s
  | .seSample n src n1 send tm pins => Sys2Proof.Machine.execSeSample n src n1 send tm pins s
  | .sePull n nb tm => Sys2Proof.Machine.execSePull n nb tm s
  | .sePush n nb keep tm => Sys2Proof.Machine.execSePush n nb keep tm s
  | .seDrive n oe value tm => Sys2Proof.Machine.execSeDrive n oe value tm s
  | .seLoadl n l value tm => Sys2Proof.Machine.execSeLoadl n l value tm s
  | .seCopy n dst src inv rev tm pins => Sys2Proof.Machine.execSeCopy n dst src inv rev tm pins s
  | .seSignal n out tm => Sys2Proof.Machine.execSeSignal n out tm s
  | .seIdle n cycles tm => Sys2Proof.Machine.execSeIdle n cycles tm s
  | .seIllegal n => Sys2Proof.Machine.execSeIllegal n s
  | .seStallComplete n cycles pins => Sys2Proof.Machine.execSeStallComplete n cycles pins s
  | .seEventIn n iss => Sys2Proof.Machine.execSeEventIn n iss s
  | .senCtlEnWrite n en => Sys2Proof.Machine.execSenCtlEnWrite n en s
  | .senProgWrite n iss w => Sys2Proof.Machine.execSenProgWrite n iss w s
  | .senPcWrite n pc => Sys2Proof.Machine.execSenPcWrite n pc s
  | .senLWrite n l v => Sys2Proof.Machine.execSenLWrite n l v s
  | .calObservation n iss d full => Sys2Proof.Machine.execCalObservation n iss d full s
  | .tapMoveApply n iss => Sys2Proof.Machine.execTapMoveApply n iss s
  | .ppsEdge cycles => Sys2Proof.Machine.execPpsEdge cycles s
  | .btHoldover => Sys2Proof.Machine.execBtHoldover s
  | .timerMatch n => Sys2Proof.Machine.execTimerMatch n s
  | .timerWrap n => Sys2Proof.Machine.execTimerWrap n s
  | .timerCapture n => Sys2Proof.Machine.execTimerCapture n s
  | .timerCountEvent n => Sys2Proof.Machine.execTimerCountEvent n s
  | .timerCompareInput n => Sys2Proof.Machine.execTimerCompareInput n s
  | .tmnCapRead n m wide => Sys2Proof.Machine.execTmnCapRead n m wide s
  | .tmnCmpWrite n v => Sys2Proof.Machine.execTmnCmpWrite n v s
  | .tmnCtlWrite n v => Sys2Proof.Machine.execTmnCtlWrite n v s
  | .tmGstart m key => Sys2Proof.Machine.execTmGstart m key s
  | .btOfshiWrite v => Sys2Proof.Machine.execBtOfshiWrite v s
  | .btAdjWrite v => Sys2Proof.Machine.execBtAdjWrite v s
  | .hostPairLowRead a => Sys2Proof.Machine.execHostPairLowRead a s
  | .hostPairHighRead a => Sys2Proof.Machine.execHostPairHighRead a s
  | .routeFire f => Sys2Proof.Machine.execRouteFire f s
  | .eventDelivery k => Sys2Proof.Machine.execEventDelivery k s
  | .busyViewClear k => Sys2Proof.Machine.execBusyViewClear k s
  | .evFire m key r => Sys2Proof.Machine.execEvFire m key r s
  | .evStatWrite m attn r v => Sys2Proof.Machine.execEvStatWrite m attn r v s
  | .deadlockSnapshot => Sys2Proof.Machine.execDeadlockSnapshot s
  | .deadlockAnalysisEnd => Sys2Proof.Machine.execDeadlockAnalysisEnd s
  | .poolScrub row r => Sys2Proof.Machine.execPoolScrub row r s
  | .unitEndpointTransfer c recv => Sys2Proof.Machine.execUnitEndpointTransfer c recv s
  | .mcHput m k v => Sys2Proof.Machine.execMcHput m k v s
  | .mcHpute m k v => Sys2Proof.Machine.execMcHpute m k v s
  | .mcHget m k => Sys2Proof.Machine.execMcHget m k s
  | .mcHstatEnd m k => Sys2Proof.Machine.execMcHstatEnd m k s
  | .mcHstatAbt m k => Sys2Proof.Machine.execMcHstatAbt m k s
  | .mcHstatDrop m k => Sys2Proof.Machine.execMcHstatDrop m k s
  | .spAccessGrant bank err wait => Sys2Proof.Machine.execSpAccessGrant bank err wait s
  | .scrubGrant bank lrow err => Sys2Proof.Machine.execScrubGrant bank lrow err s
  | .scrubLapEnd us => Sys2Proof.Machine.execScrubLapEnd us s
  | .lapAlarm us => Sys2Proof.Machine.execLapAlarm us s
  | .ttStart m key bank region => Sys2Proof.Machine.execTtStart m key bank region s
  | .ttStop m key => Sys2Proof.Machine.execTtStop m key s
  | .testRegionDone march errs => Sys2Proof.Machine.execTestRegionDone march errs s
  | .spWclr m key w => Sys2Proof.Machine.execSpWclr m key w s
  | .wordClearDone => Sys2Proof.Machine.execWordClearDone s
  | .retire m key cmd page => Sys2Proof.Machine.execRetire m key cmd page s
  | .retireCopyDone errs => Sys2Proof.Machine.execRetireCopyDone errs s
  | .padClampPulse n => Sys2Proof.Machine.execPadClampPulse n s
  | .surgeEnd z us => Sys2Proof.Machine.execSurgeEnd z us s
  | .pgnOutWrite m n v => Sys2Proof.Machine.execPgnOutWrite m n v s
  | .governorWindowStart => Sys2Proof.Machine.execGovernorWindowStart s
  | .laneRecordApply n => Sys2Proof.Machine.execLaneRecordApply n s
  | .serviceInit iss => Sys2Proof.Machine.execServiceInit iss s
  | .uartSend iss => Sys2Proof.Machine.execUartSend iss s
  | .uartData iss chars parity framing brk overrun => Sys2Proof.Machine.execUartData iss chars parity framing brk overrun s
  | .uartIdleFlush iss => Sys2Proof.Machine.execUartIdleFlush iss s
  | .modbusFrame iss frame bad => Sys2Proof.Machine.execModbusFrame iss frame bad s
  | .dnp3LinkFrame iss frame late => Sys2Proof.Machine.execDnp3LinkFrame iss frame late s
  | .dnp3Control iss => Sys2Proof.Machine.execDnp3Control iss s
  | .dnp3ControlReply iss => Sys2Proof.Machine.execDnp3ControlReply iss s
  | .dnp3ApprspTimeout iss => Sys2Proof.Machine.execDnp3ApprspTimeout iss s
  | .dnp3Event iss => Sys2Proof.Machine.execDnp3Event iss s
  | .dnp3UnsolHold iss => Sys2Proof.Machine.execDnp3UnsolHold iss s
  | .dnp3ConfirmTimeout iss => Sys2Proof.Machine.execDnp3ConfirmTimeout iss s
  | .dnp3SessionKeyExpiry iss => Sys2Proof.Machine.execDnp3SessionKeyExpiry iss s
  | .dnp3LinkConfirmTimeout iss => Sys2Proof.Machine.execDnp3LinkConfirmTimeout iss s
  | .sdi12Raw iss rs => Sys2Proof.Machine.execSdi12Raw iss rs s
  | .sdi12Measure iss rs => Sys2Proof.Machine.execSdi12Measure iss rs s
  | .sdi12ResponseTimeout iss => Sys2Proof.Machine.execSdi12ResponseTimeout iss s
  | .spiXfer iss miso => Sys2Proof.Machine.execSpiXfer iss miso s
  | .i2cXfer iss nack busy read => Sys2Proof.Machine.execI2cXfer iss nack busy read s
  | .i2cStretchTimeout iss => Sys2Proof.Machine.execI2cStretchTimeout iss s
  | .pulseReport iss samples lost => Sys2Proof.Machine.execPulseReport iss samples lost s
  | .bridgeRead iss => Sys2Proof.Machine.execBridgeRead iss s
  | .bridgeWrite iss => Sys2Proof.Machine.execBridgeWrite iss s
  | .bridgePing iss => Sys2Proof.Machine.execBridgePing iss s
  | .helloFrame n f => Sys2Proof.Machine.execHelloFrame n f s
  | .ackFrame n f => Sys2Proof.Machine.execAckFrame n f s
  | .cdataFrame n f => Sys2Proof.Machine.execCdataFrame n f s
  | .creditFrame n f => Sys2Proof.Machine.execCreditFrame n f s
  | .syncFrame n f => Sys2Proof.Machine.execSyncFrame n f s
  | .grantFrame n f => Sys2Proof.Machine.execGrantFrame n f s
  | .bdataFrame n f => Sys2Proof.Machine.execBdataFrame n f s
  | .freezeFrame n f => Sys2Proof.Machine.execFreezeFrame n f s
  | .timeFrame n f => Sys2Proof.Machine.execTimeFrame n f s
  | .recovRead n f => Sys2Proof.Machine.execRecovRead n f s
  | .recovWrite n f => Sys2Proof.Machine.execRecovWrite n f s
  | .recovStream n f => Sys2Proof.Machine.execRecovStream n f s
  | .recovImage n f => Sys2Proof.Machine.execRecovImage n f s
  | .recovAbort n f => Sys2Proof.Machine.execRecovAbort n f s
  | .recovResponse n f => Sys2Proof.Machine.execRecovResponse n f s
  | .helloPeriod n => Sys2Proof.Machine.execHelloPeriod n s
  | .linkKeepalive n => Sys2Proof.Machine.execLinkKeepalive n s
  | .linkSilenceTimeout n => Sys2Proof.Machine.execLinkSilenceTimeout n s
  | .retransmitTimeout n => Sys2Proof.Machine.execRetransmitTimeout n s
  | .ackDelay n => Sys2Proof.Machine.execAckDelay n s
  | .linkCreditReturn c => Sys2Proof.Machine.execLinkCreditReturn c s
  | .creditTimeout c => Sys2Proof.Machine.execCreditTimeout c s
  | .staleFrameDrop n => Sys2Proof.Machine.execStaleFrameDrop n s
  | .syncWaitTimeout c => Sys2Proof.Machine.execSyncWaitTimeout c s
  | .timePeriod n => Sys2Proof.Machine.execTimePeriod n s
  | .freezeAckWait => Sys2Proof.Machine.execFreezeAckWait s
  | .sessionRenewal n => Sys2Proof.Machine.execSessionRenewal n s
  | .lkFrzcmd m key => Sys2Proof.Machine.execLkFrzcmd m key s
  | .rtxSend m n len => Sys2Proof.Machine.execRtxSend m n len s
  | .linkLockFall n inFrame => Sys2Proof.Machine.execLinkLockFall n inFrame s
  | .recorderUpdateApply bad => Sys2Proof.Machine.execRecorderUpdateApply bad s
  | .erCursorLoad index minsev => Sys2Proof.Machine.execErCursorLoad index minsev s
  | .erCursorNext index minsev => Sys2Proof.Machine.execErCursorNext index minsev s
  | .erClrctl v => Sys2Proof.Machine.execErClrctl v s
  | .recorderClearPass => Sys2Proof.Machine.execRecorderClearPass s
  | .erCmctl m key => Sys2Proof.Machine.execErCmctl m key s
  | .periodicCommit => Sys2Proof.Machine.execPeriodicCommit s
  | .commit => Sys2Proof.Machine.execCommit s
  | .operatingSecond => Sys2Proof.Machine.execOperatingSecond s
  | .recorderRestore sects => Sys2Proof.Machine.execRecorderRestore sects s
  | .flashReadResponse stat data => Sys2Proof.Machine.execFlashReadResponse stat data s
  | .flashIndetRetry => Sys2Proof.Machine.execFlashIndetRetry s
  | .flashProgramErase => Sys2Proof.Machine.execFlashProgramErase s
  | .flashStatusPoll st => Sys2Proof.Machine.execFlashStatusPoll st s
  | .flashPeTimeout pulses => Sys2Proof.Machine.execFlashPeTimeout pulses s
  | .coldReset => Sys2Proof.Machine.execColdReset s
  | .pwrOkFall => Sys2Proof.Machine.execPwrOkFall s
  | .aonOkFall => Sys2Proof.Machine.execAonOkFall s
  | .warmReset => Sys2Proof.Machine.execWarmReset s
  | .fuseLoad fuses => Sys2Proof.Machine.execFuseLoad fuses s
  | .memoryFill recBad => Sys2Proof.Machine.execMemoryFill recBad s
  | .imageLoad nv => Sys2Proof.Machine.execImageLoad nv s
  | .imageCommit => Sys2Proof.Machine.execImageCommit s
  | .delayLineLock => Sys2Proof.Machine.execDelayLineLock s
  | .dlockTimeout => Sys2Proof.Machine.execDlockTimeout s
  | .release us stopped => Sys2Proof.Machine.execRelease us stopped s
  | .testEntry => Sys2Proof.Machine.execTestEntry s
  | .burngen m key => Sys2Proof.Machine.execBurngen m key s
  | .arbraise m key => Sys2Proof.Machine.execArbraise m key s
  | .lock1 m key => Sys2Proof.Machine.execLock1 m key s
  | .lock2 m key => Sys2Proof.Machine.execLock2 m key s
  | .zoneburn m key zone => Sys2Proof.Machine.execZoneburn m key zone s
  | .testdis m key => Sys2Proof.Machine.execTestdis m key s
  | .otpBurnStepDone missed => Sys2Proof.Machine.execOtpBurnStepDone missed s
  | .reload m key auto => Sys2Proof.Machine.execReload m key auto s
  | .srcload m key => Sys2Proof.Machine.execSrcload m key s
  | .stream m key => Sys2Proof.Machine.execStream m key s
  | .imgAbort m key => Sys2Proof.Machine.execImgAbort m key s
  | .bcImginWrite m v => Sys2Proof.Machine.execBcImginWrite m v s
  | .streamIdleTimeout => Sys2Proof.Machine.execStreamIdleTimeout s
  | .imageAccept => Sys2Proof.Machine.execImageAccept s
  | .threadRestart t => Sys2Proof.Machine.execThreadRestart t s
  | .standRestart n => Sys2Proof.Machine.execStandRestart n s
  | .standRestore n => Sys2Proof.Machine.execStandRestore n s
  | .standRelease n stopped => Sys2Proof.Machine.execStandRelease n stopped s
  | .restart m n key => Sys2Proof.Machine.execRestart m n key s
  | .unpark m n key => Sys2Proof.Machine.execUnpark m n key s
  | .wdkick m n key => Sys2Proof.Machine.execWdkick m n key s
  | .watchdogExpiry n => Sys2Proof.Machine.execWatchdogExpiry n s
  | .stormDecay n => Sys2Proof.Machine.execStormDecay n s
  | .alarmInput k stays => Sys2Proof.Machine.execAlarmInput k stays s
  | .alarmRearm k => Sys2Proof.Machine.execAlarmRearm k s
  | .shadowMismatch g iss flip => Sys2Proof.Machine.execShadowMismatch g iss flip s
  | .alarmResponse => Sys2Proof.Machine.execAlarmResponse s
  | .zeroise => Sys2Proof.Machine.execZeroise s
  | .zeroiseClear => Sys2Proof.Machine.execZeroiseClear s
  | .zeroiseRestore stopped => Sys2Proof.Machine.execZeroiseRestore stopped s
  | .lk2FreezeReset => Sys2Proof.Machine.execLk2FreezeReset s
  | .newch key => Sys2Proof.Machine.execNewch key s
  | .unlock key => Sys2Proof.Machine.execUnlock key s
  | .relock key => Sys2Proof.Machine.execRelock key s
  | .debugLockoutEnd => Sys2Proof.Machine.execDebugLockoutEnd s
  | .secAlstatClear m mask => Sys2Proof.Machine.execSecAlstatClear m mask s
  | .bypass => Sys2Proof.Machine.execBypass s
  | .idcode => Sys2Proof.Machine.execIdcode s
  | .dbgacc we a v => Sys2Proof.Machine.execDbgacc we a v s
  | .frread => Sys2Proof.Machine.execFrread s
  | .tapReset => Sys2Proof.Machine.execTapReset s
  | .haltt t => Sys2Proof.Machine.execHaltt t s
  | .resumet t => Sys2Proof.Machine.execResumet t s
  | .stept t => Sys2Proof.Machine.execStept t s
  | .treset t => Sys2Proof.Machine.execTreset t s
  | .halts n => Sys2Proof.Machine.execHalts n s
  | .resumes n => Sys2Proof.Machine.execResumes n s
  | .dbgAbort t p => Sys2Proof.Machine.execDbgAbort t p s
  | .dbgFreeze => Sys2Proof.Machine.execDbgFreeze s
  | .resume high => Sys2Proof.Machine.execResume high s
  | .dbgTregAccess we r v => Sys2Proof.Machine.execDbgTregAccess we r v s
  | .dbgSholdWrite v => Sys2Proof.Machine.execDbgSholdWrite v s
  | .freezeRequest => Sys2Proof.Machine.execFreezeRequest s
  | .freezeComplete cycles => Sys2Proof.Machine.execFreezeComplete cycles s
  | .freezeAckTimeout stopped => Sys2Proof.Machine.execFreezeAckTimeout stopped s
  | .freezeAlarm => Sys2Proof.Machine.execFreezeAlarm s
  | .dbgFrselWrite v => Sys2Proof.Machine.execDbgFrselWrite v s
  | .dbgFrdataRead => Sys2Proof.Machine.execDbgFrdataRead s
  | .registerWrite m a v => Sys2Proof.Machine.execRegisterWrite m a v s
  | .freezeNLow => Sys2Proof.Machine.execFreezeNLow s
  | .stoppedClockStart d => Sys2Proof.Machine.execStoppedClockStart d s
  | .hostRequest we a size v sec priv => Sys2Proof.Machine.execHostRequest we a size v sec priv s
  | .hostResponse => Sys2Proof.Machine.execHostResponse s
  | .cipherRequest => Sys2Proof.Machine.execCipherRequest s
  | .cipherResult a => Sys2Proof.Machine.execCipherResult a s
  | .cipherTimeout => Sys2Proof.Machine.execCipherTimeout s
  | .cipherResumeReissue => Sys2Proof.Machine.execCipherResumeReissue s
  | .trngWord w => Sys2Proof.Machine.execTrngWord w s
  | .trngWaitTimeout => Sys2Proof.Machine.execTrngWaitTimeout s
  | .trHealthFail => Sys2Proof.Machine.execTrHealthFail s

end Machine
end Sys2Proof
end

