-- ==== Sys2Proof/Machine/Step.lean ====
section
/-! DEFINITION. One step: the command at the front of the queue, or one TCLK tick on an empty queue
(notes/assumptions/2.md). -/
namespace Sys2Proof
namespace Machine

/-- The command at the front runs on the state with the queue's rest; with no command waiting one tick of TCLK passes. -/
def step (s : State) : Host.Outcome State Fault Refusal :=
  match s.pending with
  | [] => .next (State.tclk s)
  | c :: r => exec c { s with pending := r }

/-- The command that a table word spells put at the front of the queue; no word of this table spells one. -/
def State.withFetchWord (s : State) (nbits w : Nat) : State :=
  match decodeTableWord nbits w with
  | some c => { s with pending := c :: s.pending }
  | none => s

end Machine
end Sys2Proof
end

