-- ==== Sys2Proof/WellFormed.lean ====
section
/-! DEFINITION. Which commands are well formed: operands that the encodings and the layouts of the spec admit (R191, R198, R199, R202,
R286, R288, R358, R441, R488). An ill-formed thread instruction that can be given all the same takes the ILLEGAL trap (R208). -/
namespace Sys2Proof

/-- An instruction is 1 to 12 bytes (R191). -/
def Iss.wf (i : Iss) : Bool := decide (1 ≤ i.len.val)

/-- Fields that name a pair are even (R199). -/
def pairsOk (wide : Bool) (l : List Reg) : Bool := !wide || l.all (fun r => decide (r.val % 2 = 0))

/-- The same of a form whose arithmetic is W64 or not. -/
def arithOk (m : Arith) (l : List Reg) : Bool := pairsOk (decide (m = .wide)) l

/-- A load: SX only with W8 or W16 (R198), a pair even (R199). -/
def loadOk (sz : Size) (sx : Bool) (rd : Reg) : Bool :=
  (!sx || decide (sz = .b8) || decide (sz = .b16)) && pairsOk (decide (sz = .b64)) [rd]

/-- A field descriptor: bits [15:10] are 0 and POS + LEN ≤ 32 (R202). -/
def fieldOk (d : BitVec 16) : Bool :=
  decide (d.toNat / 1024 = 0) && decide (d.toNat % 32 + (d.toNat / 32 % 32 + 1) ≤ 32)

/-- The differences of a word from the word as written: each code position once, no difference of 0 (R358). -/
def errOk (e : WordErr) : Bool := decide (e.map Prod.fst).Nodup && e.all (fun p => decide (p.2 ≠ 0#8))

/-- The fields of a frame within their widths and ranges (R441). -/
def LinkFrame.wf (f : LinkFrame) : Bool :=
  decide (f.ttl < 256) && decide (f.seq < 65536) && decide (f.ack < 65536) && decide (f.chan < 4096) && decide (f.rwin ≤ 64) &&
  decide (f.txcnt < 2 ^ 32) && decide (f.payload.length ≤ 256) &&
  (match f.credit with
   | none => true
   | some (c, w, m) => decide (c < 4096) && decide (w ≤ 64) && decide (m ≤ 8))

/-- The issue operands of a thread instruction; none for another command. -/
def Instr.iss? (c : Instr) : Option Iss :=
  match c with
  | .add i _ _ _ _ | .sub i _ _ _ _ | .and i _ _ _ _ | .or i _ _ _ _ | .xor i _ _ _ _ | .shl i _ _ _ _ | .shr i _ _ _ _
  | .sra i _ _ _ _ | .ror i _ _ _ | .mul i _ _ _ _ | .mulh i _ _ _ | .mulhu i _ _ _ | .div i _ _ _ | .divu i _ _ _ | .rem i _ _ _
  | .remu i _ _ _ | .min i _ _ _ | .max i _ _ _ | .minu i _ _ _ | .maxu i _ _ _ | .sel i _ _ _ _ | .mov i _ _ _ | .not i _ _
  | .neg i _ _ _ | .abs i _ _ _ | .clz i _ _ | .popc i _ _ | .bswap i _ _ | .andn i _ _ _ | .addi i _ _ _ _ | .rsubi i _ _ _ _
  | .andi i _ _ _ | .ori i _ _ _ | .xori i _ _ _ | .shli i _ _ _ _ | .shri i _ _ _ | .srai i _ _ _ | .rori i _ _ _
  | .muli i _ _ _ _ | .movi i _ _ _ | .mini i _ _ _ | .maxi i _ _ _ | .seq i _ _ _ _ | .sne i _ _ _ _ | .slt i _ _ _ _
  | .sltu i _ _ _ _ | .sle i _ _ _ | .sleu i _ _ _ | .stst i _ _ _ | .seqi i _ _ _ | .snei i _ _ _ | .slti i _ _ _
  | .sltui i _ _ _ | .slei i _ _ _ | .sleui i _ _ _ | .sgti i _ _ _ | .sgtui i _ _ _ | .ststi i _ _ _ | .ld i _ _ _ _
  | .lea i _ _ _ | .ldpc i _ _ _ _ | .st i _ _ _ _ | .fence i | .atomSwap i _ _ _ | .atomAdd i _ _ _ | .atomAnd i _ _ _
  | .atomOr i _ _ _ | .atomXor i _ _ _ | .atomMinu i _ _ _ | .atomMaxu i _ _ _ | .atomCas i _ _ _ | .bz i _ _ | .bnz i _ _
  | .br i _ | .call i _ _ | .jmp i _ | .jal i _ _ | .rett i | .bdec i _ _ | .put i _ _ _ _ _ | .pute i _ _ _ _ _ | .chEnd i _ _ _
  | .get i _ _ _ _ _ | .getn i _ _ _ _ | .drop i _ _ | .abt i _ _ | .tput i _ _ _ _ | .tpute i _ _ _ _ | .tend i _ _
  | .tget i _ _ _ _ | .tgetn i _ _ _ | .chs i _ _ | .mac i _ _ _ _ | .msu i _ _ _ _ | .xadv i _ | .xlea i _ _ | .xset i _ _ _
  | .xget i _ _ _ | .waitev i _ _ | .waitt i _ _ | .yield i | .sleep i _ | .btrd i _ | .evclr i _ | .sig i _ | .mft i _ _
  | .mtt i _ _ | .nop i | .ext i _ _ _ | .exts i _ _ _ | .ins i _ _ _ | .clrf i _ _ _ | .setf i _ _ _ | .bset i _ _ _
  | .bclr i _ _ _ | .binv i _ _ _ | .btst i _ _ _ | .extr i _ _ _ | .insr i _ _ _ | .brev i _ _ | .pack i _ _ _ | .deftrap i
  | .illegalInstruction i | .mull i _ _ _ | .mullu i _ _ _ | .macl i _ _ _ | .maclu i _ _ _ | .crcb i _ _ _ | .crcw i _ _ _
  | .par i _ _ | .maddi i _ _ _ _ _ => some i
  | .impreciseTrap .. | .loadDataReturn .. | .storeGrant .. | .lateAccessMark .. | .engineHoldStall .. | .twinRecordMatch ..
  | .twinTimeout .. | .romFetchReturn .. | .channelResponse .. | .parkedOpRedecide .. | .channelTimeout .. | .waitRelease ..
  | .seBr .. | .seWait .. | .seEmit .. | .seSample .. | .sePull .. | .sePush .. | .seDrive .. | .seLoadl .. | .seCopy ..
  | .seSignal .. | .seIdle .. | .seIllegal .. | .seStallComplete .. | .seEventIn .. | .senCtlEnWrite .. | .senProgWrite ..
  | .senPcWrite .. | .senLWrite .. | .calObservation .. | .tapMoveApply .. | .ppsEdge .. | .btHoldover | .timerMatch ..
  | .timerWrap .. | .timerCapture .. | .timerCountEvent .. | .timerCompareInput .. | .tmnCapRead .. | .tmnCmpWrite ..
  | .tmnCtlWrite .. | .tmGstart .. | .btOfshiWrite .. | .btAdjWrite .. | .hostPairLowRead .. | .hostPairHighRead ..
  | .routeFire .. | .eventDelivery .. | .busyViewClear .. | .evFire .. | .evStatWrite .. | .deadlockSnapshot
  | .deadlockAnalysisEnd | .poolScrub .. | .unitEndpointTransfer .. | .mcHput .. | .mcHpute .. | .mcHget .. | .mcHstatEnd ..
  | .mcHstatAbt .. | .mcHstatDrop .. | .spAccessGrant .. | .scrubGrant .. | .scrubLapEnd .. | .lapAlarm .. | .ttStart ..
  | .ttStop .. | .testRegionDone .. | .spWclr .. | .wordClearDone | .retire .. | .retireCopyDone .. | .padClampPulse ..
  | .surgeEnd .. | .pgnOutWrite .. | .governorWindowStart | .laneRecordApply .. | .serviceInit .. | .uartSend .. | .uartData ..
  | .uartIdleFlush .. | .modbusFrame .. | .dnp3LinkFrame .. | .dnp3Control .. | .dnp3ControlReply .. | .dnp3ApprspTimeout ..
  | .dnp3Event .. | .dnp3UnsolHold .. | .dnp3ConfirmTimeout .. | .dnp3SessionKeyExpiry .. | .dnp3LinkConfirmTimeout ..
  | .sdi12Raw .. | .sdi12Measure .. | .sdi12ResponseTimeout .. | .spiXfer .. | .i2cXfer .. | .i2cStretchTimeout ..
  | .pulseReport .. | .bridgeRead .. | .bridgeWrite .. | .bridgePing .. | .helloFrame .. | .ackFrame .. | .cdataFrame ..
  | .creditFrame .. | .syncFrame .. | .grantFrame .. | .bdataFrame .. | .freezeFrame .. | .timeFrame .. | .recovRead ..
  | .recovWrite .. | .recovStream .. | .recovImage .. | .recovAbort .. | .recovResponse .. | .helloPeriod .. | .linkKeepalive ..
  | .linkSilenceTimeout .. | .retransmitTimeout .. | .ackDelay .. | .linkCreditReturn .. | .creditTimeout .. | .staleFrameDrop ..
  | .syncWaitTimeout .. | .timePeriod .. | .freezeAckWait | .sessionRenewal .. | .lkFrzcmd .. | .rtxSend .. | .linkLockFall ..
  | .recorderUpdateApply .. | .erCursorLoad .. | .erCursorNext .. | .erClrctl .. | .recorderClearPass | .erCmctl ..
  | .periodicCommit | .commit | .operatingSecond | .recorderRestore .. | .flashReadResponse .. | .flashIndetRetry
  | .flashProgramErase | .flashStatusPoll .. | .flashPeTimeout .. | .coldReset | .pwrOkFall | .aonOkFall | .warmReset
  | .fuseLoad .. | .memoryFill .. | .imageLoad .. | .imageCommit | .delayLineLock | .dlockTimeout | .release .. | .testEntry
  | .burngen .. | .arbraise .. | .lock1 .. | .lock2 .. | .zoneburn .. | .testdis .. | .otpBurnStepDone .. | .reload ..
  | .srcload .. | .stream .. | .imgAbort .. | .bcImginWrite .. | .streamIdleTimeout | .imageAccept | .threadRestart ..
  | .standRestart .. | .standRestore .. | .standRelease .. | .restart .. | .unpark .. | .wdkick .. | .watchdogExpiry ..
  | .stormDecay .. | .alarmInput .. | .alarmRearm .. | .shadowMismatch .. | .alarmResponse | .zeroise | .zeroiseClear
  | .zeroiseRestore .. | .lk2FreezeReset | .newch .. | .unlock .. | .relock .. | .debugLockoutEnd | .secAlstatClear .. | .bypass
  | .idcode | .dbgacc .. | .frread | .tapReset | .haltt .. | .resumet .. | .stept .. | .treset .. | .halts .. | .resumes ..
  | .dbgAbort .. | .dbgFreeze | .resume .. | .dbgTregAccess .. | .dbgSholdWrite .. | .freezeRequest | .freezeComplete ..
  | .freezeAckTimeout .. | .freezeAlarm | .dbgFrselWrite .. | .dbgFrdataRead | .registerWrite .. | .freezeNLow
  | .stoppedClockStart .. | .hostRequest .. | .hostResponse | .cipherRequest | .cipherResult .. | .cipherTimeout
  | .cipherResumeReissue | .trngWord .. | .trngWaitTimeout | .trHealthFail => none

/-- The operands beside those of the issue. -/
def Instr.operandsOk (c : Instr) : Bool :=
  match c with
  | .add _ m rd ra rb | .sub _ m rd ra rb | .shl _ m rd ra rb => arithOk m [rd, ra, rb]
  | .and _ wide rd ra rb | .or _ wide rd ra rb | .xor _ wide rd ra rb | .shr _ wide rd ra rb | .sra _ wide rd ra rb => pairsOk wide [rd, ra, rb]
  | .mov _ wide rd ra => pairsOk wide [rd, ra]
  | .addi _ m rd ra _ => arithOk m [rd, ra]
  | .shli _ _ _ _ k | .shri _ _ _ k | .srai _ _ _ k | .rori _ _ _ k | .bset _ _ _ k | .bclr _ _ _ k | .binv _ _ _ k
  | .btst _ _ _ k => decide (k.toNat < 32)
  | .movi _ wide rd _ | .get _ wide _ rd _ _ | .tget _ wide _ rd _ => pairsOk wide [rd]
  | .seq _ wide _ ra rb | .sne _ wide _ ra rb | .slt _ wide _ ra rb | .sltu _ wide _ ra rb => pairsOk wide [ra, rb]
  | .ld _ sz sx rd _ | .ldpc _ sz sx rd _ => loadOk sz sx rd
  | .st _ sz _ rs _ => pairsOk (decide (sz = .b64)) [rs]
  | .put _ wide _ _ rv _ | .pute _ wide _ _ rv _ | .tput _ wide _ _ rv | .tpute _ wide _ _ rv => pairsOk wide [rv]
  | .xset _ _ field _ | .xget _ _ field _ => decide (field.val < 5)
  | .waitev _ _ mask => decide (mask ≠ 0#8)
  | .waitt _ _ tm => decide (tm.toNat < 64)
  | .ext _ _ _ desc | .exts _ _ _ desc | .ins _ _ _ desc | .clrf _ _ _ desc | .setf _ _ _ desc => fieldOk desc
  | .mull _ rd _ _ | .mullu _ rd _ _ | .macl _ rd _ _ | .maclu _ rd _ _ => pairsOk true [rd]
  | .crcb _ _ _ sel_ | .crcw _ _ _ sel_ => decide (sel_.toNat < 4)
  | .seWait _ _ src arg _ _ => !src || (decide (0 < arg.val) && decide (arg.val < 16))
  | .spAccessGrant _ err _ | .scrubGrant _ _ err => errOk err
  | .testRegionDone march errs => march.all (fun p => decide (p.2.2.length = 5)) && errs.all (fun p => errOk p.2.2)
  | .retireCopyDone errs => errs.all (fun p => errOk p.2)
  | .helloFrame _ f | .ackFrame _ f | .cdataFrame _ f | .creditFrame _ f | .syncFrame _ f | .grantFrame _ f | .bdataFrame _ f
  | .freezeFrame _ f | .timeFrame _ f | .recovRead _ f | .recovWrite _ f | .recovStream _ f | .recovImage _ f | .recovAbort _ f
  | .recovResponse _ f => f.wf
  | .recorderRestore sects => decide (sects.length = 8)
  | .ror .. | .mul .. | .mulh .. | .mulhu .. | .div .. | .divu .. | .rem .. | .remu .. | .min .. | .max .. | .minu .. | .maxu ..
  | .sel .. | .not .. | .neg .. | .abs .. | .clz .. | .popc .. | .bswap .. | .andn .. | .rsubi .. | .andi .. | .ori .. | .xori ..
  | .muli .. | .mini .. | .maxi .. | .sle .. | .sleu .. | .stst .. | .seqi .. | .snei .. | .slti .. | .sltui .. | .slei ..
  | .sleui .. | .sgti .. | .sgtui .. | .ststi .. | .lea .. | .fence .. | .atomSwap .. | .atomAdd .. | .atomAnd .. | .atomOr ..
  | .atomXor .. | .atomMinu .. | .atomMaxu .. | .atomCas .. | .bz .. | .bnz .. | .br .. | .call .. | .jmp .. | .jal .. | .rett ..
  | .bdec .. | .impreciseTrap .. | .loadDataReturn .. | .storeGrant .. | .lateAccessMark .. | .engineHoldStall ..
  | .twinRecordMatch .. | .twinTimeout .. | .romFetchReturn .. | .chEnd .. | .getn .. | .drop .. | .abt .. | .tend .. | .tgetn ..
  | .chs .. | .channelResponse .. | .parkedOpRedecide .. | .channelTimeout .. | .mac .. | .msu .. | .xadv .. | .xlea ..
  | .yield .. | .sleep .. | .waitRelease .. | .btrd .. | .evclr .. | .sig .. | .mft .. | .mtt .. | .nop .. | .extr .. | .insr ..
  | .brev .. | .pack .. | .deftrap .. | .illegalInstruction .. | .par .. | .maddi .. | .seBr .. | .seEmit .. | .seSample ..
  | .sePull .. | .sePush .. | .seDrive .. | .seLoadl .. | .seCopy .. | .seSignal .. | .seIdle .. | .seIllegal ..
  | .seStallComplete .. | .seEventIn .. | .senCtlEnWrite .. | .senProgWrite .. | .senPcWrite .. | .senLWrite ..
  | .calObservation .. | .tapMoveApply .. | .ppsEdge .. | .btHoldover | .timerMatch .. | .timerWrap .. | .timerCapture ..
  | .timerCountEvent .. | .timerCompareInput .. | .tmnCapRead .. | .tmnCmpWrite .. | .tmnCtlWrite .. | .tmGstart ..
  | .btOfshiWrite .. | .btAdjWrite .. | .hostPairLowRead .. | .hostPairHighRead .. | .routeFire .. | .eventDelivery ..
  | .busyViewClear .. | .evFire .. | .evStatWrite .. | .deadlockSnapshot | .deadlockAnalysisEnd | .poolScrub ..
  | .unitEndpointTransfer .. | .mcHput .. | .mcHpute .. | .mcHget .. | .mcHstatEnd .. | .mcHstatAbt .. | .mcHstatDrop ..
  | .scrubLapEnd .. | .lapAlarm .. | .ttStart .. | .ttStop .. | .spWclr .. | .wordClearDone | .retire .. | .padClampPulse ..
  | .surgeEnd .. | .pgnOutWrite .. | .governorWindowStart | .laneRecordApply .. | .serviceInit .. | .uartSend .. | .uartData ..
  | .uartIdleFlush .. | .modbusFrame .. | .dnp3LinkFrame .. | .dnp3Control .. | .dnp3ControlReply .. | .dnp3ApprspTimeout ..
  | .dnp3Event .. | .dnp3UnsolHold .. | .dnp3ConfirmTimeout .. | .dnp3SessionKeyExpiry .. | .dnp3LinkConfirmTimeout ..
  | .sdi12Raw .. | .sdi12Measure .. | .sdi12ResponseTimeout .. | .spiXfer .. | .i2cXfer .. | .i2cStretchTimeout ..
  | .pulseReport .. | .bridgeRead .. | .bridgeWrite .. | .bridgePing .. | .helloPeriod .. | .linkKeepalive ..
  | .linkSilenceTimeout .. | .retransmitTimeout .. | .ackDelay .. | .linkCreditReturn .. | .creditTimeout .. | .staleFrameDrop ..
  | .syncWaitTimeout .. | .timePeriod .. | .freezeAckWait | .sessionRenewal .. | .lkFrzcmd .. | .rtxSend .. | .linkLockFall ..
  | .recorderUpdateApply .. | .erCursorLoad .. | .erCursorNext .. | .erClrctl .. | .recorderClearPass | .erCmctl ..
  | .periodicCommit | .commit | .operatingSecond | .flashReadResponse .. | .flashIndetRetry | .flashProgramErase
  | .flashStatusPoll .. | .flashPeTimeout .. | .coldReset | .pwrOkFall | .aonOkFall | .warmReset | .fuseLoad .. | .memoryFill ..
  | .imageLoad .. | .imageCommit | .delayLineLock | .dlockTimeout | .release .. | .testEntry | .burngen .. | .arbraise ..
  | .lock1 .. | .lock2 .. | .zoneburn .. | .testdis .. | .otpBurnStepDone .. | .reload .. | .srcload .. | .stream ..
  | .imgAbort .. | .bcImginWrite .. | .streamIdleTimeout | .imageAccept | .threadRestart .. | .standRestart .. | .standRestore ..
  | .standRelease .. | .restart .. | .unpark .. | .wdkick .. | .watchdogExpiry .. | .stormDecay .. | .alarmInput ..
  | .alarmRearm .. | .shadowMismatch .. | .alarmResponse | .zeroise | .zeroiseClear | .zeroiseRestore .. | .lk2FreezeReset
  | .newch .. | .unlock .. | .relock .. | .debugLockoutEnd | .secAlstatClear .. | .bypass | .idcode | .dbgacc .. | .frread
  | .tapReset | .haltt .. | .resumet .. | .stept .. | .treset .. | .halts .. | .resumes .. | .dbgAbort .. | .dbgFreeze
  | .resume .. | .dbgTregAccess .. | .dbgSholdWrite .. | .freezeRequest | .freezeComplete .. | .freezeAckTimeout ..
  | .freezeAlarm | .dbgFrselWrite .. | .dbgFrdataRead | .registerWrite .. | .freezeNLow | .stoppedClockStart .. | .hostRequest ..
  | .hostResponse | .cipherRequest | .cipherResult .. | .cipherTimeout | .cipherResumeReissue | .trngWord .. | .trngWaitTimeout
  | .trHealthFail => true

/-- Well formed. -/
def Instr.wellFormed (c : Instr) : Bool :=
  c.operandsOk && (match c.iss? with
    | some i => i.wf
    | none => true)

end Sys2Proof
end

