-- ==== Sys2Proof/Safety.lean ====
section
/-! DEFINITION. The terms in which claims speak of a safe run: a step that goes on, storage in canonical form, a thread that issues
an instruction, and what a command keeps. -/
namespace Sys2Proof
namespace Machine

/-- The step goes on: neither a fault nor a refusal. -/
def goesOn (s : State) : Prop := ∃ t, step s = .next t

/-- The command completes with a next state of which `P` holds. -/
def answers (c : Instr) (s : State) (P : State → Prop) : Prop := ∃ t, exec c s = .next t ∧ P t

/-- Memory and unit registers stand in their canonical form: numbers strictly rising, no entry equal to what an unlisted number reads
as. -/
def State.canon (s : State) : Prop := Memory.wf s.mem = true ∧ Bank.wf regReset s.regs = true

/-- The thread of an instruction issues it: it can issue (R154), in its own slot or one that it may take (R158), no breakpoint matches
(R523), and the instruction's bytes are fetched (R168, R192), no word of program memory failing with it. `cp`: the instruction is a
compare point (R178). -/
def State.issues (s : State) (i : Iss) (cp : Bool) : Prop :=
  s.canIssue i.t (cp || i.chk) = true ∧ s.slotOk i = true ∧ i.upset = none ∧ s.bpHits i.t (s.thr i.t).pc = [] ∧
  s.fetchFails i (s.thr i.t) = false

/-- The registers that the count of donated slots writes (R159). -/
def slotRegs (i : Iss) (a : Nat) : Prop := issSlots i ≠ 0 ∧ (a = rEDonUse (i.t / 16) ∨ a = rEStat (i.t / 16))

/-- No deferred result to register `r` of thread `t` is written when the thread's next instruction passes (R163). -/
def State.undue (s : State) (t r : Nat) : Prop := ∀ d ∈ (s.thr t).defer, d.wait ≤ 1 → ∀ p ∈ d.dests, p.1 ≠ r

/-- Every unit but the threads and the unit registers is as it was. -/
def sameUnits (s t : State) : Prop := t = { s with threads := t.threads, regs := t.regs, stamp := t.stamp }

/-- Every thread but `n` is as it was. -/
def sameThreads (s t : State) (n : Nat) : Prop := ∀ k, k ≠ n → t.thr k = s.thr k

/-- Every unit register but those that `p` names is as it was. -/
def sameRegs (s t : State) (p : Nat → Prop) : Prop := ∀ a, ¬ p a → t.reg a = s.reg a

/-- Every byte of memory but those that `p` names is as it was. -/
def sameBytes (s t : State) (p : Nat → Prop) : Prop := ∀ a, ¬ p a → t.byte a = s.byte a

/-- What every instruction that issues and touches its thread alone keeps: the other threads; the unit registers, but for the issue
counts and the round-robin pointer; every other unit, memory among them. -/
def issueKeeps (s t : State) (i : Iss) : Prop :=
  sameThreads s t i.t ∧ sameRegs s t (fun a => a = rEIcnt i.t ∨ slotRegs i a) ∧ sameUnits s t

/-- What such an instruction keeps of its thread beside pc and g registers: everything but deferred results, compare records and what
the end of a single step changes. -/
def threadKeeps (h k : Thread) : Prop :=
  k = { h with
    pc := k.pc, g := k.g, defer := k.defer, last := k.last, recs := k.recs, halted := k.halted, step := k.step, haltTag := k.haltTag }

/-- The g registers of the issuing thread that `p` does not name, and that no deferred result reaches now, keep their values. -/
def regsKept (s t : State) (i : Iss) (p : Nat → Prop) : Prop :=
  ∀ r, ¬ p r → s.undue i.t r → (t.thr i.t).rg r = (s.thr i.t).rg r

/-- The address of the byte after the instruction (R207). -/
def nextPc (s : State) (i : Iss) : Addr := (s.thr i.t).pc + BitVec.ofNat 24 i.len

/-- The instruction wrote `v` to g register `rd` (g0 discards it, R188), its thread goes on at `pc`, and nothing else happened. -/
def wroteAt (s t : State) (i : Iss) (rd : Nat) (v : Word) (pc : Addr) : Prop :=
  (t.thr i.t).rg rd = (if rd = 0 then 0#32 else v) ∧ regsKept s t i (fun r => r = rd) ∧ (t.thr i.t).pc = pc ∧
  threadKeeps (s.thr i.t) (t.thr i.t) ∧ issueKeeps s t i

/-- The same with pc past the instruction. -/
def wrote (s t : State) (i : Iss) (rd : Nat) (v : Word) : Prop := wroteAt s t i rd v (nextPc s i)

/-- The instruction did `f` to its thread, which goes on at `pc`, wrote no g register, and nothing else happened. -/
def acted (s t : State) (i : Iss) (pc : Addr) (f : Thread → Thread) : Prop :=
  (t.thr i.t).pc = pc ∧ regsKept s t i (fun _ => False) ∧ threadKeeps (f (s.thr i.t)) (t.thr i.t) ∧ issueKeeps s t i

/-- A precise trap of cause `c` was taken (R182, R183): tpc holds the instruction's address, the thread goes on at tvec, tst shows the
cause, INTRAP and a precise trap, its bits from 6 on stay; En_TFAs takes `tfa`, where there is one; a single step ends in a halt (R519); and,
but for the count of donated slots, nothing else happened. -/
def trapped (s t : State) (i : Iss) (c : Nat) (tfa : Option Word) : Prop :=
  let h := s.thr i.t
  let k := t.thr i.t
  k = { h with pc := h.tvec, tpc := h.pc, tst := k.tst, halted := h.step, step := false, haltTag := k.haltTag } ∧
  (h.step = false → k.haltTag = h.haltTag) ∧
  fld k.tst 0 4 = c ∧ k.tst.getLsbD 4 = true ∧ k.tst.getLsbD 5 = false ∧
  (∀ b, 6 ≤ b → k.tst.getLsbD b = h.tst.getLsbD b) ∧ sameThreads s t i.t ∧ (∀ w, tfa = some w → t.reg (rETfa i.t) = w) ∧
  sameRegs s t (fun a => (tfa.isSome = true ∧ a = rETfa i.t) ∨ slotRegs i a) ∧ sameUnits s t

/-- The same of the register pair of even `rd` (R189). -/
def wrotePair (s t : State) (i : Iss) (rd : Nat) (v : BitVec 64) : Prop :=
  (t.thr i.t).rg rd = (if rd = 0 then 0#32 else v.setWidth 32) ∧ (t.thr i.t).rg (rd + 1) = (v >>> 32).setWidth 32 ∧
  regsKept s t i (fun r => r = rd ∨ r = rd + 1) ∧ (t.thr i.t).pc = nextPc s i ∧ threadKeeps (s.thr i.t) (t.thr i.t) ∧ issueKeeps s t i

/-- The instruction left `v` to be written when two instructions more have passed (R163): every g register is as it would be without
it. -/
def leftResult (s t : State) (i : Iss) (dests : List (Nat × Bool)) (v : BitVec 64) : Prop :=
  (∃ d ∈ (t.thr i.t).defer, d.dests = dests ∧ d.wait = 2 ∧ d.st = .ready v) ∧
  regsKept s t i (fun _ => False) ∧ (t.thr i.t).pc = nextPc s i ∧ threadKeeps (s.thr i.t) (t.thr i.t) ∧ issueKeeps s t i

/-- Threads, channels and memory are as they were. -/
def dataKept (s t : State) : Prop := t.threads = s.threads ∧ t.chans = s.chans ∧ t.mem = s.mem

/-- The counter of `n` bits from bit `lo` on went up by one, or stood at its largest value and stays there (R545). -/
def ticked (old new : Word) (lo n : Nat) : Prop := fld new lo n = min (2 ^ n - 1) (fld old lo n + 1)

/-- Complete good words as a message holds them. -/
def goodWords (ws : List Word) : List PWord := ws.map (fun w => { v := w })

/-- Channel `d` has room for the longest message, nothing is staged on it, and no service waits to send there. -/
def State.roomFor (s : State) (d : Nat) : Prop :=
  32 ≤ s.freeWords d ∧ (s.chan d).msgs.length < 8 ∧ (s.chan d).staged = [] ∧
  (s.thr (epUnit (s.chan d).sendEp)).park.any (·.svc.isSome) = false

/-- A running instance `i` of a type, with record `r`, has the request `ws` at the head of channel `c`, brought by a secure frame or not,
holds no message back, and channel `d` of its responses has room. -/
def State.asked (s : State) (i type : Nat) (r : SvcRec) (c d : Nat) (ws : List Word) (sec : Bool) : Prop :=
  s.svOn i type = some r ∧ (s.svc i).out = [] ∧ s.svChan r 0 0 = some c ∧ s.svChan r 0 1 = some d ∧ c ≠ d ∧
  (∃ m l, (s.chan c).msgs = m :: l ∧ m.words = goodWords ws ∧ m.sec = sec) ∧ epKind (s.chan c).sendEp ≠ 4 ∧
  s.roomFor d

/-- Channel `d` received the message `ws`, and channels other than `c` and `d` are as they were. -/
def received (s t : State) (c d : Nat) (ws : List Word) : Prop :=
  (t.chan d).msgs = (s.chan d).msgs ++ [{ words := goodWords ws, total := ws.length }] ∧
  ∀ k, k ≠ c → k ≠ d → t.chan k = s.chan k

/-- The request at the head of `c` is freed and the response `ws` sent on `d` (R411, R413). -/
def answered (s t : State) (c d : Nat) (ws : List Word) : Prop :=
  (t.chan c).msgs = (s.chan c).msgs.tail ∧ received s t c d ws ∧ t.threads = s.threads

/-- Link `n` runs without GCM and is UP, no link stores, holds back or reorders a frame, no frame waits to be served, and no canopy freeze
waits. -/
def State.linkIdle (s : State) (n : Nat) : Prop :=
  s.lkOn n = true ∧ s.lkGcm n = false ∧ (s.lk n).up = true ∧ (s.lk n).seq < 65536 ∧ (s.lk n).next < 65536 ∧
  (∀ m, m < 4 → (s.lk m).store = [] ∧ (s.lk m).wait = [] ∧ (s.lk m).rstore = []) ∧ s.frzWait = false ∧ s.recovQ = []

/-- The frame that link `n` expects next, which acknowledges everything sent. -/
def State.nextFrame (s : State) (n : Nat) (dst src : Word) (chan : Nat) (payload : List Byte) : LinkFrame :=
  { dst := dst, src := src, seq := (s.lk n).next, ack := (s.lk n).seq, chan := chan, payload := payload }

/-- The frame of SEQ NEXT was counted and accepted (R447). -/
def tookNext (s t : State) (n : Nat) : Prop :=
  ticked (s.reg (rLkRxf n)) (t.reg (rLkRxf n)) 0 32 ∧ (t.lk n).next = ((s.lk n).next + 1) % 65536

/-- The last frame put on link `n` is of a type and as `p` says. -/
def putFrame (t : State) (n : Nat) (ty : FType) (p : LinkFrame → Prop) : Prop := ∃ g, (t.lk n).line = some (ty, g) ∧ p g

end Machine
end Sys2Proof
end

