-- ==== Sys2Proof/Certificates/Slice0/Obligations.lean ====
section
/-! DEFINITION. The statements for the provers. -/
open Sys2Proof Sys2Proof.Machine

/-! ### Thread instructions -/

/-- R215, R217: every ALU register form without SAT or W64 whose result the next instruction reads writes the value of R215 to rd, and
does nothing else. Division by zero and the overflowing division give what R217 says. -/
def Obligations.AluRegisterFormsWriteTheirResults : Prop :=
  ∀ (s : State) (i : Iss) (rd ra rb rc : Reg), s.issues i false →
    let a := (s.thr i.t).rg ra
    let b := (s.thr i.t).rg rb
    let n := b.toNat % 32
    (answers (.add i .wrap rd ra rb) s fun t => wrote s t i rd (a + b)) ∧
    (answers (.sub i .wrap rd ra rb) s fun t => wrote s t i rd (a - b)) ∧
    (answers (.and i false rd ra rb) s fun t => wrote s t i rd (a &&& b)) ∧
    (answers (.or i false rd ra rb) s fun t => wrote s t i rd (a ||| b)) ∧
    (answers (.xor i false rd ra rb) s fun t => wrote s t i rd (a ^^^ b)) ∧
    (answers (.shl i .wrap rd ra rb) s fun t => wrote s t i rd (a <<< n)) ∧
    (answers (.shr i false rd ra rb) s fun t => wrote s t i rd (a >>> n)) ∧
    (answers (.sra i false rd ra rb) s fun t => wrote s t i rd (a.sshiftRight n)) ∧
    (answers (.ror i rd ra rb) s fun t => wrote s t i rd (a.rotateRight n)) ∧
    (answers (.div i rd ra rb) s fun t => wrote s t i rd
      (if b = 0#32 then 0xFFFFFFFF#32 else BitVec.ofInt 32 (a.toInt.tdiv b.toInt))) ∧
    (answers (.divu i rd ra rb) s fun t => wrote s t i rd (if b = 0#32 then 0xFFFFFFFF#32 else a / b)) ∧
    (answers (.rem i rd ra rb) s fun t => wrote s t i rd
      (if b = 0#32 then a else BitVec.ofInt 32 (a.toInt.tmod b.toInt))) ∧
    (answers (.remu i rd ra rb) s fun t => wrote s t i rd (if b = 0#32 then a else a % b)) ∧
    (answers (.min i rd ra rb) s fun t => wrote s t i rd (if a.toInt < b.toInt then a else b)) ∧
    (answers (.max i rd ra rb) s fun t => wrote s t i rd (if a.toInt > b.toInt then a else b)) ∧
    (answers (.minu i rd ra rb) s fun t => wrote s t i rd (if a.toNat < b.toNat then a else b)) ∧
    (answers (.maxu i rd ra rb) s fun t => wrote s t i rd (if a.toNat > b.toNat then a else b)) ∧
    (answers (.sel i rd ra rb rc) s fun t => wrote s t i rd (if (s.thr i.t).rg rc = 0#32 then b else a)) ∧
    (answers (.mov i false rd ra) s fun t => wrote s t i rd a) ∧
    (answers (.not i rd ra) s fun t => wrote s t i rd (~~~ a)) ∧
    (answers (.neg i false rd ra) s fun t => wrote s t i rd (- a)) ∧
    (answers (.abs i false rd ra) s fun t => wrote s t i rd (if a.toInt < 0 then - a else a)) ∧
    (answers (.clz i rd ra) s fun t => ∃ z ≤ 32, a >>> (32 - z) = 0#32 ∧ (z < 32 → a.getLsbD (31 - z) = true) ∧
      wrote s t i rd (BitVec.ofNat 32 z)) ∧
    (answers (.popc i rd ra) s fun t =>
      wrote s t i rd (BitVec.ofNat 32 ((List.range 32).filter (fun k => a.getLsbD k)).length)) ∧
    (answers (.bswap i rd ra) s fun t => wrote s t i rd
      (a.extractLsb' 0 8 ++ a.extractLsb' 8 8 ++ a.extractLsb' 16 8 ++ a.extractLsb' 24 8)) ∧
    (answers (.andn i rd ra rb) s fun t => wrote s t i rd (a &&& ~~~ b))

/-- R216: under SAT the exact signed result, saturated to the range of a signed word, is what the form writes, or leaves for later. -/
def Obligations.SaturatingFormsSaturateTheExactResult : Prop :=
  ∀ (s : State) (i : Iss) (rd ra rb : Reg) (imm : Word) (k : Byte), s.issues i false → k.toNat < 32 →
    let h := s.thr i.t
    let d := (h.rg rd).toInt
    let a := (h.rg ra).toInt
    let b := (h.rg rb).toInt
    let sat := fun (v : Int) => BitVec.ofInt 32 (if 2 ^ 31 - 1 < v then 2 ^ 31 - 1 else if v < -(2 ^ 31) then -(2 ^ 31) else v)
    let later := fun (v : Int) (t : State) => leftResult s t i [(rd.val, false)] ((sat v).setWidth 64)
    (answers (.add i .sat rd ra rb) s fun t => wrote s t i rd (sat (a + b))) ∧
    (answers (.sub i .sat rd ra rb) s fun t => wrote s t i rd (sat (a - b))) ∧
    (answers (.shl i .sat rd ra rb) s fun t => wrote s t i rd (sat (a * 2 ^ ((h.rg rb).toNat % 32)))) ∧
    (answers (.neg i true rd ra) s fun t => wrote s t i rd (sat (- a))) ∧
    (answers (.abs i true rd ra) s fun t => wrote s t i rd (sat (if a < 0 then - a else a))) ∧
    (h.rg ra = 0x80000000#32 →
      (answers (.neg i true rd ra) s fun t => wrote s t i rd 0x7FFFFFFF#32) ∧ (answers (.neg i false rd ra) s fun t => wrote s t i rd 0x80000000#32) ∧
      (answers (.abs i true rd ra) s fun t => wrote s t i rd 0x7FFFFFFF#32) ∧ (answers (.abs i false rd ra) s fun t => wrote s t i rd 0x80000000#32)) ∧
    (answers (.addi i .sat rd ra imm) s fun t => wrote s t i rd (sat (a + imm.toInt))) ∧
    (answers (.rsubi i true rd ra imm) s fun t => wrote s t i rd (sat (imm.toInt - a))) ∧
    (answers (.shli i true rd ra k) s fun t => wrote s t i rd (sat (a * 2 ^ k.toNat))) ∧
    (answers (.mul i true rd ra rb) s (later (a * b))) ∧
    (answers (.muli i true rd ra imm) s (later (a * imm.toInt))) ∧
    (answers (.mac i true rd ra rb) s (later (d + a * b))) ∧
    (answers (.msu i true rd ra rb) s (later (d - a * b))) ∧
    (answers (.maddi i true rd ra rb imm) s (later (a * b + imm.toInt)))

/-- R199, R211, R219: under W64 the forms compute on register pairs, wrap to 64 bits, and write a pair; a compare writes one register. -/
def Obligations.WideFormsComputeOnPairs : Prop :=
  ∀ (s : State) (i : Iss) (rd ra rb : Reg) (imm : Word), s.issues i false → ra.val % 2 = 0 → rb.val % 2 = 0 →
    let a := (s.thr i.t).rpair ra
    let b := (s.thr i.t).rpair rb
    let n := b.toNat % 64
    let bit := fun (c : Prop) [Decidable c] => if c then 1#32 else 0#32
    (rd.val % 2 = 0 →
      (answers (.add i .wide rd ra rb) s fun t => wrotePair s t i rd (a + b)) ∧
      (answers (.sub i .wide rd ra rb) s fun t => wrotePair s t i rd (a - b)) ∧
      (answers (.and i true rd ra rb) s fun t => wrotePair s t i rd (a &&& b)) ∧
      (answers (.or i true rd ra rb) s fun t => wrotePair s t i rd (a ||| b)) ∧
      (answers (.xor i true rd ra rb) s fun t => wrotePair s t i rd (a ^^^ b)) ∧
      (answers (.shl i .wide rd ra rb) s fun t => wrotePair s t i rd (a <<< n)) ∧
      (answers (.shr i true rd ra rb) s fun t => wrotePair s t i rd (a >>> n)) ∧
      (answers (.sra i true rd ra rb) s fun t => wrotePair s t i rd (a.sshiftRight n)) ∧
      (answers (.mov i true rd ra) s fun t => wrotePair s t i rd a) ∧
      (answers (.addi i .wide rd ra imm) s fun t => wrotePair s t i rd (a + imm.signExtend 64)) ∧
      (answers (.movi i true rd imm) s fun t => wrotePair s t i rd (imm.signExtend 64))) ∧
    (answers (.seq i true rd ra rb) s fun t => wrote s t i rd (bit (a = b))) ∧
    (answers (.sne i true rd ra rb) s fun t => wrote s t i rd (bit (a ≠ b))) ∧
    (answers (.slt i true rd ra rb) s fun t => wrote s t i rd (bit (a.toInt < b.toInt))) ∧
    (answers (.sltu i true rd ra rb) s fun t => wrote s t i rd (bit (a.toNat < b.toNat)))

/-- R218: every ALU immediate form without SAT or W64 writes the value of R218 to rd, and does nothing else. `imm` is the immediate after
IMX widening and extension (R211).
R219: each compare writes 1 to rd when its condition holds and 0 otherwise, and does nothing else. -/
def Obligations.AluImmediateFormsAndComparesWriteTheirResults : Prop :=
  (∀ (s : State) (i : Iss) (rd ra : Reg) (imm : Word) (k : Byte), s.issues i false → k.toNat < 32 →
    let a := (s.thr i.t).rg ra
    (answers (.addi i .wrap rd ra imm) s fun t => wrote s t i rd (a + imm)) ∧
    (answers (.rsubi i false rd ra imm) s fun t => wrote s t i rd (imm - a)) ∧
    (answers (.andi i rd ra imm) s fun t => wrote s t i rd (a &&& imm)) ∧
    (answers (.ori i rd ra imm) s fun t => wrote s t i rd (a ||| imm)) ∧
    (answers (.xori i rd ra imm) s fun t => wrote s t i rd (a ^^^ imm)) ∧
    (answers (.shli i false rd ra k) s fun t => wrote s t i rd (a <<< k.toNat)) ∧
    (answers (.shri i rd ra k) s fun t => wrote s t i rd (a >>> k.toNat)) ∧
    (answers (.srai i rd ra k) s fun t => wrote s t i rd (a.sshiftRight k.toNat)) ∧
    (answers (.rori i rd ra k) s fun t => wrote s t i rd (a.rotateRight k.toNat)) ∧
    (answers (.muli i false rd ra imm) s fun t => leftResult s t i [(rd.val, false)] ((a * imm).setWidth 64)) ∧
    (answers (.movi i false rd imm) s fun t => wrote s t i rd imm) ∧
    (answers (.mini i rd ra imm) s fun t => wrote s t i rd (if a.toInt < imm.toInt then a else imm)) ∧
    (answers (.maxi i rd ra imm) s fun t => wrote s t i rd (if a.toInt > imm.toInt then a else imm))) ∧
  (∀ (s : State) (i : Iss) (rd ra rb : Reg) (imm : Word), s.issues i false →
    let a := (s.thr i.t).rg ra
    let b := (s.thr i.t).rg rb
    let bit := fun (c : Prop) [Decidable c] => if c then 1#32 else 0#32
    (answers (.seq i false rd ra rb) s fun t => wrote s t i rd (bit (a = b))) ∧
    (answers (.sne i false rd ra rb) s fun t => wrote s t i rd (bit (a ≠ b))) ∧
    (answers (.slt i false rd ra rb) s fun t => wrote s t i rd (bit (a.toInt < b.toInt))) ∧
    (answers (.sltu i false rd ra rb) s fun t => wrote s t i rd (bit (a.toNat < b.toNat))) ∧
    (answers (.sle i rd ra rb) s fun t => wrote s t i rd (bit (a.toInt ≤ b.toInt))) ∧
    (answers (.sleu i rd ra rb) s fun t => wrote s t i rd (bit (a.toNat ≤ b.toNat))) ∧
    (answers (.stst i rd ra rb) s fun t => wrote s t i rd (bit (a &&& b ≠ 0#32))) ∧
    (answers (.seqi i rd ra imm) s fun t => wrote s t i rd (bit (a = imm))) ∧
    (answers (.snei i rd ra imm) s fun t => wrote s t i rd (bit (a ≠ imm))) ∧
    (answers (.slti i rd ra imm) s fun t => wrote s t i rd (bit (a.toInt < imm.toInt))) ∧
    (answers (.sltui i rd ra imm) s fun t => wrote s t i rd (bit (a.toNat < imm.toNat))) ∧
    (answers (.slei i rd ra imm) s fun t => wrote s t i rd (bit (a.toInt ≤ imm.toInt))) ∧
    (answers (.sleui i rd ra imm) s fun t => wrote s t i rd (bit (a.toNat ≤ imm.toNat))) ∧
    (answers (.sgti i rd ra imm) s fun t => wrote s t i rd (bit (a.toInt > imm.toInt))) ∧
    (answers (.sgtui i rd ra imm) s fun t => wrote s t i rd (bit (a.toNat > imm.toNat))) ∧
    (answers (.ststi i rd ra imm) s fun t => wrote s t i rd (bit (a &&& imm ≠ 0#32))))

/-- R215, R235, R245: the products, multiply-accumulates and the forms that write a pair without W64 leave their result to be written when two
instructions more of the thread have passed (R163), and do nothing else. -/
def Obligations.ProductFormsDeferTheirResults : Prop :=
  ∀ (s : State) (i : Iss) (rd ra rb : Reg) (imm : Word), s.issues i false →
    let h := s.thr i.t
    let a := h.rg ra
    let b := h.rg rb
    let one := fun (v : Word) (t : State) => leftResult s t i [(rd.val, false)] (v.setWidth 64)
    let two := fun (v : BitVec 64) (t : State) => leftResult s t i [(rd.val, false), (rd.val + 1, true)] v
    (answers (.mul i false rd ra rb) s (one (a * b))) ∧
    (answers (.mulh i rd ra rb) s (one ((((a.signExtend 64) * (b.signExtend 64)) >>> 32).setWidth 32))) ∧
    (answers (.mulhu i rd ra rb) s (one ((((a.setWidth 64) * (b.setWidth 64)) >>> 32).setWidth 32))) ∧
    (answers (.mac i false rd ra rb) s (one (h.rg rd + a * b))) ∧
    (answers (.msu i false rd ra rb) s (one (h.rg rd - a * b))) ∧
    (answers (.maddi i false rd ra rb imm) s (one (a * b + imm))) ∧
    (rd.val % 2 = 0 →
      (answers (.mull i rd ra rb) s (two ((a.signExtend 64) * (b.signExtend 64)))) ∧
      (answers (.mullu i rd ra rb) s (two ((a.setWidth 64) * (b.setWidth 64)))) ∧
      (answers (.macl i rd ra rb) s (two (h.rpair rd + (a.signExtend 64) * (b.signExtend 64)))) ∧
      (answers (.maclu i rd ra rb) s (two (h.rpair rd + (a.setWidth 64) * (b.setWidth 64)))))

/-- R163: the two instructions that follow a MUL read the old value of rd, the next one reads the product: shown with NOPs of the same
thread, each issued. -/
def Obligations.ProductIsReadThreeInstructionsLater : Prop :=
  ∀ (s t u v : State) (i j k : Iss) (rd ra rb : Reg), s.issues i false → (s.thr i.t).defer = [] → rd.val ≠ 0 →
    j.t = i.t → k.t = i.t →
    exec (.mul i false rd ra rb) s = .next t → t.issues j false → exec (.nop j) t = .next u → u.issues k false →
    exec (.nop k) u = .next v →
    (t.thr i.t).rg rd = (s.thr i.t).rg rd ∧ (u.thr i.t).rg rd = (s.thr i.t).rg rd ∧
    (v.thr i.t).rg rd = (s.thr i.t).rg ra * (s.thr i.t).rg rb

/-- R243–R246: the bit-field forms, PAR and the CRC forms write the value of their table to rd, and do nothing else. In EXTR and INSR a
field that would pass bit 31 ends there. -/
def Obligations.BitFieldAndCrcFormsWriteTheirResults : Prop :=
  ∀ (s : State) (i : Iss) (rd ra rb : Reg) (d : BitVec 16) (k sel : Byte), s.issues i false → k.toNat < 32 → sel.toNat < 4 →
    let h := s.thr i.t
    let a := h.rg ra
    let b := h.rg rb
    let o := h.rg rd
    let F := fun (pos len : Nat) => BitVec.ofNat 32 ((2 ^ len - 1) * 2 ^ pos)
    let pos := d.toNat % 32
    let len := d.toNat / 32 % 32 + 1
    let rpos := b.toNat % 32
    let rlen := b.toNat / 32 % 32 + 1
    let poly := if sel = 0#8 then 0xA001#32 else if sel = 1#8 then 0xA6BC#32 else if sel = 2#8 then 0xEDB88320#32 else 0x8408#32
    let bit := fun (c : Word) => if c.getLsbD 0 then (c >>> 1) ^^^ poly else c >>> 1
    let byte := fun (c : Word) (v : Byte) =>
      bit (bit (bit (bit (bit (bit (bit (bit ((if sel = 2#8 then c else c &&& 0xFFFF#32) ^^^ v.setWidth 32))))))))
    (d.toNat < 1024 → pos + len ≤ 32 →
      (answers (.ext i rd ra d) s fun t => wrote s t i rd ((a >>> pos) &&& F 0 len)) ∧
      (answers (.exts i rd ra d) s fun t => ∃ v, (∀ j, j < 32 → v.getLsbD j = a.getLsbD (pos + min j (len - 1))) ∧ wrote s t i rd v) ∧
      (answers (.ins i rd ra d) s fun t => wrote s t i rd ((o &&& ~~~ F pos len) ||| ((a <<< pos) &&& F pos len))) ∧
      (answers (.clrf i rd ra d) s fun t => wrote s t i rd (a &&& ~~~ F pos len)) ∧
      (answers (.setf i rd ra d) s fun t => wrote s t i rd (a ||| F pos len))) ∧
    (answers (.bset i rd ra k) s fun t => wrote s t i rd (a ||| (1#32 <<< k.toNat))) ∧
    (answers (.bclr i rd ra k) s fun t => wrote s t i rd (a &&& ~~~ (1#32 <<< k.toNat))) ∧
    (answers (.binv i rd ra k) s fun t => wrote s t i rd (a ^^^ (1#32 <<< k.toNat))) ∧
    (answers (.btst i rd ra k) s fun t => wrote s t i rd ((a >>> k.toNat) &&& 1#32)) ∧
    (answers (.extr i rd ra rb) s fun t => wrote s t i rd ((a >>> rpos) &&& F 0 rlen)) ∧
    (answers (.insr i rd ra rb) s fun t => wrote s t i rd ((o &&& ~~~ F rpos rlen) ||| ((a <<< rpos) &&& F rpos rlen))) ∧
    (answers (.brev i rd ra) s fun t => ∃ v, (∀ j, j < 32 → v.getLsbD j = a.getLsbD (31 - j)) ∧ wrote s t i rd v) ∧
    (answers (.pack i rd ra rb) s fun t => wrote s t i rd ((b <<< 16) ||| (a &&& 0xFFFF#32))) ∧
    (answers (.par i rd ra) s fun t => wrote s t i rd
      (if ((List.range 32).filter (fun j => a.getLsbD j)).length % 2 = 1 then 1#32 else 0#32)) ∧
    (answers (.crcb i rd ra sel) s fun t => wrote s t i rd (byte o (a.setWidth 8))) ∧
    (answers (.crcw i rd ra sel) s fun t => wrote s t i rd
      (byte (byte (byte (byte o (a.setWidth 8)) ((a >>> 8).setWidth 8)) ((a >>> 16).setWidth 8)) ((a >>> 24).setWidth 8)))

/-- R226: the branch forms go where their table says, write the link register where they have one, and do nothing else. -/
def Obligations.BranchFormsTransferControl : Prop :=
  ∀ (s : State) (i : Iss) (ga rd ra : Reg) (off : Word), s.issues i false →
    let h := s.thr i.t
    let A := h.pc
    let target := A + off.setWidth 24
    let link : Word := (nextPc s i).setWidth 32
    (answers (.bz i ga off) s fun t => acted s t i (if h.rg ga = 0#32 then target else nextPc s i) id) ∧
    (answers (.bnz i ga off) s fun t => acted s t i (if h.rg ga = 0#32 then nextPc s i else target) id) ∧
    (answers (.br i off) s fun t => acted s t i target id) ∧
    (answers (.call i rd off) s fun t => wroteAt s t i rd link target) ∧
    (answers (.jmp i ga) s fun t => acted s t i ((h.rg ga).setWidth 24) id) ∧
    (answers (.jal i rd ra) s fun t => wroteAt s t i rd link ((h.rg ra).setWidth 24)) ∧
    (answers (.rett i) s fun t => acted s t i h.tpc (fun k => { k with tst := k.tst &&& ~~~ 0x10#32 })) ∧
    (answers (.bdec i ga off) s fun t =>
      wroteAt s t i ga (h.rg ga - 1#32) (if h.rg ga - 1#32 = 0#32 then nextPc s i else target))

/-- R235, R205, R204: XADV, XLEA, XSET, XGET and LEA: the index unit advances by its mode (linear, modulo,
bit-reversed), its fields are written and read. `rev` reverses the order of the low bits of a number, `part` is bits k − 1 to ESZ of a 24-bit value. -/
def Obligations.IndexUnitFormsActOnTheUnit : Prop :=
  ∀ (s : State) (i : Iss) (n : Xn) (rd ga : Reg) (d : Word), s.issues i false →
    let h := s.thr i.t
    let u := h.rx n
    let v := h.rg rd
    let m := u.esz.toNat
    let part := fun (x : Addr) (k : Nat) => x.toNat % 2 ^ k / 2 ^ m
    let rev := fun (w x : Nat) => ((List.range w).map (fun j => if x.testBit j then 2 ^ (w - 1 - j) else 0)).sum
    let setTo := fun (t : State) (u' : XUnit) =>
      acted s t i (nextPc s i) (fun k => { k with x := (t.thr i.t).x }) ∧
      ∀ m, (t.thr i.t).rx m = if m = n.val then u' else h.rx m
    (u.mode = 0#2 → answers (.xadv i n) s fun t => setTo t { u with xi := u.xi + u.xs }) ∧
    (u.mode = 1#2 → answers (.xadv i n) s fun t =>
      let L : Int := if u.xl = 0#24 then 0x1000000 else u.xl.toNat
      let w : Int := u.xi.toNat + u.xs.toInt
      setTo t { u with xi := BitVec.ofInt 24 (if L ≤ w then w - L else if w < 0 then w + L else w) }) ∧
    (u.mode = 2#2 → ∀ k, (if u.xl = 0#24 then k = 24 else 2 ^ k ≤ u.xl.toNat ∧ u.xl.toNat < 2 ^ (k + 1)) →
      answers (.xadv i n) s fun t =>
        let xi := ((t.thr i.t).rx n).xi
        setTo t { u with xi := xi } ∧
        (∀ b, b < m ∨ k ≤ b → xi.getLsbD b = u.xi.getLsbD b) ∧
        (m < k → part xi k = rev (k - m) ((rev (k - m) (part u.xi k) + rev (k - m) (part u.xs k)) % 2 ^ (k - m)))) ∧
    (answers (.xlea i rd n) s fun t => wrote s t i rd ((u.xb + u.xi).setWidth 32)) ∧
    (answers (.xset i n 0 rd) s fun t => setTo t { u with xb := v.setWidth 24 }) ∧
    (answers (.xset i n 1 rd) s fun t => setTo t { u with xi := v.setWidth 24 }) ∧
    (answers (.xset i n 2 rd) s fun t => setTo t { u with xl := v.setWidth 24 }) ∧
    (answers (.xset i n 3 rd) s fun t => setTo t { u with xs := v.setWidth 24 }) ∧
    (answers (.xset i n 4 rd) s fun t =>
      setTo t { u with mode := if v.setWidth 2 = 3#2 then 0#2 else v.setWidth 2, esz := (v >>> 2).setWidth 2 }) ∧
    (answers (.xget i n 0 rd) s fun t => wrote s t i rd (u.xb.setWidth 32)) ∧
    (answers (.xget i n 1 rd) s fun t => wrote s t i rd (u.xi.setWidth 32)) ∧
    (answers (.xget i n 2 rd) s fun t => wrote s t i rd (u.xl.setWidth 32)) ∧
    (answers (.xget i n 3 rd) s fun t => wrote s t i rd (u.xs.signExtend 32)) ∧
    (answers (.xget i n 4 rd) s fun t => wrote s t i rd (BitVec.ofNat 32 (u.mode.toNat + 4 * u.esz.toNat))) ∧
    (answers (.lea i rd ga d) s fun t => wrote s t i rd (((h.rg ga) + d).setWidth 24 |>.setWidth 32))

/-- R236–R239, R241, R242: waits begin a long stall, EVCLR, NOP, SIG, MFT and MTT act on the thread alone. -/
def Obligations.WaitAndThreadRegisterFormsActOnTheThread : Prop :=
  ∀ (s : State) (i : Iss) (rd rs ga : Reg) (mask tm : Byte) (c : BitVec 16), s.issues i false → mask ≠ 0#8 → tm.toNat < 64 →
    let h := s.thr i.t
    let did := fun (t : State) (f : Thread → Thread) => acted s t i (nextPc s i) f
    (answers (.waitev i rd mask) s fun t => did t (fun k => { k with stall := .waitev mask rd })) ∧
    (answers (.waitt i rd tm) s fun t => did t (fun k => { k with stall := .waitt tm.toNat rd })) ∧
    (answers (.yield i) s fun t => did t (fun k => { k with stall := .yield })) ∧
    (answers (.sleep i ga) s fun t =>
      did t (fun k => { k with stall := .sleep (h.rg ga), sleepStamp := s.stamp + 1, sleepMarked := false, sleepHeld := false })) ∧
    (answers (.evclr i mask) s fun t => did t (fun k => { k with evp := k.evp &&& ~~~ mask })) ∧
    (answers (.nop i) s fun t => did t id) ∧
    (c.getLsbD 15 = true → answers (.sig i c) s fun t => did t (fun k => { k with sigr := k.sigr ^^^ (c &&& 0x7FFF#16).setWidth 32 })) ∧
    (c.getLsbD 15 = false → c.toNat % 2 ^ 15 = h.sigr.toNat % 2 ^ 15 → answers (.sig i c) s fun t => did t id) ∧
    (answers (.mft i rd 0) s fun t => wrote s t i rd (h.tpc.setWidth 32)) ∧
    (answers (.mft i rd 1) s fun t => wrote s t i rd h.tst) ∧
    (answers (.mft i rd 2) s fun t => wrote s t i rd (h.tvec.setWidth 32)) ∧
    (answers (.mft i rd 3) s fun t => wrote s t i rd h.sigr) ∧
    (answers (.mtt i 0 rs) s fun t => did t (fun k => { k with tpc := (h.rg rs).setWidth 24 })) ∧
    (answers (.mtt i 1 rs) s fun t => did t (fun k => { k with tst := (k.tst &&& ~~~ 0x6F#32) ||| (h.rg rs &&& 0x6F#32) })) ∧
    (answers (.mtt i 2 rs) s fun t => did t (fun k => { k with tvec := (h.rg rs).setWidth 24 })) ∧
    (answers (.mtt i 3 rs) s fun t => did t (fun k => { k with sigr := h.rg rs }))

/-- R182, R183, R209: DEFTRAP and an illegal instruction take a precise trap with the instruction's address in tpc.
R168, R192: so does, with BUSERR and the address in En_TFAs, every instruction whose bytes lie outside program memory and ROM or meet an
uncorrectable word. -/
def Obligations.TrapInstructionsEnterTheHandler : Prop :=
  (∀ (s : State) (i : Iss), s.issues i false → (s.thr i.t).inTrap = false →
    (answers (.deftrap i) s fun t => trapped s t i 2 none) ∧
    (answers (.illegalInstruction i) s fun t => trapped s t i 1 none)) ∧
  (∀ (c : Instr) (s : State) (i : Iss), c.iss? = some i → s.canIssue i.t true = true → s.slotOk i = true →
    s.bpHits i.t (s.thr i.t).pc = [] → (s.meetUpset i).fetchFails i (s.thr i.t) = true → (s.thr i.t).romBad = none →
    (s.thr i.t).inTrap = false →
    answers c s fun t => trapped (s.meetUpset i) t i 4 (some (BitVec.ofNat 32 ((s.thr i.t).pc.toNat + 4 * 2 ^ 24))))

/-- R199, R202, R208: an instruction whose operands its encoding does not admit does what an illegal instruction does, whatever it is. -/
def Obligations.IllegalOperandsTakeTheIllegalTrap : Prop :=
  ∀ (c : Instr) (s : State) (i : Iss), c.iss? = some i → c.operandsOk = false → s.issues i true →
    exec c s = exec (.illegalInstruction i) s

/-- R182, R183, R206: a load, store or ATOM whose address is not aligned to its size takes a precise MISALIGN trap and records the
address in En_TFAs; no register, index unit or byte of memory changes. The address is that of R204.
R184: a trap while tst.INTRAP = 1 enters no handler: the thread, and its twin, begin a thread restart.
R183, R184: an imprecise trap is taken at the next issue opportunity: the first pending cause in the order TWIN, TWINTMO, BUSERR; the
others are discarded with tst.MULTI. -/
def Obligations.TrapsOfAccessesNestedAndImprecise : Prop :=
  (∀ (s : State) (i : Iss) (sz : Size) (sx nt : Bool) (r rd : Reg) (f : AddrForm) (d : Word), s.issues i true →
    (s.thr i.t).inTrap = false → loadOk sz sx r = true →
    let a := formAddr f (s.thr i.t)
    let p := (s.thr i.t).pc + d.setWidth 24
    let tfa := fun (x : Addr) => BitVec.ofNat 32 (x.toNat + 3 * 2 ^ 24)
    (a.toNat % sizeBytes sz ≠ 0 →
      (answers (.ld i sz sx r f) s fun t => trapped s t i 3 (some (tfa a))) ∧
      (answers (.st i sz nt r f) s fun t => trapped s t i 3 (some (tfa a)))) ∧
    (p.toNat % sizeBytes sz ≠ 0 → answers (.ldpc i sz sx r d) s fun t => trapped s t i 3 (some (tfa p))) ∧
    (a.toNat % 4 ≠ 0 → ∀ c ∈ [Instr.atomSwap i r rd f, .atomAdd i r rd f, .atomAnd i r rd f, .atomOr i r rd f, .atomXor i r rd f,
      .atomMinu i r rd f, .atomMaxu i r rd f, .atomCas i r rd f], answers c s fun t => trapped s t i 3 (some (tfa a)))) ∧
  (∀ (s : State) (i : Iss), s.issues i false → (s.thr i.t).inTrap = true →
    let restarts := fun (t : State) =>
      let h := s.thr i.t
      let k := t.thr i.t
      k = { h with restarting := true, halted := h.step, step := false, haltTag := k.haltTag } ∧
      (∀ n, n ≠ i.t.val → t.thr n = if h.twin = true ∧ n = partner i.t then { s.thr n with restarting := true } else s.thr n) ∧
      sameRegs s t (slotRegs i) ∧ sameUnits s t
    (answers (.deftrap i) s restarts) ∧ (answers (.illegalInstruction i) s restarts)) ∧
  (∀ (s : State) (n : Tid), let h := s.thr n
    let s1 := s.setThr n { h with imp := {} }
    h.imp ≠ {} → s1.canIssue n false = true → h.inTrap = false →
    answers (.impreciseTrap n) s fun t =>
      let k := t.thr n
      let count := (if h.imp.twin then 1 else 0) + (if h.imp.twintmo then 1 else 0) + h.imp.buserr.length
      k = { h with imp := {}, pc := h.tvec, tpc := h.pc, tst := k.tst } ∧
      fld k.tst 0 4 = (if h.imp.twin then 7 else if h.imp.twintmo then 8 else 4) ∧ k.tst.getLsbD 4 = true ∧ k.tst.getLsbD 5 = true ∧
      (1 < count → k.tst.getLsbD 6 = true) ∧
      (h.imp.twin = false → h.imp.twintmo = false → ∀ a l, h.imp.buserr = a :: l → t.reg (rETfa n) = BitVec.ofNat 32 (a.toNat + 4 * 2 ^ 24)) ∧
      sameThreads s t n ∧ t = { s with threads := t.threads, regs := t.regs })

/-! ### Loads, stores and their answers -/

/-- R163, R170, R204, R220: a load of a scratchpad address that meets no store of the buffer asks the address's bank, leaves a result to come
one instruction later, post-modifies its index unit where its form says so, and touches no memory. The bank is A[8:4]; a strict
thread's lane is 0–7, an elastic one's 8–15 (R348, R352); behind a full lane the request waits in the engine's crossing queue (R353).
R170: where the youngest store-buffer entry that meets a load holds all its bytes, the entry's bytes are the result, and nothing is
sent.
The model's own choices are in notes/assumptions/13.md. -/
def Obligations.LoadsAskTheBankOrTakeTheYoungestStore : Prop :=
  (∀ (s : State) (i : Iss) (sz : Size) (sx : Bool) (rd : Reg) (f : AddrForm) (d : Word), s.issues i false → loadOk sz sx rd = true →
    let h := s.thr i.t
    h.twin = false → h.sbuf = [] → h.held = [] → s.xqueue (i.t.val / 16) = [] →
    let asked := fun (a : Addr) (post : Thread) (t : State) =>
      let bank := a.toNat / 16 % 32
      let slot := i.t.val / 16 + (if h.cls = .strict then 0 else 8)
      (∃ e ∈ (t.thr i.t).defer, e.addr = a ∧ e.size = sz ∧ e.sx = sx ∧ e.wait = 1 ∧ e.st = .waiting ∧ e.atom = none ∧
        e.dests = (if sz = .b64 then [(rd.val, false), (rd.val + 1, true)] else [(rd.val, false)])) ∧
      (if (s.lane bank slot).length < 4 then t.lane bank slot = s.lane bank slot ++ [.load i.t a sz]
        else t.lane bank slot = s.lane bank slot ∧ t.xqueue (i.t.val / 16) = [(bank, slot, .load i.t a sz)]) ∧
      (t.thr i.t).pc = nextPc s i ∧ regsKept s t i (fun _ => False) ∧ threadKeeps post (t.thr i.t) ∧ sameThreads s t i.t ∧
      sameBytes s t (fun _ => False)
    (let a := formAddr f h
     a.toNat < s.spLimit → a.toNat % sizeBytes sz = 0 → s.wpHits i.t a (sizeBytes sz) true false = [] →
      answers (.ld i sz sx rd f) s (asked a (formPost f h))) ∧
    (let a := h.pc + d.setWidth 24
     a.toNat < s.spLimit → a.toNat % sizeBytes sz = 0 → s.wpHits i.t a (sizeBytes sz) true false = [] →
      answers (.ldpc i sz sx rd d) s (asked a h))) ∧
  (∀ (s : State) (i : Iss) (rd : Reg) (f : AddrForm) (e : StoreEntry) (l : List StoreEntry), s.issues i true →
    let h := s.thr i.t
    let a := formAddr f h
    h.sbuf = l ++ [e] → h.held = [] → e.addr = a → e.size = .b32 → a.toNat % 4 = 0 → s.wpHits i.t a 4 true false = [] →
    answers (.ld i .b32 false rd f) s fun t =>
      (∃ d ∈ (t.thr i.t).defer, d.dests = [(rd.val, false)] ∧ d.wait = 1 ∧ d.st = .ready ((e.data.setWidth 32).setWidth 64)) ∧
      regsKept s t i (fun _ => False) ∧ t.sp = s.sp ∧ sameBytes s t (fun _ => False))

/-- R169, R171, R204, R220: a store to the scratchpad enters the store buffer and asks the address's bank; an NT store with an empty
buffer asks the bank directly; FENCE holds while the buffer is not empty. None of them touches memory or a g register when it
issues.
R203, R223: an ATOM of a scratchpad word asks the address's bank with its operation, operand and, for CAS, the value that rd held; the
old word comes one instruction later.
The model's own choices are in notes/assumptions/50.md. -/
def Obligations.StoresAndAtomsAskTheBank : Prop :=
  (∀ (s : State) (i : Iss) (sz : Size) (rs : Reg) (f : AddrForm), s.issues i true → pairsOk (decide (sz = .b64)) [rs] = true →
    let h := s.thr i.t
    let a := formAddr f h
    let bank := a.toNat / 16 % 32
    let slot := i.t.val / 16 + (if h.cls = .strict then 0 else 8)
    let data : BitVec 64 := match sz with
      | .b8 => (h.rg rs &&& 0xFF#32).setWidth 64
      | .b16 => (h.rg rs &&& 0xFFFF#32).setWidth 64
      | .b32 => (h.rg rs).setWidth 64
      | .b64 => h.rpair rs
    let e : StoreEntry := { addr := a, size := sz, data := data }
    h.held = [] → s.xqueue (i.t.val / 16) = [] → (s.lane bank slot).length < 4 →
    let rest := fun (t : State) => (t.thr i.t).pc = nextPc s i ∧ regsKept s t i (fun _ => False) ∧ sameThreads s t i.t ∧
      sameBytes s t (fun _ => False)
    (h.twin = false → a.toNat < s.spLimit → a.toNat % sizeBytes sz = 0 → s.wpHits i.t a (sizeBytes sz) false true = [] →
      (h.sbuf.length < 4 → answers (.st i sz false rs f) s fun t =>
        t.lane bank slot = s.lane bank slot ++ [.store i.t e false] ∧
        threadKeeps { formPost f h with sbuf := h.sbuf ++ [e] } (t.thr i.t) ∧ rest t) ∧
      (h.sbuf = [] → answers (.st i sz true rs f) s fun t =>
        t.lane bank slot = s.lane bank slot ++ [.store i.t e true] ∧ threadKeeps (formPost f h) (t.thr i.t) ∧ rest t)) ∧
    (h.sbuf = [] → answers (.fence i) s fun t => acted s t i (nextPc s i) id) ∧
    (h.sbuf ≠ [] → answers (.fence i) s fun t =>
      acted s t i (nextPc s i) (fun k => { k with held := [{ op := .fence, pc := h.pc }] }))) ∧
  (∀ (s : State) (i : Iss) (rs rd : Reg) (f : AddrForm), s.issues i true →
    let h := s.thr i.t
    let a := formAddr f h
    let bank := a.toNat / 16 % 32
    let slot := i.t.val / 16 + (if h.cls = .strict then 0 else 8)
    h.twin = false → h.sbuf = [] → h.held = [] → s.xqueue (i.t.val / 16) = [] → (s.lane bank slot).length < 4 →
    a.toNat < s.spLimit → a.toNat % 4 = 0 → s.wpHits i.t a 4 true true = [] →
    ∀ p ∈ [(Instr.atomSwap i rs rd f, AtomOp.swap), (.atomAdd i rs rd f, .add), (.atomAnd i rs rd f, .and), (.atomOr i rs rd f, .or),
        (.atomXor i rs rd f, .xor), (.atomMinu i rs rd f, .minu), (.atomMaxu i rs rd f, .maxu), (.atomCas i rs rd f, .cas)],
      answers p.1 s fun t =>
        (∃ e ∈ (t.thr i.t).defer, e.addr = a ∧ e.dests = [(rd.val, false)] ∧ e.wait = 1 ∧ e.st = .waiting ∧
          e.atom = some (p.2, h.rg rs, h.rg rd)) ∧
        t.lane bank slot = s.lane bank slot ++ [.atom i.t a p.2 (h.rg rs) (h.rg rd)] ∧
        (t.thr i.t).pc = nextPc s i ∧ regsKept s t i (fun _ => False) ∧ threadKeeps (formPost f h) (t.thr i.t) ∧
        sameThreads s t i.t ∧ sameBytes s t (fun _ => False))

/-- R203, R351, R360–R362: the bank's grant of the only request waiting at a bank, on a word that reads clean: a load's bytes are on their
way to its result, a store writes its bytes and no other, an ATOM writes the new word of R203 and sends the old one. The bytes lie where
the retire table puts the address (R377). A load from the service ROM is granted in the same way (R357).
The model's own choices are in notes/assumptions/9.md. -/
def Obligations.BankGrantPerformsTheAccess : Prop :=
  ∀ (s : State) (bank : Fin 36) (slot : Fin 16) (n : Tid) (a : Addr) (w : Nat), s.mode = .run → w ≤ 8 →
    (∀ k < 18, k ≠ slot.val → s.lane bank k = []) → s.xqueue (slot % 8) = [] → (s.thr n).twin = false →
    let p := s.spAddr a.toNat
    (∀ sz, s.lane bank slot = [.load n a sz] → 0x500000 ≤ a.toNat → a.toNat < 0x540000 → a.toNat % sizeBytes sz = 0 →
      (∃ d, (s.thr n).defer = [d] ∧ d.st = .waiting ∧ d.addr = a ∧ d.size = sz ∧ d.atom = none ∧ d.sx = false ∧ d.held = false) →
      answers (.spAccessGrant bank [] w) s fun t => sameBytes s t (fun _ => False) ∧ t.lane bank slot = [] ∧
        ∃ d v, (t.thr n).defer = [d] ∧ d.st = .flight v ∧ v.toNat = State.romLE a.toNat (sizeBytes sz)) ∧
    (s.spPoisoned (a.toNat / 16) = false → s.sp.under = none → a.toNat < s.spLimit →
      (∀ sz, s.lane bank slot = [.load n a sz] → a.toNat % sizeBytes sz = 0 →
        (∃ d, (s.thr n).defer = [d] ∧ d.st = .waiting ∧ d.addr = a ∧ d.size = sz ∧ d.atom = none ∧ d.sx = false ∧ d.held = false) →
        answers (.spAccessGrant bank [] w) s fun t => sameBytes s t (fun _ => False) ∧ t.lane bank slot = [] ∧
          ∃ d v, (t.thr n).defer = [d] ∧ d.st = .flight v ∧ v.toNat = s.readLE p (sizeBytes sz)) ∧
      (∀ e, s.lane bank slot = [.store n e false] → e.addr = a → a.toNat % sizeBytes e.size = 0 →
        (s.thr n).sbuf = [e] → e.grant = .pending →
        answers (.spAccessGrant bank [] w) s fun t => t.lane bank slot = [] ∧ (t.thr n).sbuf = [{ e with grant := .granted }] ∧
          (∀ k < sizeBytes e.size, t.byte (p + k) = (e.data >>> (8 * k)).setWidth 8) ∧
          sameBytes s t (fun x => p ≤ x ∧ x < p + sizeBytes e.size)) ∧
      (∀ op rs cmp, s.lane bank slot = [.atom n a op rs cmp] → a.toNat % 4 = 0 →
        (∃ d, (s.thr n).defer = [d] ∧ d.st = .waiting ∧ d.addr = a ∧ d.size = .b32 ∧ d.atom = some (op, rs, cmp) ∧ d.held = false) →
        answers (.spAccessGrant bank [] w) s fun t => t.lane bank slot = [] ∧
          let old := BitVec.ofNat 32 (s.readLE p 4)
          (∃ d, (t.thr n).defer = [d] ∧ d.st = .flight (old.setWidth 64)) ∧
          BitVec.ofNat 32 (t.readLE p 4) = (match op with
            | .swap => rs
            | .add => old + rs
            | .and => old &&& rs
            | .or => old ||| rs
            | .xor => old ^^^ rs
            | .minu => if old.toNat < rs.toNat then old else rs
            | .maxu => if old.toNat < rs.toNat then rs else old
            | .cas => if old = cmp then rs else old) ∧
          sameBytes s t (fun x => p ≤ x ∧ x < p + 4)))

/-- R155, R163, R167–R169, R171, R178, R182: the answers that reach a thread. A load's data is written when it is due; a refusal writes
nothing and makes a BUSERR pending; a store's grant frees its entry; a late access, a long hold and a failed ROM fetch are marked; and a
wait that its condition ends lets the thread go on.
The model's own choices are in notes/assumptions/51.md. -/
def Obligations.AnswersReachTheThread : Prop :=
  ∀ (s : State) (n : Tid), s.mode ≠ .halted → let h := s.thr n
    let only := fun (k : Thread) (t : State) => t = s.setThr n k
    (∀ d v r, h.defer = [d] → d.st = .flight v → d.dests = [(r, false)] → d.wait = 0 → h.stall = .none → r ≠ 0 →
      answers (.loadDataReturn n) s fun t => (t.thr n).rg r = v.setWidth 32 ∧ (t.thr n).defer = [] ∧
        (∀ q, q ≠ r → (t.thr n).rg q = h.rg q) ∧ sameThreads s t n ∧ t = { s with threads := t.threads }) ∧
    (∀ d v, h.defer = [d] → d.st = .flight v → 0 < d.wait → h.stall = .none → d.chk = none →
      answers (.loadDataReturn n) s (only { h with defer := [{ d with st := .ready v, late := false }] })) ∧
    (∀ d, h.defer = [d] → d.st = .failed → h.stall = .none → d.chk = none →
      answers (.loadDataReturn n) s (only { h with defer := [], imp := { h.imp with buserr := h.imp.buserr ++ [d.addr] } })) ∧
    (∀ e l, h.sbuf = e :: l → e.grant = .granted → h.held = [] → answers (.storeGrant n) s (only { h with sbuf := l })) ∧
    (∀ d, h.defer = [d] → d.st = .waiting → d.late = false → d.held = false → h.stall = .none →
      answers (.lateAccessMark n) s (only { h with stall := .late, defer := [{ d with late := true }] })) ∧
    (h.held ≠ [] → h.stall = .none → answers (.engineHoldStall n) s (only { h with stall := .hold })) ∧
    (0x500000 ≤ h.pc.toNat → h.pc.toNat < 0x540000 → h.stall = .late → h.defer = [] →
      answers (.romFetchReturn n false) s (only { h with stall := .none, fetchLate := false }) ∧
      answers (.romFetchReturn n true) s (only { h with stall := .none, fetchLate := false, romBad := some h.pc })) ∧
    (h.twin = false →
      (h.stall = .yield → answers (.waitRelease n) s (only { h with stall := .none })) ∧
      (∀ m r, h.stall = .waitev m r → h.evp &&& m ≠ 0#8 → r ≠ 0 → answers (.waitRelease n) s fun t =>
        (t.thr n).rg r = (h.evp &&& m).setWidth 32 ∧ (t.thr n).evp = h.evp &&& ~~~ m ∧ (t.thr n).stall = .none ∧
        sameThreads s t n ∧ t = { s with threads := t.threads }) ∧
      (∀ m r, h.stall = .waitt m r → (s.reg (rTmStat m)).getLsbD 0 = true → r ≠ 0 → answers (.waitRelease n) s fun t =>
        (t.thr n).rg r = s.reg (rTmCnt m) ∧ (t.thr n).stall = .none ∧ sameThreads s t n ∧ t = { s with threads := t.threads }) ∧
      (∀ v r, h.stall = .waitd r v → r ≠ 0 → answers (.waitRelease n) s fun t =>
        (t.thr n).rg r = v ∧ (t.thr n).stall = .none ∧ sameThreads s t n ∧ t = { s with threads := t.threads }) ∧
      (∀ g, h.stall = .sleep g → h.evp &&& g.setWidth 8 ≠ 0#8 →
        answers (.waitRelease n) s (only { h with stall := .none, sleepMarked := false })))

/-- R178–R180, R240: BTRD reads the fabric's copy of block time, which never goes back and lags by no more than its bound; records of a
twinned pair that agree are taken; records that differ (but for two stores of one size and value from 0x400000 up, where a program-memory
address counts as an offset; channel operations that differ in port or form), and a record whose partner's is late while the partner is
in no long stall, make a twin fault in both copies.
The model's own choices are in notes/assumptions/47.md and notes/assumptions/49.md. -/
def Obligations.BlockTimeReadAndTwinRecords : Prop :=
  (∀ (s : State) (i : Iss) (rd : Reg), s.mode ≠ .halted → s.issues i true → (s.thr i.t).twin = false →
    answers (.btrd i rd) s fun t =>
      (∃ d ∈ (t.thr i.t).defer, d.dests = [(rd.val, false)] ∧ d.wait = 1 ∧ d.st = .flight (BitVec.ofNat 64 (t.bt.copy % 2 ^ 32))) ∧
      s.bt.copy ≤ t.bt.copy ∧ s.bt.bt.toNat ≤ t.bt.copy + Config.btLagMax ∧
      (s.bt.copy ≤ s.bt.bt.toNat → t.bt.copy ≤ s.bt.bt.toNat) ∧
      (t.thr i.t).pc = nextPc s i ∧ regsKept s t i (fun _ => False) ∧ t.mem = s.mem) ∧
  (∀ (s : State) (p : Fin 64) (x y : TwinRec) (l m : List TwinRec), s.mode ≠ .halted → (s.thr p).twin = true → (s.thr p).recs = x :: l →
    (s.thr (p + 64)).recs = y :: m →
    (∀ o v, x = .chk o v → y = x → answers (.twinRecordMatch p) s fun t =>
      (t.thr p).recs = l ∧ (t.thr (p + 64)).recs = m ∧ t.mem = s.mem ∧ t.regs = s.regs) ∧
    (x ≠ y → x.waits = false → y.waits = false → s.recWaits x = false →
      (∀ a b, x = .chan a → y = .chan b → a.port ≠ b.port ∨ a.form ≠ b.form) → (∀ a b sz v, ¬ (x = .store a sz v ∧ y = .store b sz v ∧ 0x400000 ≤ a.toNat ∧ 0x400000 ≤ b.toNat)) → answers (.twinRecordMatch p) s fun t =>
      (t.thr p).recs = [] ∧ (t.thr (p + 64)).recs = [] ∧ (t.thr p).imp.twin = true ∧ (t.thr (p + 64)).imp.twin = true ∧
      (t.reg (rETwFlt (p / 16))).getLsbD (p % 16) = true ∧ 8 ∈ t.raised)) ∧
  (∀ (s : State) (p : Fin 64) (x : TwinRec) (l : List TwinRec), s.mode ≠ .halted → (s.thr p).twin = true → (s.thr p).recs = x :: l →
    (s.thr (p + 64)).recs = [] →
    if (s.thr (p + 64)).longStall then answers (.twinTimeout p) s fun t => t = s
    else answers (.twinTimeout p) s fun t => (t.thr p).imp.twintmo = true ∧ (t.thr (p + 64)).imp.twintmo = true ∧ (t.thr p).recs = [] ∧
      (t.reg (rETwFlt (p / 16))).getLsbD (p % 16 + 16) = true ∧ 8 ∈ t.raised)

/-! ### Message channels -/

/-- R227–R229, R249, R255: the send forms of a bound send port that need not wait stage, publish or discard words of the port's channel, a
staged word in the pool word at the channel's ring position, and answer OK with the fields of R229 for the status register rd. No other
channel, no g register and no byte of memory changes. -/
def Obligations.SendFormsActOnTheChannel : Prop :=
  ∀ (s : State) (i : Iss) (p : Port) (rd rv gt : Reg), s.issues i true →
    let h := s.thr i.t
    let c := (h.port p).ch
    let ch := s.chan c
    h.twin = false → h.copyB = false → h.sbuf = [] → h.held = [] → (h.port p).bound = true → (h.port p).recv = false →
    (h.port p).abortp = false →
    let reply := fun (last : Bool) (count : Nat) (ch' : Chan) (stored : State) (t : State) =>
      (∃ op, (t.thr i.t).resp = some (op, .status 0 last count none) ∧ op.statReg = rd.val) ∧ (t.thr i.t).chanOut = true ∧
      t.chan c = ch' ∧ (∀ k, k ≠ c → t.chan k = s.chan k) ∧ t.pool = stored.pool ∧ (t.thr i.t).pc = nextPc s i ∧
      regsKept s t i (fun _ => False) ∧ sameThreads s t i.t ∧ sameBytes s t (fun _ => False)
    let ring := max 1 (s.allot c)
    let s1 := s.setPool (s.ringAddr c ch.wr) { v := h.rg rv }
    let s2 := s1.setPool (s.ringAddr c ((ch.wr + 1) % ring)) { v := h.rg (rv + 1) }
    let one := { ch with staged := ch.staged ++ [{ v := h.rg rv }], wr := (ch.wr + 1) % ring }
    let two := { ch with
      staged := ch.staged ++ [{ v := h.rg rv }, { v := h.rg (rv + 1) }], wr := ((ch.wr + 1) % ring + 1) % ring }
    let n := ch.staged.length
    let sent := fun (k : Chan) => { k with msgs := k.msgs ++ [{ words := k.staged, total := k.staged.length }], staged := [] }
    (n + 1 ≤ s.msgMax c → 1 ≤ s.freeWords c →
      answers (.put i false p rd rv gt) s (reply false (n + 1) one s1) ∧
      answers (.tput i false p rd rv) s (reply false (n + 1) one s1) ∧
      (ch.msgs.length < 8 →
        answers (.pute i false p rd rv gt) s (reply true 0 (sent one) s1) ∧
        answers (.tpute i false p rd rv) s (reply true 0 (sent one) s1))) ∧
    (rv.val % 2 = 0 → n + 2 ≤ s.msgMax c → 2 ≤ s.freeWords c →
      answers (.put i true p rd rv gt) s (reply false (n + 2) two s2) ∧
      answers (.tput i true p rd rv) s (reply false (n + 2) two s2) ∧
      (ch.msgs.length < 8 →
        answers (.pute i true p rd rv gt) s (reply true 0 (sent two) s2) ∧
        answers (.tpute i true p rd rv) s (reply true 0 (sent two) s2))) ∧
    (ch.staged ≠ [] → ch.msgs.length < 8 →
      answers (.chEnd i p rd gt) s (reply true n (sent ch) s) ∧ answers (.tend i p rd) s (reply true n (sent ch) s)) ∧
    answers (.abt i p rd) s (reply false n { ch with staged := [], wr := (ch.wr + 64 * ring - n) % ring } s)

/-- R227–R229, R234, R255, R261: the receive forms of a bound receive port that need not wait take, count or discard words of the head
message, and answer OK with the fields of R229; the message is freed with its last word, and at the receiving half of a link pair
its words and one message are then owed as credit. CHS answers with the port status word. -/
def Obligations.ReceiveFormsActOnTheChannel : Prop :=
  ∀ (s : State) (i : Iss) (p : Port) (rd rv gt : Reg) (m : Msg) (r : List Msg), s.issues i true →
    let h := s.thr i.t
    let c := (h.port p).ch
    let ch := s.chan c
    h.twin = false → h.copyB = false → h.sbuf = [] → h.held = [] → (h.port p).bound = true → (h.port p).recv = true → ch.msgs = m :: r →
    let reply := fun (a : ChanAns) (stat data : Nat) (ch' : Chan) (t : State) =>
      (∃ op, (t.thr i.t).resp = some (op, a) ∧ op.statReg = stat ∧ op.dataReg = data) ∧ (t.thr i.t).chanOut = true ∧
      t.chan c = ch' ∧ (∀ k, k ≠ c → t.chan k = s.chan k) ∧ (t.thr i.t).pc = nextPc s i ∧ regsKept s t i (fun _ => False) ∧
      sameThreads s t i.t ∧ sameBytes s t (fun _ => False)
    let freed := if epKind ch.sendEp = 4 then { ch with msgs := r, owedW := ch.owedW + m.total, owedM := ch.owedM + 1 }
      else { ch with msgs := r }
    let left := fun (l : List PWord) => if l = [] then freed else { ch with msgs := { m with words := l } :: r }
    let k := m.words.length
    (∀ w l, m.words = w :: l → w.bad = false →
      answers (.get i false p rd rv gt) s (reply (.status 0 (decide (l = [])) l.length (some (w.v.setWidth 64))) rv rd (left l)) ∧
      answers (.tget i false p rd rv) s (reply (.status 0 (decide (l = [])) l.length (some (w.v.setWidth 64))) rv rd (left l))) ∧
    (∀ w x l, m.words = w :: x :: l → w.bad = false → x.bad = false → rd.val % 2 = 0 →
      answers (.get i true p rd rv gt) s (reply (.status 0 (decide (l = [])) l.length (some (x.v ++ w.v))) rv rd (left l)) ∧
      answers (.tget i true p rd rv) s (reply (.status 0 (decide (l = [])) l.length (some (x.v ++ w.v))) rv rd (left l))) ∧
    answers (.getn i p rd rv gt) s (reply (.status 0 false k (some (BitVec.ofNat 64 k))) rv rd ch) ∧
    answers (.tgetn i p rd rv) s (reply (.status 0 false k (some (BitVec.ofNat 64 k))) rv rd ch) ∧
    answers (.drop i p rd) s (reply (.status 0 false k none) rd 0 freed) ∧
    (∃ w, answers (.chs i p rd) s (reply (.snapshot w) 0 rd ch) ∧ w.toNat % 2 ^ 7 = k % 2 ^ 7 ∧
      (ch.msgs.length < 16 → k < 2 ^ 7 → w.toNat / 2 ^ 8 % 16 = ch.msgs.length ∧ w.getLsbD 24 = true ∧ w.getLsbD 25 = true))

/-- R228, R230, R255, R256: a receive form with no complete message: the try form answers AGAIN and a form whose timeout register holds 0
answers TIMEOUT, without effect; a form without timeout parks, and its thread is in a long stall.
The model's own choices are in notes/assumptions/11.md and notes/assumptions/12.md. -/
def Obligations.BlockedChannelFormsWaitOrAnswer : Prop :=
  ∀ (s : State) (i : Iss) (p : Port) (rd rv gt : Reg), s.issues i true →
    let h := s.thr i.t
    let c := (h.port p).ch
    h.twin = false → h.copyB = false → h.sbuf = [] → h.held = [] → (h.port p).bound = true → (h.port p).recv = true →
    (s.chan c).msgs = [] →
    let kept := fun (t : State) => t.chans = s.chans ∧ t.mem = s.mem ∧ regsKept s t i (fun _ => False) ∧ sameThreads s t i.t
    (answers (.tget i false p rd rv) s fun t => kept t ∧ ∃ op, (t.thr i.t).resp = some (op, .status 1 false 0 none)) ∧
    (gt.val ≠ 0 → h.rg gt = 0#32 → rv.val ≠ 0 → answers (.get i false p rd rv gt) s fun t =>
      kept t ∧ ∃ op, (t.thr i.t).resp = some (op, .status 2 false 0 none)) ∧
    (gt.val = 0 → answers (.get i false p rd rv gt) s fun t =>
      kept t ∧ (t.thr i.t).stall = .chan ∧ (t.thr i.t).resp = h.resp ∧
      ∃ q, (t.thr i.t).park = some q ∧ q.stamp = s.stamp + 1 ∧ q.op.timeout = none ∧ q.op.port = p.val)

/-- R229, R164, R233, R256: the answer of a channel operation reaches its thread. A status goes to the status register, data to the data
register, and the long stall ends; a channel error is a precise CHANERR trap at the operation, which is then
no counted issue. A parked operation that a message
now lets complete completes; one that was aborted or broken, or whose timeout expires while it still cannot, ends so.
That a killed operation counts as no issue is the model's own choice, notes/assumptions/10.md. -/
def Obligations.ChannelAnswersReachTheThread : Prop :=
  ∀ (s : State) (n : Tid) (op : ChanOp), s.mode ≠ .halted → let h := s.thr n
    let word := fun (code : Nat) (last : Bool) (count : Nat) => BitVec.ofNat 32 (code + (if last then 16 else 0) + count % 64 * 256)
    (∀ code last count, h.resp = some (op, .status code last count none) → op.statReg ≠ 0 →
      answers (.channelResponse n) s fun t => (t.thr n).rg op.statReg = word code last count ∧ (t.thr n).resp = none ∧
        (t.thr n).chanOut = false ∧ (t.thr n).stall ≠ .chan ∧ (∀ r, r ≠ op.statReg → (t.thr n).rg r = h.rg r) ∧
        sameThreads s t n ∧ t = { s with threads := t.threads }) ∧
    (∀ last count v, h.resp = some (op, .status 0 last count (some v)) → op.wide = false → op.statReg ≠ 0 → op.dataReg ≠ 0 →
      op.statReg ≠ op.dataReg →
      answers (.channelResponse n) s fun t => (t.thr n).rg op.statReg = word 0 last count ∧ (t.thr n).rg op.dataReg = v.setWidth 32 ∧
        (t.thr n).resp = none ∧ (∀ r, r ≠ op.statReg → r ≠ op.dataReg → (t.thr n).rg r = h.rg r) ∧ sameThreads s t n) ∧
    (∀ kind ch, h.resp = some (op, .error kind ch) → h.inTrap = false → kind < 16 → ch < 4096 →
      answers (.channelResponse n) s fun t => (t.thr n).pc = h.tvec ∧ (t.thr n).tpc = op.pc ∧ fld (t.thr n).tst 0 4 = 6 ∧
        t.reg (rETfa n) = BitVec.ofNat 32 (kind * 2 ^ 20 + ch + 6 * 2 ^ 24) ∧ (∀ r, (t.thr n).rg r = h.rg r) ∧
        (s.reg (rEIcnt n) ≠ 0#32 → t.reg (rEIcnt n) = s.reg (rEIcnt n) - 1#32) ∧ sameThreads s t n) ∧
    (∀ q, h.park = some q → q.svc = none → h.twin = false → h.copyB = false → 0 < q.op.statReg → q.op.form = .get → q.op.wide = false →
      let b := h.port q.op.port
      b.bound = true → b.recv = true →
      (q.aborted = true → answers (.parkedOpRedecide n) s fun t =>
        (t.thr n).resp = some (q.op, .status 4 false 0 none) ∧ (t.thr n).park = none ∧ t.chans = s.chans) ∧
      (q.aborted = false → (s.chan b.ch).msgs = [] → q.broken = true → answers (.parkedOpRedecide n) s fun t =>
        (t.thr n).resp = some (q.op, .status 3 false 0 none) ∧ (t.thr n).park = none ∧ t.chans = s.chans) ∧
      (q.aborted = false → ∀ m r w l, (s.chan b.ch).msgs = m :: r → m.words = w :: l → w.bad = false →
        answers (.parkedOpRedecide n) s fun t =>
          (t.thr n).resp = some (q.op, .status 0 (decide (l = [])) l.length (some (w.v.setWidth 64))) ∧ (t.thr n).park = none) ∧
      (q.op.timeout ≠ none → (s.chan b.ch).msgs = [] → answers (.channelTimeout n) s fun t =>
        (t.thr n).resp = some (q.op, .status 2 false 0 none) ∧ (t.thr n).park = none ∧ t.chans = s.chans))

/-! ### Timers, block time and event routes -/

/-- R310–R320, R238: what the events of an unlinked timer do. A match sets MATCHF, arms the compare input, pulses EOUT0 and releases every
thread that waits on the timer with the count; with SRC = 0 COUNT has then run up to a CMP above it, with P at 0. A wrap sets WRAPF; a
capture copies COUNT to CAP and sets CAPF, and OVR where CAPF was still 1; a count event is taken, and advances a running timer with
SRC = 1; the compare input takes one word of its channel into CMP.
The model's own choices are in notes/assumptions/18.md. -/
def Obligations.TimerEventsCountCompareAndCapture : Prop :=
  ∀ (s : State) (n : Fin 64), s.mode ≠ .halted → (s.tmr n).hasRec = true → s.tmOdd n = false → s.tmLinked n = false →
    let stat := s.reg (rTmStat n)
    let cnt := s.reg (rTmCnt n)
    let cmp := s.reg (rTmCmp n)
    let ctl := s.reg (rTmCtl n)
    let released := fun (t : State) (v : Word) => ∀ k, t.thr k = (match (s.thr k).stall with
      | .waitt m rd => if m = n.val then { s.thr k with stall := .waitd rd v } else s.thr k
      | _ => s.thr k)
    (s.tmRuns n = true → (cnt = cmp ∧ (s.tmr n).lastE = false ∨ ctl.getLsbD 1 = false ∧ cnt.toNat < cmp.toNat) →
      answers (.timerMatch n) s fun t =>
        t.reg (rTmStat n) = stat ||| 1#32 ∧ t.reg (rTmCnt n) = cmp ∧ (t.tmr n).armed = true ∧ (t.tmr n).lastE = true ∧
        (cnt ≠ cmp → (t.tmr n).p = 0) ∧ t.fires = (s.pulse (128 + 2 * n)).fires ∧ released t cmp ∧
        sameRegs s t (fun a => a = rTmStat n ∨ a = rTmCnt n) ∧ t.mem = s.mem) ∧
    (s.tmRuns n = true → ctl.getLsbD 1 = false → cmp ≠ 0#32 → (cmp.toNat < cnt.toNat ∨ cnt = cmp ∧ (s.tmr n).lastE = true) →
      answers (.timerWrap n) s fun t =>
        t.reg (rTmCnt n) = 0#32 ∧ (t.tmr n).p = 0 ∧ t.reg (rTmStat n) = stat ||| 8#32 ∧ t.fires = (s.pulse (128 + 2 * n + 1)).fires ∧
        sameRegs s t (fun a => a = rTmStat n ∨ a = rTmCnt n) ∧ t.mem = s.mem ∧ t.threads = s.threads) ∧
    ((s.tmr n).capIn = true → s.chanOf false (epWord 3 n 0) = none → answers (.timerCapture n) s fun t =>
      t.reg (rTmCap n) = cnt ∧ t.reg (rTmStat n) = (if stat.getLsbD 1 then stat ||| 6#32 else stat ||| 2#32) ∧
      (t.tmr n).capIn = false ∧ sameRegs s t (fun a => a = rTmStat n ∨ a = rTmCap n) ∧ t.mem = s.mem ∧ t.chans = s.chans) ∧
    (0 < (s.tmr n).held → ctl.getLsbD 1 = false → answers (.timerCountEvent n) s fun t =>
      (t.tmr n).held = (s.tmr n).held - 1 ∧ t.regs = s.regs ∧ t.mem = s.mem) ∧
    (0 < (s.tmr n).held → ctl.getLsbD 1 = true → s.tmRuns n = true → (s.tmr n).p = ctl.toNat / 2 ^ 16 → answers (.timerCountEvent n) s fun t =>
      (t.tmr n).held = (s.tmr n).held - 1 ∧ (t.tmr n).p = 0 ∧ t.reg (rTmCnt n) = cnt + 1#32 ∧
      sameRegs s t (fun a => a = rTmStat n ∨ a = rTmCnt n) ∧ t.mem = s.mem) ∧
    (∀ c m r w l, (s.tmr n).armed = true → s.chanOf true (epWord 3 n 1) = some c → (s.chan c).msgs = m :: r → m.words = w :: l →
      w.bad = false → answers (.timerCompareInput n) s fun t =>
        t.reg (rTmCmp n) = w.v ∧ t.mem = s.mem ∧ (s.tmRuns n = false → (t.tmr n).armed = false ∧ t.threads = s.threads))

/-- R12, R312, R314, R318, R323–R325: accesses to timer registers. A read of TMn_CAP by a thread or the host answers it and clears CAPF, one
by the debugger clears nothing; the host's reads use its pair latch. A write to CMP loads it; a write to CTL changes EN and FRZ_DBG, in
BOOT, RECOVERY and TEST the other fields too; a group start with the key loads PHASE, sets EN and reports itself, a host write that the
timer refuses and one without the key do nothing. -/
def Obligations.TimerRegisterAccesses : Prop :=
  ∀ (s : State) (n : Fin 64) (v : Word), s.mode ≠ .halted → (s.tmr n).hasRec = true → s.tmOdd n = false → s.tmLinked n = false →
    let ctl := s.reg (rTmCtl n)
    let cap := s.reg (rTmCap n)
    let read := fun (t : State) => t.rdata = cap ∧ t.reg (rTmStat n) = s.reg (rTmStat n) &&& ~~~ 2#32 ∧ sameRegs s t (fun a => a = rTmStat n)
    let keep := if s.mode = .run then 9#32 else 0xFFFF000F#32
    let w := (ctl &&& ~~~ keep) ||| (v &&& keep)
    let started := fun (t : State) => t.reg (rTmCnt n) = s.reg (rTmPhase n) ∧ t.reg (rTmCtl n) = ctl ||| 1#32 ∧ (t.tmr n).p = 0 ∧
      (t.reg rTmGstat).getLsbD 1 = true
    (∀ m wide, (∀ x y, m ≠ .host x y) → answers (.tmnCapRead n m wide) s fun t =>
      t.rdata = cap ∧ (m = .debugger → t.regs = s.regs) ∧ (m ≠ .debugger → wide = false → read t)) ∧
    (∀ x y wide, n.val % 2 = 0 → answers (.tmnCapRead n (.host x y) wide) s fun t =>
      read t ∧ t.pairLatch = some (rTmCap (n + 1), s.reg (rTmCap (n + 1)))) ∧
    (∀ x y wide, n.val % 2 = 1 → (∀ u, s.pairLatch ≠ some (rTmCap n, u)) → answers (.tmnCapRead n (.host x y) wide) s fun t =>
      read t ∧ t.pairLatch = s.pairLatch) ∧
    (∀ x y wide u, n.val % 2 = 1 → s.pairLatch = some (rTmCap n, u) → answers (.tmnCapRead n (.host x y) wide) s fun t =>
      t.rdata = u ∧ t.pairLatch = none) ∧
    (answers (.tmnCmpWrite n v) s fun t => t.reg (rTmCmp n) = v ∧ sameRegs s t (fun a => a = rTmCmp n ∨ a = rTmStat n) ∧
      (s.tmRuns n = false → sameRegs s t (fun a => a = rTmCmp n) ∧ t.fires = s.fires)) ∧
    (answers (.tmnCtlWrite n v) s fun t =>
      t.reg (rTmCtl n) = (if n.val % 2 = 1 then w &&& ~~~ 4#32 else w) ∧
      sameRegs s t (fun a => a = rTmCtl n ∨ a = rTmStat n) ∧
      (s.mode ≠ .run ∨ s.reg (rTmCnt n) ≠ s.reg (rTmCmp n) ∨ (s.tmr n).lastE = true ∨ v.getLsbD 0 = false →
        sameRegs s t (fun a => a = rTmCtl n) ∧ t.fires = s.fires)) ∧
    (s.gsel = [n.val] → s.reg (rTmCmp n) ≠ s.reg (rTmPhase n) →
      answers (.tmGstart .debugger 0x6A51#16) s started ∧
      (∀ x : Tid, s.managed x (s.tmr n).stand = true → answers (.tmGstart (.thread x) 0x6A51#16) s started) ∧
      (∀ x y, s.standAdmits (s.tmr n).stand x y = true → answers (.tmGstart (.host x y) 0x6A51#16) s started) ∧
      (∀ x y, s.standAdmits (s.tmr n).stand x y = false → answers (.tmGstart (.host x y) 0x6A51#16) s (fun t => t = s))) ∧
    (∀ m key, key ≠ 0x6A51#16 → answers (.tmGstart m key) s fun t => t = s)

/-- R328, R330, R331, R334: block time. A PPS edge captures BT as counted up to it; in MODE 1 with NOM other than 0 a first sample steps
the canopy offset by a phase error in (−NOM/2, NOM/2]; loss of reference sets HOLD and loads ADJ from FRQ; OFS and ADJ can be written in
MODE 0 only, ADJ clamped.
The model's own choices are in notes/assumptions/19.md and notes/assumptions/21.md. -/
def Obligations.BlockTimeDiscipline : Prop :=
  ∀ (s : State) (cycles : Nat) (v : Word), s.mode ≠ .halted →
    let mode : Nat := (s.reg rBtDisc).toNat % 4
    let T := s.bt.bt.toNat * 2 ^ 32 + s.bt.frac.toNat + cycles * ((2 ^ 32 : Int) + (s.reg rBtAdj).toInt).toNat
    let cap : BitVec 64 := if s.bt.on then BitVec.ofNat 64 (T / 2 ^ 32) else s.bt.bt
    let nom : Nat := (s.reg rBtNom).toNat % 2 ^ 28
    (mode ≠ 1 → answers (.ppsEdge cycles) s fun t =>
      t.reg rBtPpsCapLo = cap.setWidth 32 ∧ t.reg rBtPpsCapHi = (cap >>> 32).setWidth 32 ∧ t.bt.bt = cap ∧ t.bt.ofs = s.bt.ofs ∧
      t.fires = (s.pulse 257).fires ∧ sameRegs s t (fun a => a = rBtPpsCapLo ∨ a = rBtPpsCapHi) ∧ t.mem = s.mem) ∧
    (mode = 1 → 0 < nom → s.bt.prev = none → answers (.ppsEdge cycles) s fun t =>
      let p : Int := (s.bt.ofs - t.bt.ofs).toInt
      2 * p ≤ nom ∧ -(nom : Int) < 2 * p ∧ (nom : Int) ∣ (((cap + s.bt.ofs).toNat : Int) - p) ∧
      t.bt.prev = some cap ∧ t.bt.first = false ∧ t.bt.hold = false) ∧
    (mode = 1 ∨ mode = 2 → s.bt.hold = false → answers .btHoldover s fun t =>
      t.bt = { s.bt with hold := true } ∧ t.reg rBtAdj = s.reg rBtFrq ∧ t.fires = (s.pulse 266).fires ∧
      sameRegs s t (fun a => a = rBtAdj)) ∧
    (mode = 0 → answers (.btOfshiWrite v) s (fun t => t = { s with bt := { s.bt with ofs := v ++ s.bt.ofsLo } }) ∧
      answers (.btAdjWrite v) s (fun t => (t.reg rBtAdj).toInt = max (-858993) (min 858993 v.toInt) ∧ sameRegs s t (fun a => a = rBtAdj))) ∧
    (mode ≠ 0 → answers (.btOfshiWrite v) s (fun t => t = s.rset rBtStat 4) ∧ answers (.btAdjWrite v) s (fun t => t = s.rset rBtStat 4))

/-- R237, R338, R341–R345, R29: event routes. A firing is flagged and counted, once for the pulses of different producers that one cycle
merges; an open route whose consumer is free sends one delivery, and a firing that meets a busy consumer is dropped and counted; a
delivery to a thread's input sets its latch; a consumer that holds nothing frees its busy view; route flags are cleared by writing 1.
EV_FIRE fires a route in BOOT, RECOVERY and TEST; in RUN and HALTED, with a wrong key and for a route with no record it sets FIREREF
alone; a master that is not admitted, and the host in BOOT, changes nothing. -/
def Obligations.EventRoutesFireAndDeliver : Prop :=
  (∀ (s : State) (r : Fin 256) (more : Fin 272) (v : Word), s.mode ≠ .halted →
    let stat := s.reg (rEvStat r)
    (∀ q k, (r.val, q) ∈ s.fires → s.routeRec r = true → s.consumer r = some k → k < 1280 → s.routeOpen r = true → s.consumerBusy k = false →
      answers (.routeFire ⟨r, more⟩) s fun t => t.reg (rEvStat r) = stat ||| 1#32 ∧
        (t.reg (rEvCnt r)).toNat % 2 ^ 16 = min (2 ^ 16 - 1) ((s.reg (rEvCnt r)).toNat % 2 ^ 16 + 1) ∧ t.delivs = s.delivs ++ [k] ∧
        t.view k = s.view k + 1 ∧ t.fires = takePulses r (more + 1) [] s.fires ∧ t.fires.length < s.fires.length ∧
        sameRegs s t (fun a => a = rEvStat r ∨ a = rEvCnt r)) ∧
    (∀ q k, (r.val, q) ∈ s.fires → s.routeRec r = true → s.consumer r = some k → s.routeOpen r = true → s.consumerBusy k = true →
      answers (.routeFire ⟨r, more⟩) s fun t => t.reg (rEvStat r) = stat ||| 3#32 ∧ t.delivs = s.delivs ∧ t.busyV = s.busyV ∧
        (t.reg (rEvCnt r)).toNat / 2 ^ 16 = min (2 ^ 16 - 1) ((s.reg (rEvCnt r)).toNat / 2 ^ 16 + 1)) ∧
    (∀ (n : Tid) (j : Fin 8) (h : 8 * n.val + j.val < 1281), 8 * n.val + j.val ∈ s.delivs → (s.thr n).twin = false →
      answers (.eventDelivery ⟨8 * n.val + j.val, h⟩) s fun t => (t.thr n).evp.getLsbD j = true ∧
        (∀ q : Nat, q < 8 → q ≠ j.val → (t.thr n).evp.getLsbD q = (s.thr n).evp.getLsbD q) ∧ sameThreads s t n ∧ t.regs = s.regs) ∧
    (∀ (k : Fin 1281), k.val < 1280 → s.consumerHolds k = 0 → k.val ∉ s.delivs → answers (.busyViewClear k) s fun t =>
      t.view k = 0 ∧ (∀ q, q ≠ k.val → t.view q = s.view q) ∧ t.regs = s.regs) ∧
    (∀ m, s.routeWriter m r = true →
      answers (.evStatWrite m false r v) s (fun t => t.reg (rEvStat r) = stat &&& ~~~ (v &&& 7#32) ∧ sameRegs s t (fun a => a = rEvStat r))) ∧
    (∀ m, s.attnWriter m = true →
      answers (.evStatWrite m true r v) s (fun t =>
        t.reg rEvHattn = s.reg rEvHattn &&& ~~~ (v &&& 1#32) ∧ sameRegs s t (fun a => a = rEvHattn)))) ∧
  (∀ (s : State) (r : Fin 256) (m : Master) (key : BitVec 16),
    let taken := match m with
      | .host sec priv => sec && priv && decide (s.mode ≠ .boot)
      | .link sec priv => sec && priv
      | _ => true
    (taken = false → answers (.evFire m key r) s fun t => t = s) ∧
    (taken = true → (s.mode = .run ∨ s.mode = .halted ∨ key ≠ 0x3E5F#16 ∨ s.routeRec r = false) →
      answers (.evFire m key r) s fun t => t = s.rset rEvNStat 0) ∧
    (∀ k, taken = true → s.mode ≠ .run → s.mode ≠ .halted → s.routeRec r = true → s.consumer r = some k → k < 1280 →
      s.routeOpen r = true → s.consumerBusy k = false →
      answers (.evFire m 0x3E5F#16 r) s fun t => t.reg (rEvStat r) = s.reg (rEvStat r) ||| 1#32 ∧ t.delivs = s.delivs ++ [k]))

/-- R249, R259, R260: a mailbox access by a master that its channel's attribute check admits does what the thread form does, with its
outcome in MC_HSTATk; the word taken is the answer. A debug-port read of MC_HGETk takes nothing. -/
def Obligations.MailboxAccessesActOnTheChannel : Prop :=
  ∀ (s : State) (h : Master) (k : Fin 16) (c : Nat) (v : Word), s.mode ≠ .halted → s.mailboxAdmits h k = true →
    let ch := s.chan c
    let n := ch.staged.length
    let ring := max 1 (s.allot c)
    let did := fun (last : Bool) (count : Nat) (ch' : Chan) (t : State) =>
      t.reg (rMcHstat k) = BitVec.ofNat 32 ((if last then 16 else 0) + count % 64 * 256) ∧ t.chan c = ch' ∧
      (∀ q, q ≠ c → t.chan q = s.chan q) ∧ sameRegs s t (fun a => a = rMcHstat k ∨ a = rMcPoolErr) ∧ t.mem = s.mem ∧
      t.threads = s.threads
    let sent := fun (x : Chan) => { x with msgs := x.msgs ++ [{ words := x.staged, total := x.staged.length }], staged := [] }
    let one := { ch with staged := ch.staged ++ [{ v := v }], wr := (ch.wr + 1) % ring }
    let stored := fun (t : State) => t.pool = (s.setPool (s.ringAddr c ch.wr) { v := v }).pool
    (s.mailbox k = some (c, false) →
      (n + 1 ≤ s.msgMax c → 1 ≤ s.freeWords c →
        answers (.mcHput h k v) s (fun t => did false (n + 1) one t ∧ stored t) ∧
        (ch.msgs.length < 8 → answers (.mcHpute h k v) s (fun t => did true 0 (sent one) t ∧ stored t))) ∧
      (ch.staged ≠ [] → ch.msgs.length < 8 → answers (.mcHstatEnd h k) s (did true n (sent ch))) ∧
      answers (.mcHstatAbt h k) s (did false n { ch with staged := [], wr := (ch.wr + 64 * ring - n) % ring })) ∧
    (∀ m r, s.mailbox k = some (c, true) → ch.msgs = m :: r → epKind ch.sendEp ≠ 4 →
      (∀ w l, m.words = w :: l → w.bad = false →
        (h ≠ .debugger → answers (.mcHget h k) s fun t => t.rdata = w.v ∧
          did (decide (l = [])) l.length { ch with msgs := if l = [] then r else { m with words := l } :: r } t) ∧
        answers (.mcHget .debugger k) s (fun t => t = { s with rdata := w.v })) ∧
      answers (.mcHstatDrop h k) s (did false m.words.length { ch with msgs := r }))

/-- R249, R250, R257, R258: the pool scrubber corrects and counts the words of a row that are in error and marks an uncorrectable word; a
unit endpoint moves one word at a time between its channel and a shift engine's queue.
The model's own choices are in notes/assumptions/22.md. -/
def Obligations.PoolScrubAndUnitEndpoints : Prop :=
  ∀ (s : State) (row c : Fin 4096), s.mode ≠ .halted →
    let ch := s.chan c
    let sound := fun (j : Nat) => (s.poolWord (4 * row.val + j)).soft = false
    let up := fun (t : State) => (t.reg rMcPoolErr).toNat % 2 ^ 16 = min (2 ^ 16 - 1) ((s.reg rMcPoolErr).toNat % 2 ^ 16 + 1) ∧
      sameRegs s t (fun a => a = rMcPoolErr) ∧ t.chans = s.chans
    ((∀ j < 4, sound j) →
      answers (.poolScrub row .clean) s (fun t => t = s) ∧ answers (.poolScrub row .corrected) s up) ∧
    (¬ sound 0 → (∀ j, 1 ≤ j → j < 4 → sound j) → answers (.poolScrub row .clean) s fun t =>
      up t ∧ t.poolWord (4 * row.val) = { s.poolWord (4 * row.val) with soft := false }) ∧
    (∀ m r w l, ch.msgs = m :: r → m.words = w :: l → s.liveAddr c 0 / 4 = row.val →
      (answers (.poolScrub row (.bad c 0)) s fun t =>
        t.chan c = { ch with msgs := { m with words := { w with bad := true } :: l } :: r } ∧ (∀ q, q ≠ c.val → t.chan q = s.chan q)) ∧
      answers (.poolScrub row (.upset c 0)) s fun t => (t.poolWord (s.liveAddr c 0)).soft = true ∧ t.chans = s.chans) ∧
    (s.mode = .run → ch.hasRec = true →
      (∀ m r w l, epKind ch.recvEp = 2 → ch.msgs = m :: r → m.words = w :: l → w.bad = false →
        (s.se (epUnit ch.recvEp)).txq.length < s.txCap (epUnit ch.recvEp) → answers (.unitEndpointTransfer c true) s fun t =>
          (t.se (epUnit ch.recvEp)).txq = (s.se (epUnit ch.recvEp)).txq ++ [w.v] ∧
          (t.chan c).msgs = (if l = [] then r else { m with words := l } :: r) ∧ t.mem = s.mem ∧ t.threads = s.threads) ∧
      (∀ w l, epKind ch.sendEp = 2 → (s.se (epUnit ch.sendEp)).rxq = w :: l → 1 ≤ s.freeWords c → ch.msgs.length < 8 →
        answers (.unitEndpointTransfer c false) s fun t =>
          (t.se (epUnit ch.sendEp)).rxq = l ∧ t.mem = s.mem ∧ t.threads = s.threads ∧ t.poolWord (s.ringAddr c ch.wr) = { v := w } ∧
          (ch.staged.length + 1 < epSub ch.sendEp / 8 + 1 → (t.chan c).staged = ch.staged ++ [{ v := w }]) ∧
          (epSub ch.sendEp / 8 + 1 ≤ ch.staged.length + 1 → (t.chan c).staged = [] ∧
            (t.chan c).msgs = ch.msgs ++ [{ words := ch.staged ++ [{ v := w }], total := ch.staged.length + 1 }])))

/-- R265–R270: a snapshot is taken in RUN only; a waiter whose partner can never act, found in two snapshots with one tag, is reported and
the policy of its stand is applied: under BREAK its operation is to complete with BROKEN; one found for the first time is not. -/
def Obligations.DeadlockDetectorReportsConfirmedWaiters : Prop :=
  ∀ (s : State) (n : WNode) (p : Parked) (prev : List WGroup), s.mode ≠ .halted → n.held = false → n.partners = [.never] → n.t < 128 →
    (s.thr n.t).park = some p → p.stamp = n.tag → p.marked = false → (s.thr n.t).stand < 16 →
    let st := (s.thr n.t).stand
    let s' := { s with det := { s.det with busy := true, snap := [n], prev := prev } }
    (s.mode = .run → answers .deadlockSnapshot s fun t =>
      t = { s with det := { s.det with busy := true, snap := (List.range 128).filterMap s.node } }) ∧
    (s.mode ≠ .run → answers .deadlockSnapshot s fun t => t = s) ∧
    (prev = [] → answers .deadlockAnalysisEnd s' fun t => t.regs = s.regs ∧ t.threads = s.threads ∧ t.fires = s.fires ∧
      t.det.prev = [{ held := false, members := [(n.t, n.tag)] }] ∧ t.det.busy = false) ∧
    (prev = [{ held := false, members := [(n.t, n.tag)] }] → (s.reg (rStcCfg st)).getLsbD 9 = false →
      (s.reg (rStcCfg st)).toNat % 4 = 1 → answers .deadlockAnalysisEnd s' fun t =>
        (t.reg rMcDlStat).getLsbD 0 = true ∧ fld (t.reg rMcDlStat) 12 7 = n.t ∧ fld (t.reg rMcDlStat) 24 4 = st ∧
        (t.reg rMcDlCnt).toNat % 2 ^ 16 = min (2 ^ 16 - 1) ((s.reg rMcDlCnt).toNat % 2 ^ 16 + 1) ∧
        (t.thr n.t).park = some { p with marked := true, broken := true } ∧ sameThreads s t n.t ∧ t.chans = s.chans ∧
        t.fires = (s.pulse 256).fires ∧ t.det.busy = false)

/-! ### Shift engines -/

/-- R277, R284–R294, R298: the operations of a running shift engine that completes them: registers, queues, the record for its output
lane, the next PC, and the cycles it rests. `side` is the side-set record that the TIMING field names (R285). -/
def Obligations.ShiftEngineOperationsComplete : Prop :=
  ∀ (s : State) (n : Fin 32) (tm : Fin 16) (pins : Word), s.seRuns n = true → (∀ l, (s.se n).latch = some l → l.stall = 0) →
    (s.se n).lane.length < 4 →
    let pc := fld (s.reg (rSePc n)) 0 5
    let side := s.seSide n tm
    let count := s.sePins n
    let ctl := s.reg (rSeCtl n)
    let tsr := s.reg (rSeTsr n)
    let rsr := s.reg (rSeRsr n)
    let pw := fld (s.reg (rSeThr n)) 16 6
    let L := fun (k : Nat) => s.reg (rSeL n k)
    let pin := fun (p : Nat) => decide (p < count) && pins.getLsbD p
    let low := fun (k : Nat) => BitVec.ofNat 32 (2 ^ k - 1)
    let tcnt := fun (t : State) => fld (t.reg (rSeCnt n)) 0 6
    let rcnt := fun (t : State) => fld (t.reg (rSeCnt n)) 8 6
    let ended := fun (op : SeOp) (out : LaneRec) (next : Nat) (t : State) =>
      (t.se n).latch = some { op := op, tm := tm, pc := pc, begun := true, rest := s.seDwell n tm + (match op with | .idle k => k.val | _ => 0) } ∧
      (t.se n).lane = (s.se n).lane ++ (if (out.merge side).any then [out.merge side] else []) ∧
      fld (t.reg (rSePc n)) 0 5 = next ∧ t.mem = s.mem ∧ t.threads = s.threads ∧ t.chans = s.chans
    let on := (pc + 1) % 32
    let taken := fun (cond : Nat) => match cond with
      | 0 => true
      | 1 => pin (fld ctl 21 5)
      | 2 => !pin (fld ctl 21 5)
      | 5 => if ctl.getLsbD 29 then tsr.getLsbD 31 else tsr.getLsbD 0
      | 6 => decide (fld (s.reg (rSePat n)) 0 pw = if ctl.getLsbD 30 then fld rsr 0 pw else fld rsr (32 - pw) pw)
      | _ => (s.se n).txq.isEmpty
    (∀ (c : Fin 8) tgt, c.val ≠ 3 → c.val ≠ 4 → answers (.seBr n c tgt tm pins) s
      (ended (.br c tgt) {} (if taken c then tgt.val else on))) ∧
    (∀ (k : Fin 2) (c : Fin 8) tgt, c.val = 3 + k.val → answers (.seBr n c tgt tm pins) s fun t =>
      ended (.br c tgt) {} (if L k = 0#32 then on else tgt.val) t ∧
      t.reg (rSeL n k) = (if L k = 0#32 then s.reg (rSeLrld n k) else L k - 1#32)) ∧
    (∀ (p : Fin 32), answers (.seWait n (pin p) false p tm pins) s (ended (.wait (pin p) false p) {} on)) ∧
    (∀ clr (m : Fin 32), m.val < 16 → fld (s.reg (rSeEvt n)) 0 4 &&& m.val ≠ 0 → answers (.seWait n clr true m tm pins) s fun t =>
      ended (.wait clr true m) {} on t ∧
      t.reg (rSeEvt n) = if clr then s.reg (rSeEvt n) &&& ~~~ BitVec.ofNat 32 (fld (s.reg (rSeEvt n)) 0 4 &&& m.val) else s.reg (rSeEvt n)) ∧
    (∀ dest (n1 : Fin 32) refill w l, (refill = true → fld (s.reg (rSeThr n)) 0 6 ≤ tcnt s → (s.se n).txq = w :: l) →
      let more := refill && decide (fld (s.reg (rSeThr n)) 0 6 ≤ tcnt s)
      let k := n1.val + 1
      let x := if more then w else tsr
      let bits := (if ctl.getLsbD 29 then x.reverse else x) &&& low k
      answers (.seEmit n dest n1 refill tm) s fun t =>
        ended (.emit dest n1 refill) (if dest.val = 0 then s.seOut n k bits false else if dest.val = 1 then s.seOut n k bits true else {}) on t ∧
        t.reg (rSeTsr n) = (if ctl.getLsbD 29 then x <<< k else x >>> k) ∧ tcnt t = min 32 ((if more then 0 else tcnt s) + k) ∧
        t.reg (rSeL n 0) = (if dest.val = 2 then bits else L 0) ∧ (t.se n).txq = if more then l else (s.se n).txq) ∧
    (∀ src (n1 : Fin 32) send, (s.se n).rxq.length < s.rxCap n →
      let k := n1.val + 1
      let bits := (if src.val = 0 then s.seIn n pins else if src.val = 1 then L 0 else if src.val = 2 then 0#32 else 0xFFFFFFFF#32) &&& low k
      let r := if ctl.getLsbD 30 then (rsr <<< k) ||| bits else (rsr >>> k) ||| (bits <<< (32 - k))
      let c := min 32 (rcnt s + k)
      let more := send && decide (fld (s.reg (rSeThr n)) 8 6 ≤ c)
      answers (.seSample n src n1 send tm pins) s fun t => ended (.sample src n1 send) {} on t ∧
        t.reg (rSeRsr n) = (if more then 0#32 else r) ∧ rcnt t = (if more then 0 else c) ∧
        (t.se n).rxq = (s.se n).rxq ++ if more then [r] else []) ∧
    (∀ nb w l, (s.se n).txq = w :: l → answers (.sePull n nb tm) s fun t => ended (.pull nb) {} on t ∧ (t.se n).txq = l ∧
      t.reg (rSeTsr n) = w ∧ t.reg (rSeLastW n) = w ∧ tcnt t = 0) ∧
    ((s.se n).txq = [] → answers (.sePull n true tm) s fun t => ended (.pull true) {} on t ∧ t.reg (rSeTsr n) = s.reg (rSeLastW n) ∧
      tcnt t = 0 ∧ (t.reg (rSeStat n)).getLsbD 8 = true ∧
      (t.reg (rSeQcnt n)).toNat % 2 ^ 16 = min (2 ^ 16 - 1) ((s.reg (rSeQcnt n)).toNat % 2 ^ 16 + 1)) ∧
    (∀ nb keep, ((s.se n).rxq.length < s.rxCap n ∨ nb = true) → answers (.sePush n nb keep tm) s fun t => ended (.push nb keep) {} on t ∧
      (t.se n).rxq = (s.se n).rxq ++ (if (s.se n).rxq.length < s.rxCap n then [rsr] else []) ∧
      t.reg (rSeRsr n) = (if keep then rsr else 0#32) ∧ rcnt t = (if keep then rcnt s else 0) ∧
      ((s.se n).rxq.length < s.rxCap n ∨ (t.reg (rSeStat n)).getLsbD 9 = true ∧
        (t.reg (rSeQcnt n)).toNat / 2 ^ 16 = min (2 ^ 16 - 1) ((s.reg (rSeQcnt n)).toNat / 2 ^ 16 + 1))) ∧
    (∀ oe (v : Fin 128), answers (.seDrive n oe v tm) s (ended (.drive oe v) (s.seOut n 7 (BitVec.ofNat 32 v) oe) on)) ∧
    (∀ v : Fin 128, 32 ≤ count → fld ctl 6 5 ≤ 25 →
      s.seOut n 7 (BitVec.ofNat 32 v) false = { lvMask := 0x7F#32 <<< fld ctl 6 5, lv := BitVec.ofNat 32 v <<< fld ctl 6 5 }) ∧
    (∀ l (v : Fin 128), answers (.seLoadl n l v tm) s fun t => ended (.loadl l v) {} on t ∧
      t.reg (rSeL n 0) = (if l then L 0 else BitVec.ofNat 32 v) ∧ t.reg (rSeL n 1) = (if l then BitVec.ofNat 32 v else L 1)) ∧
    (∀ (dst src : Fin 8) inv rev,
      let x := s.seCopySrc n src pins
      let y := if rev then x.reverse else x
      let z := if inv then ~~~ y else y
      answers (.seCopy n dst src inv rev tm pins) s fun t =>
        ended (.copy dst src inv rev) (if dst.val = 2 then s.seOut n 32 z false else if dst.val = 3 then s.seOut n 32 z true else {})
          (if dst.val = 6 then z.toNat % 32 else on) t ∧
        t.reg (rSeL n 0) = (if dst.val = 0 then z else L 0) ∧ t.reg (rSeL n 1) = (if dst.val = 1 then z else L 1) ∧
        t.reg (rSeTsr n) = (if dst.val = 4 then z else tsr) ∧ t.reg (rSeRsr n) = (if dst.val = 5 then z else rsr) ∧
        t.reg (rSePat n) = (if dst.val = 7 then z else s.reg (rSePat n)) ∧ tcnt t = (if dst.val = 4 then 0 else tcnt s) ∧
        rcnt t = if dst.val = 5 then 0 else rcnt s) ∧
    (∀ out, answers (.seSignal n out tm) s (ended (.signal out) { ev := BitVec.ofNat 4 (2 ^ out.val) } on)) ∧
    (∀ k, answers (.seIdle n k tm) s (ended (.idle k) {} on))

/-- R288, R290, R298–R302: an illegal word stops the engine; an operation that cannot complete stalls with its kind, keeps PC, and
completes when its condition comes; events and register writes act on an assigned engine.
R305, R306: an observation of a calibrated pin adds its weight on the side it lies; one that finds the crossing full is dropped and
counted; a decided move is applied to the pin's tap, in every engine whose group holds the pin, and counted. -/
def Obligations.ShiftEngineStallsEventsWritesAndCalibration : Prop :=
  (∀ (s : State) (n : Fin 32) (tm : Fin 16) (pins : Word), s.mode ≠ .halted → s.seAssigned n = true → s.seLive n = true →
    (s.seRuns n = true → (∀ l, (s.se n).latch = some l → l.stall = 0) → answers (.seIllegal n) s fun t =>
      (t.reg (rSeCtl n)).getLsbD 0 = false ∧ (t.reg (rSeStat n)).getLsbD 11 = true ∧ (t.se n).latch = none ∧
      t.reg (rSePc n) = s.reg (rSePc n) ∧ (t.se n).lane = (s.se n).lane ∧ t.mem = s.mem ∧ t.threads = s.threads) ∧
    (s.seRuns n = true → (∀ l, (s.se n).latch = some l → l.stall = 0) → (s.se n).lane.length < 4 → (s.se n).txq = [] →
      answers (.sePull n false tm) s fun t =>
        (∃ l, (t.se n).latch = some l ∧ l.stall = 3 ∧ l.op = .pull false) ∧ t.regs = s.regs) ∧
    (∀ w l la cycles, s.seRuns n = true → (s.se n).txq = w :: l → (s.se n).lane.length < 4 →
      (s.se n).latch = some la → la.op = .pull false → la.stall = 3 → la.begun = true → answers (.seStallComplete n cycles pins) s fun t =>
        (∃ k, (t.se n).latch = some k ∧ k.stall = 0) ∧ (t.se n).txq = l ∧ t.reg (rSeTsr n) = w ∧
        fld (t.reg (rSePc n)) 0 5 = (fld (s.reg (rSePc n)) 0 5 + 1) % 32) ∧
    (∀ (i : Fin 4), answers (.seEventIn n i) s fun t =>
      t.reg (rSeEvt n) = s.reg (rSeEvt n) ||| BitVec.ofNat 32 (2 ^ i.val) ∧ sameRegs s t (fun a => a = rSeEvt n) ∧ t.ses = s.ses ∧
      t.view (1024 + 4 * n.val + i.val) = max 1 (s.view (1024 + 4 * n.val + i.val)) ∧
      t.delivs = s.delivs.erase (1024 + 4 * n.val + i.val)) ∧
    (∀ en, answers (.senCtlEnWrite n en) s fun t => (t.reg (rSeCtl n)).getLsbD 0 = en ∧
      (∀ b, 0 < b → (t.reg (rSeCtl n)).getLsbD b = (s.reg (rSeCtl n)).getLsbD b) ∧ sameRegs s t (fun a => a = rSeCtl n) ∧ t.ses = s.ses) ∧
    (∀ i w, answers (.senProgWrite n i w) s fun t =>
      t.reg (rSeProg n i) = w.setWidth 32 ∧ sameRegs s t (fun a => a = rSeProg n i) ∧ t.ses = s.ses) ∧
    (∀ p : Fin 32, answers (.senPcWrite n p) s fun t => fld (t.reg (rSePc n)) 0 5 = p.val ∧ t.mem = s.mem ∧ t.threads = s.threads) ∧
    (∀ p : Fin 32, (s.se n).latch = none → s.seRuns n = false → answers (.senPcWrite n p) s fun t =>
      (t.se n).latch = none ∧ sameRegs s t (fun a => a = rSePc n)) ∧
    (∀ (p : Fin 32) la, (s.se n).latch = some la → la.stall ≠ 0 → answers (.senPcWrite n p) s fun t =>
      (t.se n).latch = none ∧ (t.reg (rSeStat n)).getLsbD 10 = true ∧ (t.se n).lane = (s.se n).lane ∧
      (∀ nb, la.op = .pull nb → fld (t.reg (rSeCnt n)) 0 6 = 0) ∧ ∀ nb keep, la.op = .push nb keep → fld (t.reg (rSeCnt n)) 8 6 = 0) ∧
    (∀ l v, answers (.senLWrite n l v) s fun t => t.reg (rSeL n (if l then 1 else 0)) = v ∧
      sameRegs s t (fun a => a = rSeL n (if l then 1 else 0)) ∧ t.ses = s.ses)) ∧
  (∀ (s : State) (n i : Fin 32) (d : Int), s.mode ≠ .halted → (s.reg (rSeTap n i)).getLsbD 30 = true → -32 ≤ d → d ≤ 31 →
    0 ≤ (fld (s.reg (rSeTap n i)) 0 6 : Int) + d → (fld (s.reg (rSeTap n i)) 0 6 : Int) + d ≤ 63 → s.padOe (s.seBase n + i) = false →
    s.seLive n = true →
    let c := s.cal n i
    (c.n < 255 → answers (.calObservation n i d false) s fun t =>
      (t.cal n i).n = c.n + 1 ∧ ((t.cal n i).wlo : Int) = c.wlo + (if d < 0 then 32 + d else 0) ∧
      ((t.cal n i).whi : Int) = c.whi + (if d < 0 then 0 else 32 - d) ∧ (t.cal n i).move = c.move ∧ t.regs = s.regs ∧
      (∀ k, k ≠ 32 * n.val + i.val → Bank.get (fun _ => ({} : Cal)) t.cals k = Bank.get (fun _ => ({} : Cal)) s.cals k)) ∧
    (answers (.calObservation n i d true) s fun t => t.cals = s.cals ∧ sameRegs s t (fun a => a = rSeCalCnt n) ∧
      (t.reg (rSeCalCnt n)).toNat / 2 ^ 16 = min (2 ^ 16 - 1) ((s.reg (rSeCalCnt n)).toNat / 2 ^ 16 + 1)) ∧
    (∀ m, c.move = some m → m < 64 → s.seAssigned n = true → i.val < s.sePins n → (∀ k : Fin 32, s.sePins k ≤ 32) →
      answers (.tapMoveApply n i) s fun t => (t.cal n i).move = none ∧ fld (t.reg (rSeTap n i)) 0 6 = m ∧
      (∀ k j : Fin 32, s.seAssigned k = true → j.val < s.sePins k → s.seBase k + j = s.seBase n + i → fld (t.reg (rSeTap k j)) 0 6 = m) ∧ (t.reg (rSeCalCnt n)).toNat % 2 ^ 16 = min (2 ^ 16 - 1) ((s.reg (rSeCalCnt n)).toNat % 2 ^ 16 + 1) ∧
      sameRegs s t (fun a => (∃ k j : Fin 32, a = rSeTap k j) ∨ a = rSeCalCnt n)))

/-! ### The scratchpad -/

/-- R358, R360: the code corrects a word in which one stored symbol is wrong: the outcome is CORR and the correction is the error. -/
def Obligations.CodeCorrectsOneStoredSymbol : Prop :=
  ∀ (j : Fin 20) (v : Byte), v ≠ 0#8 → decode [(j.val, v)] = (.corr, [(j.val, v)])

/-- R349, R362, R367–R369: a scrub grant moves the bank's pointer and checks the row under it: a clean row changes nothing; a corrected one
is written back right, counted and flagged; an uncorrectable one becomes a poisoned row with data 0; a row under test, of a retired page
or of a bad spare page is passed over. The end of a lap records its time and starts the next; a lap above SP_LAPALARM is flagged, and
its event is sent.
The row numbers are free, notes/assumptions/7.md. -/
def Obligations.ScrubChecksEveryRow : Prop :=
  ∀ (s : State) (b : Fin 32) (row : Fin 8192) (err : WordErr) (us : Word), s.mode = .run → s.rbit rSpCfg 0 = true → s.sp.under = none →
    let p := s.scrubPtr b
    let w := row.val * 32 + b.val
    let moved := fun (t : State) => t.scrubPtr b = p + 1 ∧ (∀ q, q ≠ b.val → t.scrubPtr q = s.scrubPtr q) ∧ t.threads = s.threads ∧
      t.chans = s.chans
    let turn := p < s.rowsN ∧ row.val < s.rowsN ∧ s.bankIdle b = true ∧ s.restoreIn b = false ∧ s.copyIn b = false ∧ s.wclrIn b = false
    (s.physRow b row ≠ p → answers (.scrubGrant b row err) s fun t => t = s) ∧
    (turn → s.physRow b row = p → (s.underTest b p = true ∨ s.scrubSkips (row.val / 8) = true) →
      answers (.scrubGrant b row err) s fun t => moved t ∧ t.mem = s.mem ∧ t.regs = s.regs) ∧
    (turn → s.physRow b row = p → s.underTest b p = false → s.scrubSkips (row.val / 8) = false →
      (s.readErr w err = [] → answers (.scrubGrant b row err) s fun t =>
        moved t ∧ sameBytes s t (fun _ => False) ∧ t.regs = s.regs ∧ t.recd = s.recd) ∧
      (decode (s.readErr w err) = (.corr, s.readErr w err) → answers (.scrubGrant b row err) s fun t =>
        moved t ∧ sameBytes s t (fun _ => False) ∧ ticked (s.reg rSpErrCnt) (t.reg rSpErrCnt) 0 16 ∧
        (t.reg rSpStat).getLsbD 0 = true ∧ sameRegs s t (fun a => a = rSpErrCnt ∨ a = rSpStat ∨ a = rErQlost)) ∧
      ((decode (s.readErr w err)).1 = .uncorr → answers (.scrubGrant b row err) s fun t =>
        moved t ∧ (∀ a, 16 * w ≤ a → a < 16 * w + 16 → t.byte a = 0#8) ∧ sameBytes s t (fun a => 16 * w ≤ a ∧ a < 16 * w + 16) ∧
        t.badAt w = true ∧ ticked (s.reg rSpErrCnt) (t.reg rSpErrCnt) 16 16 ∧ (t.reg rSpStat).getLsbD 1 = true)) ∧
    ((∀ q, q < 32 → s.rowsN ≤ s.scrubPtr q) → answers (.scrubLapEnd us) s fun t => t.reg rSpLapLast = us ∧ t.reg rSpLapNow = 0#32 ∧
      (t.reg rSpLapMax).toNat = max (s.reg rSpLapMax).toNat us.toNat ∧ (∀ q, t.scrubPtr q = 0) ∧ t.sp.lapAlarmed = false ∧ dataKept s t ∧
      sameRegs s t (fun a => a = rSpLapLast ∨ a = rSpLapNow ∨ a = rSpLapMax ∨ a = rErQlost)) ∧
    (s.reg rSpLapAlarm ≠ 0#32 → (s.reg rSpLapAlarm).toNat < us.toNat → s.sp.lapAlarmed = false → answers (.lapAlarm us) s fun t =>
      t.sp = { s.sp with lapAlarmed := true } ∧ (t.reg rSpStat).getLsbD 4 = true ∧ t.reg rSpLapNow = us ∧
      t.fires = (s.pulse 262).fires ∧ dataKept s t)

/-- R366, R370, R372, R373, R375, R377–R380: only a maintenance writer starts and stops the transparent test, clears a word or retires a
page; a wrong key changes nothing but the refusal's flag; a retired page is copied to a spare page, and one retired before from its
spare page, which is then bad; a region's test, a word clear and the copy of a page complete: a row that the march finds failing is
recorded, and the copy carries the words left over to the spare page.
The order of the refusals is the model's own choice, notes/assumptions/78.md. -/
def Obligations.ScratchpadMaintenanceIsKeyed : Prop :=
  ∀ (s : State) (m : Master) (key : BitVec 16) (k8 : Byte) (cmd : Fin 16) (b : Fin 32) (k : Fin 128) (w : Fin 262144)
    (page : Fin 1024), s.mode ≠ .halted →
    let refused := fun (reason : Nat) (t : State) => (t.reg rSpRetStat).getLsbD 2 = true ∧ fld (t.reg rSpRetStat) 4 3 = reason ∧
      sameRegs s t (fun a => a = rSpRetStat ∨ a = rErQlost) ∧ t.sp = s.sp ∧ dataKept s t
    (s.maint m = false →
      answers (.ttStart m key b k) s (fun t => t = s.spRefused m) ∧ answers (.ttStop m key) s (fun t => t = s.spRefused m) ∧
      answers (.spWclr m k8 w) s (fun t => t = s.spRefused m) ∧ answers (.retire m key cmd page) s (fun t => t = s.spRefused m)) ∧
    (s.maint m = true →
      (key ≠ 0x7E57#16 → answers (.ttStart m key b k) s (fun t => t = s.rset rSpStat 6) ∧
        answers (.ttStop m key) s (fun t => t = s.rset rSpStat 6)) ∧
      ((s.sp.ttStep ≠ 0 ∨ s.rowsN / 64 ≤ k.val) → answers (.ttStart m 0x7E57#16 b k) s (fun t => t = s.rset rSpStat 6)) ∧
      (s.sp.ttStep = 0 → k.val < s.rowsN / 64 → s.copyInRegion b k = false → answers (.ttStart m 0x7E57#16 b k) s fun t =>
        t.sp = { s.sp with ttStep := 2 } ∧ fld (t.reg rSpTtStat) 3 5 = b.val ∧ fld (t.reg rSpTtStat) 8 7 = k.val ∧
        sameRegs s t (fun a => a = rSpTtStat) ∧ dataKept s t) ∧
      answers (.ttStop m 0x7E57#16) s (fun t => t = { s with sp := { s.sp with walk := false } }) ∧
      ((k8 ≠ 0xC7#8 ∨ s.sp.wclr ≠ none ∨ s.spLimit ≤ 16 * w.val) → answers (.spWclr m k8 w) s fun t => t = s.rset rSpStat 6) ∧
      (s.sp.wclr = none → 16 * w.val < s.spLimit → answers (.spWclr m 0xC7#8 w) s fun t =>
        t = { s with sp := { s.sp with wclr := some w.val } }) ∧
      ((key ≠ 0x9E71#16 ∨ cmd.val ≠ 1) → answers (.retire m key cmd page) s (refused 6)) ∧
      (s.kind ≠ .veteran → answers (.retire m 0x9E71#16 1 page) s (refused 1)) ∧
      (s.kind = .veteran →
        (s.poolPage ≤ page.val → answers (.retire m 0x9E71#16 1 page) s (refused 4)) ∧
        (page.val < s.poolPage → s.sp.copy.isSome = true → answers (.retire m 0x9E71#16 1 page) s (refused 5)) ∧
        (page.val < s.poolPage → s.sp.copy = none →
          let old := s.retEntries.find? (fun e => decide (s.rfld (rSpRet e) 0 10 = page.val))
          let free := (List.range 64).find? (fun i => !s.rbit (rSpRet i) 31)
          let begun := fun (e d src : Nat) (t : State) => t.sp = { s.sp with copy := some e, copyFrom := src, copied := 0 } ∧
            t.reg (rSpRet e) = BitVec.ofNat 32 (page.val + d * 2 ^ 10 + 2 ^ 31) ∧ dataKept s t
          (old = none → free = none → answers (.retire m 0x9E71#16 1 page) s (refused 2)) ∧
          ((old.isSome = true ∨ free.isSome = true) → s.freeSpares = [] → answers (.retire m 0x9E71#16 1 page) s (refused 3)) ∧
          (∀ e d l, old = none → free = some e → s.freeSpares = d :: l → answers (.retire m 0x9E71#16 1 page) s fun t =>
            begun e d page t ∧ sameRegs s t (fun a => a = rSpRet e ∨ a = rSpRetStat)) ∧
          (∀ e d l, e < 64 → old = some e → s.freeSpares = d :: l → answers (.retire m 0x9E71#16 1 page) s fun t =>
            let was := s.rfld (rSpRet e) 10 6
            begun e d (s.poolPage + was) t ∧ (t.reg (rSpSpareBad (was / 32))).getLsbD (was % 32) = true ∧
            sameRegs s t (fun a => a = rSpRet e ∨ a = rSpRetStat ∨ a = rSpSpareBad (was / 32)))))) ∧
    (s.mode = .run → s.bankIdle (s.rfld rSpTtStat 3 5) = true →
      (s.sp.ttStep = 4 ∨ 2 ≤ s.sp.ttStep ∧ s.copyIn (s.rfld rSpTtStat 3 5) = false ∧ s.wclrIn (s.rfld rSpTtStat 3 5) = false) →
      s.sp.walk = false → s.ttPoisoned [] = [] →
      (answers (.testRegionDone [] []) s fun t => t.sp = { s.sp with ttStep := 0 } ∧ (t.reg rSpTtStat).getLsbD 19 = true ∧
        sameRegs s t (fun a => a = rSpTtStat) ∧ dataKept s t) ∧
      (∀ off row reads, s.ttRow off row = true → reads ≠ marchExpected → answers (.testRegionDone [(off, row, reads)] []) s fun t =>
        t.sp = { s.sp with ttStep := 0 } ∧ (t.reg rSpTtStat).getLsbD 16 = true ∧ ticked (s.reg rSpTtRes) (t.reg rSpTtRes) 24 8 ∧
        fld (t.reg rSpTtRes) 0 6 = off.val ∧ fld (t.reg rSpTtRes) 8 5 = s.rfld rSpTtStat 3 5 ∧
        fld (t.reg rSpTtRes) 16 7 = s.rfld rSpTtStat 8 7 ∧ dataKept s t)) ∧
    (∀ u, s.mode = .run → s.sp.under = none → s.sp.wclr = some u → s.bankIdle (wordBank u) = true → s.restoreIn (wordBank u) = false →
      s.copyIn (wordBank u) = false → answers .wordClearDone s fun t => let h := s.home u
        (∀ a, 16 * h ≤ a → a < 16 * h + 16 → t.byte a = 0#8) ∧ sameBytes s t (fun a => 16 * h ≤ a ∧ a < 16 * h + 16) ∧
        t.badAt h = false ∧ t.sp.wclr = none ∧ (t.reg rSpStat).getLsbD 8 = true ∧ sameRegs s t (fun a => a = rSpStat)) ∧
    (∀ e, s.mode = .run → s.sp.under = none → s.sp.copy = some e → s.sp.copied ≤ 256 → s.retDst e ≠ s.sp.copyFrom →
      (∀ i, s.sp.copied ≤ i → i < 256 → s.copyCan e i = true ∧ s.badAt (s.copySrc i) = false) → answers (.retireCopyDone []) s fun t =>
        let new := fun (a : Nat) => 16 * s.copyDst e s.sp.copied ≤ a ∧ a < 16 * s.copyDst e 256
        (∀ i j, s.sp.copied ≤ i → i < 256 → j < 16 → t.byte (16 * s.copyDst e i + j) = s.byte (16 * s.copySrc i + j)) ∧
        sameBytes s t new ∧ t.sp.copy = none ∧ (t.reg rSpRetStat).getLsbD 1 = true ∧ t.threads = s.threads ∧ t.chans = s.chans ∧
        sameRegs s t (fun a => a = rSpRetStat ∨ a = rErQlost))

/-! ### Field pins and the energy governor -/

/-- R46, R386, R387, R392, R394–R396, R400: who may write a pin; a write is kept for a pin in fail-safe, held behind a held one, applied to
the pad and charged where the zone's limits and budget let it, held until the next window where the budget of this one is used up, and refused
with its flag above MAXDRV, or where the budget can never carry it. -/
def Obligations.PinWritesAreJudged : Prop :=
  ∀ (s : State) (m : Master) (n : Fin 192) (v : Word), s.mode ≠ .halted →
    let w := v &&& 0x3F#32
    let old := (s.pin n).applied
    let z := s.pinZone n
    let q := if transition (old.getLsbD 0) (old.getLsbD 1) (w.getLsbD 0) (w.getLsbD 1) then s.pinCharge n else 0
    let others := fun (t : State) => (∀ k, k ≠ n.val → t.pin k = s.pin k) ∧ (∀ k, k ≠ z → t.zone k = s.zone k) ∧ dataKept s t ∧
      t.reg (rPgOut n) = w
    let refused := fun (bit : Nat) (t : State) => others t ∧ (t.pin n).applied = old ∧ (t.pin n).pend = none ∧ t.zone z = s.zone z ∧
      (t.reg (rPgPinStat n)).getLsbD bit = true ∧ (t.reg (rPgZStat z)).getLsbD (bit - 8) = true ∧
      t.fires = (s.pulse 264).fires
    (s.pinWriter m n = false → answers (.pgnOutWrite m n v) s fun t => t = match m with | .thread _ => s.rset rPgStat 0 | _ => s) ∧
    (s.pinWriter m n = true →
      ((s.pin n).fs = true → answers (.pgnOutWrite m n v) s fun t => t = s.setReg (rPgOut n) w) ∧
      ((s.pin n).fs = false → s.zoneHeld z = true → answers (.pgnOutWrite m n v) s fun t =>
        t = (s.setReg (rPgOut n) w).modPin n (fun k => { k with pend := some w })) ∧
      ((s.pin n).fs = false → s.zoneHeld z = false → s.shBad 5 z = false →
        (s.rfld (rPgZLim z) 2 2 < fld w 2 2 → answers (.pgnOutWrite m n v) s (refused 9)) ∧
        (fld w 2 2 ≤ s.rfld (rPgZLim z) 2 2 → (w.getLsbD 0 = true → old.getLsbD 0 = true ∨ s.ndrv z + 1 ≤ s.rfld (rPgZLim z) 8 8) →
          ((s.zone z).qacc + q ≤ s.budget z → answers (.pgnOutWrite m n v) s fun t => others t ∧ (t.pin n).applied = w ∧
            (t.pin n).pend = none ∧ (t.zone z).qacc = (s.zone z).qacc + q ∧ sameRegs s t (fun a => a = rPgOut n) ∧ t.fires = s.fires ∧
            t.padOe n = w.getLsbD 0 ∧ t.padDo n = w.getLsbD 1 ∧ t.padDrv n = fld w 2 2) ∧
          (0 < q → s.budget z < (s.zone z).qacc + q → q ≤ s.budget z → answers (.pgnOutWrite m n v) s fun t => others t ∧
            t.pin n = { s.pin n with pend := some w } ∧ t.zone z = s.zone z ∧ (t.reg (rPgZStat z)).getLsbD 0 = true ∧
            sameRegs s t (fun a => a = rPgOut n ∨ a = rPgZStat z) ∧ t.fires = (s.pulse 264).fires) ∧
          (s.budget z < q → answers (.pgnOutWrite m n v) s (refused 11)))))

/-- R279–R281, R298, R388, R393, R396, R401, R402: a governor window closes with every zone's charge shown and cleared; the record at the
head of a shift engine's lane is applied and charged, or waits for the window; a clamp pulse is flagged, counted and joins its
zone's surge, which is recorded when it ends.
The model's own choices are in notes/assumptions/25.md. -/
def Obligations.GovernorWindowsLaneRecordsAndClamps : Prop :=
  ∀ (s : State) (n : Fin 192) (e : Fin 32) (z : Fin 8) (us : Nat) (b : Bool) (ev : BitVec 4) (rest : List LaneRec), s.mode ≠ .halted →
    let p := s.seBase e
    let old := (s.pin p).applied
    let new := putBit old 1 b
    let q := if transition (old.getLsbD 0) (old.getLsbD 1) (new.getLsbD 0) (new.getLsbD 1) then s.pinCharge p else 0
    let zp := s.pinZone p
    (s.mode = .run → (∀ k, k < 192 → (s.pin k).pend = none) → answers .governorWindowStart s fun t =>
      (∀ k, k < 8 → t.reg (rPgZQlast k) = showPc (s.zone k).qacc ∧ (t.zone k).qacc = 0 ∧ (t.zone k).spent = false ∧
        (t.reg (rPgZQmax k)).toNat = max (s.reg (rPgZQmax k)).toNat (showPc (s.zone k).qacc).toNat) ∧
      t.pins = s.pins ∧ sameRegs s t (fun a => ∃ k, k < 8 ∧ (a = rPgZQlast k ∨ a = rPgZQmax k)) ∧ dataKept s t) ∧
    (s.mode = .run → (s.se e).lane = { ev := ev } :: rest → answers (.laneRecordApply e) s fun t => (t.se e).lane = rest ∧
      t.fires = s.fires ++ ((List.range 4).filter (fun k => ev.getLsbD k)).flatMap (fun k =>
        (s.routesOf (4 * e.val + k)).map (fun r => (r, 4 * e.val + k))) ∧
      t.pins = s.pins ∧ t.regs = s.regs ∧ dataKept s t) ∧
    (s.mode = .run → (s.se e).lane = { lvMask := 1#32, lv := b2w b } :: rest → 1 ≤ s.sePins e → p < 192 → (s.pin p).fs = false →
      s.shBad 5 zp = false →
      ((s.zone zp).qacc + q ≤ s.budget zp → answers (.laneRecordApply e) s fun t => (t.se e).lane = rest ∧ (t.pin p).applied = new ∧
        (t.reg (rPgOut p)).getLsbD 1 = b ∧ (t.zone zp).qacc = (s.zone zp).qacc + q ∧ (∀ k, k ≠ p → t.pin k = s.pin k) ∧ dataKept s t) ∧
      (0 < q → s.budget zp < (s.zone zp).qacc + q → q ≤ s.budget zp → answers (.laneRecordApply e) s fun t => t.ses = s.ses ∧
        t.pins = s.pins ∧ (t.reg (rSeStat e)).getLsbD 12 = true ∧ t.fires = (s.pulse 264).fires)) ∧
    (s.mode ≠ .halted → answers (.padClampPulse n) s fun t => (t.reg (rPgPinStat n)).getLsbD 8 = true ∧
      ticked (s.reg (rPgPinStat n)) (t.reg (rPgPinStat n)) 16 16 ∧ n.val ∈ (t.zone (s.pinZone n)).surge ∧
      t.fires = (s.pulse 265).fires ∧ sameRegs s t (fun a => a = rPgPinStat n) ∧ dataKept s t) ∧
    ((s.zone z).surge ≠ [] → s.recd.queue = [] → answers (.surgeEnd z us) s fun t => (t.zone z).surge = [] ∧
      t.recd.queue = [{ key := { unit := 9, metric := 1, index := z.val }, sev := 1, dat := .bin (min 15 ((s.zone z).surge.length - 1)) 1 },
        { key := { unit := 9, metric := 2, index := z.val }, sev := 0, dat := .value us }] ∧ t.regs = s.regs ∧ dataKept s t)

/-! ### Built-in services -/

/-- R411, R413, R416, R429–R432: a service with a whole request and room for its response frees the request and sends the response that
the request and the line's part call for, with OPC + 128, the TAG, and the status.
The model's own choices are in notes/assumptions/27.md and notes/assumptions/29.md. -/
def Obligations.ServicesAnswerTheirRequests : Prop :=
  ∀ (s : State) (i : Fin 64) (r : SvcRec) (c d : Nat) (ws : List Word) (sec : Bool) (a0 : Byte) (body : List Byte)
    (miso read : List Byte) (k : Byte),
    let tag := mTag ws
    let answ := fun (opc status : Nat) (fixed : List Word) (data : List Byte) (t : State) =>
      answered s t c d (svMsg opc tag status false fixed data)
    let counted := fun (k : Nat) (t : State) => ticked (s.reg (rSvCnt i k)) (t.reg (rSvCnt i k)) 0 32
    (s.asked i 1 r c d ws sec →
      (mOpc ws = 0x11 → 1 ≤ mLen ws → mSized ws 0 = true → answers (.uartSend i) s fun t =>
        answ 0x91 0 [] [] t ∧ (t.svc i).line = mData ws 0) ∧
      (mOpc ws = 0x12 → answers (.uartSend i) s (answ 0x92 1 [] []))) ∧
    (s.asked i 5 r c d ws sec → mOpc ws = 0x51 → mSized ws 1 = true → 1 ≤ mLen ws → mLen ws ≤ 120 →
      (fld (mWord ws 1) 0 2 < r.par 5 1 → answers (.spiXfer i miso) s fun t => counted 0 t ∧ (t.svc i).line = mData ws 1 ∧
        answ 0xD1 0 [] ((List.range (mLen ws)).map (fun k => miso.getD k 0#8)) t) ∧
      (r.par 5 1 ≤ fld (mWord ws 1) 0 2 → answers (.spiXfer i miso) s (answ 0xD1 1 [] []))) ∧
    (s.asked i 6 r c d ws sec → i2cOk ws = true →
      (answers (.i2cXfer i none false read) s fun t => counted 0 t ∧ (t.svc i).line = mData ws 1 ∧
        answ 0xE1 0 [0#32] ((List.range (fld (mWord ws 1) 8 8)).map (fun k => read.getD k 0#8)) t) ∧
      (answers (.i2cXfer i (some k) false read) s fun t => counted 1 t ∧ answ 0xE1 3 [k.setWidth 32] [] t) ∧
      (answers (.i2cXfer i none true read) s fun t => counted 2 t ∧ answ 0xE1 5 [0#32] [] t) ∧
      (answers (.i2cStretchTimeout i) s fun t => counted 3 t ∧ answ 0xE1 2 [0#32] [] t)) ∧
    (s.asked i 4 r c d ws sec → mSized ws 0 = true → (s.svc i).tries = 0 →
      (mOpc ws = 0x41 → (mData ws 0).length ≤ 36 → 2 ≤ (mData ws 0).length → sdiKind (mData ws 0) ≠ none →
        sdiCrcCmd (mData ws 0) = false → (mData ws 0).getD 0 0#8 = a0 → body.length ≤ 100 →
        answers (.sdi12Raw i [{ text := a0 :: body ++ [13#8, 10#8], bad := false }]) s fun t =>
          answ 0xC1 0 [] (a0 :: body) t ∧ (t.svc i).line = mData ws 0 ∧ counted 0 t) ∧
      (mOpc ws = 0x42 → mData ws 0 = [a0, ch 'M', ch '!'] → body.length ≤ 100 → (∀ b, b ∈ body → b ≠ ch '+' ∧ b ≠ ch '-') →
        answers (.sdi12Measure i [{ text := [a0, ch '0', ch '0', ch '1', ch '1', 13#8, 10#8], bad := false },
          { text := [a0, 13#8, 10#8], bad := false }, { text := a0 :: ch '+' :: body ++ [13#8, 10#8], bad := false }]) s fun t =>
          answ 0xC2 0 [0x101#32] (ch '+' :: body) t ∧ (t.svc i).tries = 0) ∧
      (answers (.sdi12ResponseTimeout i) s fun t => (t.svc i).tries = 1 ∧ t.chans = s.chans ∧ counted 0 t ∧ counted 1 t)) ∧
    (s.asked i 4 r c d ws sec → mOpc ws = 0x41 → (s.svc i).tries + 1 = sdiMax r → answers (.sdi12ResponseTimeout i) s fun t =>
      answ 0xC1 2 [] [] t ∧ (t.svc i).tries = 0 ∧ counted 3 t)

/-- R435, R453: the link bridge reads a word, writes a word as the secure frame that brought the request may, and answers a ping with the
block's identity and its node number.
The model's own choices are in notes/assumptions/55.md. -/
def Obligations.BridgeReadsWritesAndAnswersPing : Prop :=
  ∀ (s : State) (i : Fin 64) (r : SvcRec) (c d : Nat) (ws : List Word) (sec : Bool) (v : Word), s.asked i 8 r c d ws sec →
    s.sec.zero ≠ .drained →
    let tag := mTag ws
    (mOpc ws = 0x0B → mLen ws = 0 → mSized ws 0 = true → answers (.bridgePing i) s fun t =>
      answered s t c d (svMsg 0x8B tag 0 false [s.kind.bcId, s.nodeId] [])) ∧
    (mOpc ws = 0x09 → mLen ws = 0 → mSized ws 2 = true → mWord ws 1 = BitVec.ofNat 32 rBcId → mWord ws 2 = 1#32 →
      answers (.bridgeRead i) s fun t => answered s t c d (svMsg 0x89 tag 0 false [] (dataOf [s.kind.bcId])) ∧
        ticked (s.reg (rSvCnt i 0)) (t.reg (rSvCnt i 0)) 0 32) ∧
    (mOpc ws = 0x0A → ws.drop 1 = [BitVec.ofNat 32 rSpLapAlarm, v] → mLen ws = 4 → sec = true → answers (.bridgeWrite i) s fun t =>
      answered s t c d (svMsg 0x8A tag 0 false [1#32] []) ∧ t.reg rSpLapAlarm = v) ∧
    (mOpc ws = 0x0A → ws.drop 1 = [BitVec.ofNat 32 rSpLapAlarm, v] → mLen ws = 4 → sec = false → answers (.bridgeWrite i) s fun t =>
      answered s t c d (svMsg 0x8A tag 6 false [0#32] []) ∧ t.reg rSpLapAlarm = s.reg rSpLapAlarm)

/-- R414, R417–R420, R433, R434, R436: an instance starts with its workspace cleared; a UART collects characters and sends them on at the
gap or with an error's flag; Modbus reads and writes registers held in the scratchpad and counts a bad frame; the pulse counter
adds eight rising edges to its position.
The model's own choices are in notes/assumptions/27.md and notes/assumptions/29.md. -/
def Obligations.ServicesServeTheLine : Prop :=
  ∀ (s : State) (i : Fin 64) (r : SvcRec) (d : Nat) (chars : List Byte) (ch0 ad ah al vh vl : Byte) (crc : List Byte)
    (th se ch pl n : Nat), s.sp.under = none →
    let counted := fun (k : Nat) (t : State) => ticked (s.reg (rSvCnt i k)) (t.reg (rSvCnt i k)) 0 32
    let room := s.roomFor d
    let reg := r.par 28 4 + 4 * (256 * ah.toNat + al.toNat)
    let pa := s.spAddr reg
    let holds := r.par 28 4 % 4 = 0 ∧ reg < s.spLimit ∧ s.spPoisoned (wordOf reg) = false ∧
      256 * ah.toNat + al.toNat < r.par 32 2
    (s.svRec i = some r → r.type ≠ 2 → r.type ≠ 3 → svSize r.type = some (th, se, ch, pl, n) → r.ws % 16 = 0 → s.mode = .run →
      fld (s.svStat i) 0 2 = 1 → answers (.serviceInit i) s fun t =>
      fld (t.reg (rSvStat i)) 0 2 = 2 ∧ (∀ a, r.ws ≤ a → a < r.ws + n → t.byte (s.spAddr a) = 0#8) ∧
      sameBytes s t (fun b => ∃ a, r.ws ≤ a ∧ a < r.ws + n ∧ b = s.spAddr a) ∧ sameRegs s t (fun a => a = rSvStat i) ∧ t.chans = s.chans ∧
      t.threads = s.threads) ∧
    (s.svOn i 1 = some r → (s.svc i).out = [] →
      (chars ≠ [] → (s.svc i).rx.length + chars.length < r.par 13 1 → answers (.uartData i chars false false false false) s fun t =>
        (t.svc i).rx = (s.svc i).rx ++ chars ∧ dataKept s t ∧
        (t.reg (rSvCnt i 1)).toNat = min (2 ^ 32 - 1) ((s.reg (rSvCnt i 1)).toNat + chars.length)) ∧
      (s.svChan r 0 2 = some d → room → (s.svc i).rx = [] → answers (.uartData i [ch0] true false false false) s fun t =>
        received s t d d (svMsg 0x12 (1 + 8 * b2n (s.svc i).missed) 0 false [] [ch0]) ∧ (t.svc i).rx = [] ∧ (t.svc i).missed = false ∧ (t.reg (rSvStat i)).getLsbD 13 = true ∧ counted 2 t) ∧
      (s.svChan r 0 2 = some d → room → (s.svc i).rx ≠ [] → (s.svc i).rx.length ≤ 124 → answers (.uartIdleFlush i) s fun t =>
        received s t d d (svMsg 0x12 (16 + 8 * b2n (s.svc i).missed) 0 false [] (s.svc i).rx) ∧ (t.svc i).rx = [] ∧ (t.svc i).missed = false ∧ t.regs = s.regs ∧ t.mem = s.mem)) ∧
    (s.svOn i 2 = some r → ad ≠ 0#8 → ad.toNat = r.par 12 1 → crc.length = 2 →
      (answers (.modbusFrame i chars true) s fun t => counted 3 t ∧ (t.reg (rSvStat i)).getLsbD 13 = true ∧ dataKept s t ∧
        t.svcs = s.svcs) ∧
      (holds → crcOf 0 0xFFFF#32 ([ad, 3#8, ah, al, 0#8, 1#8] ++ crc) = 0#32 →
        answers (.modbusFrame i ([ad, 3#8, ah, al, 0#8, 1#8] ++ crc) false) s fun t => counted 0 t ∧ sameBytes s t (fun _ => False) ∧
          t.chans = s.chans ∧ (t.svc i).line = mbLine [ad, 3#8, 2#8, s.byte (pa + 1), s.byte pa]) ∧
      (holds → s.svChan r 0 0 = some d → room → crcOf 0 0xFFFF#32 ([ad, 6#8, ah, al, vh, vl] ++ crc) = 0#32 →
        answers (.modbusFrame i ([ad, 6#8, ah, al, vh, vl] ++ crc) false) s fun t => counted 0 t ∧
          t.byte pa = vl ∧ t.byte (pa + 1) = vh ∧ t.byte (pa + 2) = 0#8 ∧ t.byte (pa + 3) = 0#8 ∧
          sameBytes s t (fun a => pa ≤ a ∧ a < pa + 4) ∧ (t.svc i).line = mbLine [ad, 6#8, ah, al, vh, vl] ∧
          received s t d d (svMsg 0x21 0 0 false
            [BitVec.ofNat 32 (6 + (256 * ah.toNat + al.toNat) * 2 ^ 16), 1#32] [])) ∧
      (crcOf 0 0xFFFF#32 ([ad, 3#8, 0xFF#8, 0xFF#8, 0#8, 1#8] ++ crc) = 0#32 →
        answers (.modbusFrame i ([ad, 3#8, 0xFF#8, 0xFF#8, 0#8, 1#8] ++ crc) false) s fun t => counted 0 t ∧ counted 2 t ∧
          dataKept s t ∧ (t.svc i).line = mbLine [ad, 0x83#8, 2#8])) ∧
    (s.svOn i 7 = some r → s.svChan r 0 0 = none → s.svChan r 0 5 = none → r.par 8 4 = 1 → r.par 4 1 = 16 → r.par 5 1 = 0 →
      (s.svc i).pulse = { a := some false, b := some false } → r.ws % 64 = 0 → r.ws + 64 ≤ s.spLimit →
      (∀ k, k < 4 → s.spPoisoned (wordOf r.ws + k) = false) →
      answers (.pulseReport i (List.replicate 8 [(false, false), (true, false)]).flatten 0) s fun t =>
        t.spReadLE r.ws 8 = (s.spReadLE r.ws 8 + 8) % 2 ^ 64 ∧ t.spReadLE (r.ws + 8) 4 = 8 ∧
        t.spReadLE (r.ws + 12) 4 = (s.spReadLE (r.ws + 12) 4 + 1) % 2 ^ 32 ∧ counted 0 t ∧ t.chans = s.chans ∧
        sameBytes s t (fun b => ∃ a, r.ws ≤ a ∧ a < r.ws + 64 ∧ b = s.spAddr a))

/-- R422–R426, R428: the DNP3 outstation takes link frames, sends controls to the application and its answers to the master, keeps
events, and sends unsolicited responses until they are confirmed or given up; session keys and link confirmations run out.
The model's own choices are in notes/assumptions/27.md, notes/assumptions/30.md and notes/assumptions/65.md. -/
def Obligations.DnpOutstationServesTheMaster : Prop :=
  ∀ (s : State) (i : Fin 64) (r : SvcRec) (d c : Nat) (frame : List Byte) (f : DlFrame) (p v : Word) (w : List Word) (rep : Bool)
    (l : List (List Word × Bool)) (m : Msg) (rest : List Msg) (st k seq : Nat), s.svOn i 3 = some r → (s.svc i).out = [] → s.sp.under = none →
    let x := s.dnp i
    let counted := fun (k : Nat) (t : State) => ticked (s.reg (rSvCnt i k)) (t.reg (rSvCnt i k)) 0 32
    let echo := fun (st : Nat) => ctlEcho (x.ctl.length + 1) x.ctl (x.codes ++ [st])
    let header := fun (ctl fc : Nat) (d : Dnp) => [BitVec.ofNat 8 ctl, BitVec.ofNat 8 fc] ++ leBytes 2 d.iinNow.toNat
    (dlParse frame = none → answers (.dnp3LinkFrame i frame false) s fun t => counted 1 t ∧ (t.reg (rSvStat i)).getLsbD 13 = true ∧
      t.svcs = s.svcs ∧ dataKept s t) ∧
    (dlParse frame = some f → f.src = r.par 14 2 → f.dst = r.par 12 2 → f.dst < 0xFFFD →
      (f.ctrl = 0xC0 → answers (.dnp3LinkFrame i frame false) s fun t => counted 0 t ∧ dataKept s t ∧
        t.dnp i = { x with reset := true, fcb := true } ∧ (t.svc i).line = dlFrame 0 (r.par 14 2) (r.par 12 2) []) ∧
      (f.ctrl = 0xC4 → f.data = [0xC0#8, 0xC5#8, 23#8] → r.parBit 32 0 = false → answers (.dnp3LinkFrame i frame false) s fun t =>
        counted 0 t ∧ counted 2 t ∧ dataKept s t ∧
        (t.dnp i).sent = header 0xC5 129 x ++ [52#8, 2#8, 7#8, 1#8] ++ leBytes 2 s.free.toNat)) ∧
    (x.todo = (w, rep) :: l → x.ctlTag = none → s.svChan r 1 0 = some d → w.length ≤ 4 → s.roomFor d →
      answers (.dnp3Control i) s fun t => received s t d d (svMsg 0x31 x.tag 0 false w []) ∧
        t.dnp i = { x with todo := l, tag := (x.tag + 1) % 256, ctlTag := if rep then some x.tag else none } ∧ t.regs = s.regs) ∧
    (s.svChan r 1 1 = some c → (s.chan c).msgs = m :: rest → m.words = goodWords [svHead 0xB1 (k % 256) 0 false st] →
      epKind (s.chan c).sendEp ≠ 4 → st < 128 → x.ctlTag = some (k % 256) → x.todo = [] → x.req = some (seq, true) → (echo st).length ≤ 2044 →
      answers (.dnp3ControlReply i) s fun t => (t.dnp i).ctlTag = none ∧ (t.dnp i).codes = x.codes ++ [st] ∧ (t.dnp i).req = none ∧
        (t.dnp i).sent = header (0xC0 + seq % 16) 129 x ++ echo st ∧ (t.chan c).msgs = rest) ∧
    (x.ctlTag = some k → x.todo = [] → x.req = some (seq, true) → (echo 1).length ≤ 2044 → answers (.dnp3ApprspTimeout i) s fun t =>
      (t.dnp i).ctlTag = none ∧ (t.dnp i).codes = x.codes ++ [1] ∧ (t.dnp i).sent = header (0xC0 + seq % 16) 129 x ++ echo 1 ∧ dataKept s t) ∧
    (s.svChan r 1 2 = some c → (s.chan c).msgs = m :: rest → m.words = goodWords [svHead 0x32 0 0 false 0, p, v] →
      epKind (s.chan c).sendEp ≠ 4 → fld p 24 3 = 0 → fld p 28 2 ≠ 0 → r.par 44 4 % 16 = 0 → r.par 44 4 + 4 < s.spLimit →
      s.spPoisoned (wordOf (r.par 44 4)) = false → r.parBit 22 0 = false → x.events.length < r.par 42 2 →
      answers (.dnp3Event i) s fun t => (t.chan c).msgs = rest ∧ ∃ e, (t.dnp i).events = x.events ++ [e] ∧ e.cls = fld p 28 2 ∧
        e.point = p ∧ e.value = v ∧ e.sent = false) ∧
    (r.parBit 22 0 = true → x.unsolWait = none → 0 < x.pendingEvents → answers (.dnp3UnsolHold i) s fun t =>
      (t.dnp i).unsolWait = some 0 ∧ ((t.dnp i).sent.getD 1 0#8) = 130#8 ∧ dataKept s t ∧ t.regs = s.regs) ∧
    (x.unsolWait = some k → x.null = false → r.par 23 1 ≠ 255 →
      (k < r.par 23 1 → answers (.dnp3ConfirmTimeout i) s fun t => (t.dnp i).unsolWait = some (k + 1) ∧ dataKept s t) ∧
      (r.par 23 1 ≤ k → answers (.dnp3ConfirmTimeout i) s fun t =>
        t.dnp i = { x with unsolWait := none, events := x.events.map (fun e => { e with sent := false }) })) ∧
    (answers (.dnp3SessionKeyExpiry i) s fun t => t.dnp i = { x with keys := false, asdus := 0 } ∧ dataKept s t ∧ t.regs = s.regs) ∧
    (x.dlTries = some k → answers (.dnp3LinkConfirmTimeout i) s fun t =>
      t.dnp i = (if k < r.par 17 1 then { x with dlTries := some (k + 1) } else { x with dlTries := none, out := [] }) ∧ dataKept s t)

/-! ### Canopy links -/

/-- R443–R449, R455, R458–R463: what each frame does when it comes in order on an idle link: a HELLO of a right peer brings the link UP; an
ACK releases what it acknowledges; messages are published in their channel; credits, SYNC and GRANT set the credit and its counters;
FREEZE and TIME act on this block.
The model's own choices are in notes/assumptions/31.md and notes/assumptions/62.md. -/
def Obligations.LinkFramesAreTakenInOrder : Prop :=
  ∀ (s : State) (n : Fin 4) (c w m nom tsn : Nat) (src a b id : Word) (ws : List Word) (e : LkEnt) (head : Msg) (rest : List Msg),
    s.mode = .run →
    let me := s.nodeId
    let all := 0xFFFFFFFF#32
    let ch := s.chan c
    let took := fun (t : State) => tookNext s t n
    let only := fun (t : State) => ∀ k, k ≠ c → t.chan k = s.chan k
    (s.lkOn n = true → s.lkGcm n = false → (s.lk n).up = false → (s.lk n).store = [] → (s.lk n).wait = [] → s.linkChans = [] →
      s.frzWait = false → s.recovQ = [] → isNode id = true → id ≠ me → (s.lk n).session = a → a ≠ 0#32 → (s.lk n).peerSes = b →
      (s.lk n).seq < 65536 →
      answers (.helloFrame n { dst := all, src := id, payload := leBytes 4 id.toNat ++ leBytes 4 b.toNat ++ leBytes 4 a.toNat ++
          [0#8, BitVec.ofNat 8 (s.lkMode n)] ++ leBytes 2 (s.lk n).seq ++ [0#8, 0#8, 0#8, 0#8] }) s fun t =>
        (t.lk n).up = true ∧ t.reg (rLkPeer n) = id ∧ t.reg (rLkPeerF n) = 0#32 ∧ t.fires = (s.pulse (258 + n.val)).fires ∧
        ticked (s.reg (rLkRxf n)) (t.reg (rLkRxf n)) 0 32 ∧ dataKept s t) ∧
    (s.linkIdle n →
      (∀ q, q < 65535 → answers (.ackFrame n { (s.nextFrame n me src 0 []) with ack := q + 1 })
        ((s.modLk n (fun l => { l with seq := q + 1, store := [{ e with ty := .cdata, origin := some c, f := { e.f with seq := q } }] })).setChan c
          { ch with msgs := head :: rest, sendEp := 0#32 }) fun t => (t.lk n).store = [] ∧ (t.chan c).msgs = rest ∧ only t) ∧
      (s.lkAdmits c ch.sendEp src false = true → 1 ≤ ws.length → ws.length ≤ 32 → ch.staged = [] → ws.length ≤ s.freeWords c →
        ch.msgs.length < 8 → answers (.cdataFrame n (s.nextFrame n me src c (bytesOf ws))) s fun t => took t ∧ only t ∧
          (t.chan c).msgs = ch.msgs ++ [{ words := goodWords ws, total := ws.length }] ∧ (t.chan c).recvM = ch.recvM + 1#16 ∧
          (t.chan c).recvW = ch.recvW + BitVec.ofNat 16 ws.length) ∧
      (s.lkAdmits c ch.sendEp all false = true → 1 ≤ ws.length → ws.length ≤ 32 → ch.staged = [] → ws.length ≤ s.freeWords c →
        ch.msgs.length < 8 → s.castLinks n = [] → me ≠ all →
        answers (.bdataFrame n (s.nextFrame n all src c (bytesOf ws))) s fun t => took t ∧ only t ∧
          (t.chan c).msgs = ch.msgs ++ [{ words := goodWords ws, total := ws.length }]) ∧
      (s.lkAdmits c ch.recvEp src false = true → answers (.creditFrame n { (s.nextFrame n me src c []) with credit := some (c, w, m) }) s fun t =>
        took t ∧ only t ∧ t.chan c = { ch with credW := ch.credW + w, credM := ch.credM + m }) ∧
      (s.lkAdmits c ch.sendEp src false = true → s.routeTo src = some n.val → src ≠ all → s.owedTo src = none →
        answers (.syncFrame n (s.nextFrame n me src c (leBytes 2 (m % 65536) ++ leBytes 2 (w % 65536)))) s fun t =>
          ticked (s.reg (rLkRxf n)) (t.reg (rLkRxf n)) 0 32 ∧ t.chan c = { ch with recvM := BitVec.ofNat 16 m, recvW := BitVec.ofNat 16 w, owedW := 0, owedM := 0, lnkdn := false } ∧
          fld (t.reg rLkLost) 0 16 = min 65535 (fld (s.reg rLkLost) 0 16 + (BitVec.ofNat 16 m - ch.recvM).toNat) ∧
          putFrame t n .grant (fun g => g.dst = src ∧ g.chan = epUnit ch.sendEp ∧ g.payload =
            [BitVec.ofNat 8 (s.freeWords c), BitVec.ofNat 8 (8 - ch.msgs.length), 0#8, 0#8] ++ leBytes 2 (m % 65536) ++ leBytes 2 (w % 65536))) ∧
      (s.lkAdmits c ch.recvEp src false = true → w < 256 → m < 256 → answers (.grantFrame n (s.nextFrame n me src c
          ([BitVec.ofNat 8 w, BitVec.ofNat 8 m, 0#8, 0#8] ++ leBytes 2 ch.sentM.toNat ++ leBytes 2 ch.sentW.toNat))) s fun t =>
        took t ∧ only t ∧ t.chan c = { ch with credW := w, credM := m, lnkdn := false }) ∧
      (s.castLinks n = [] → me ≠ all → answers (.freezeFrame n (s.nextFrame n all src 0 [])) s fun t => took t ∧
        (t.reg rLkGStat).getLsbD 0 = true ∧ dataKept s t ∧
        t.frzTrig = s.frzTrig ++ (if (s.reg rLkGCfg).getLsbD 9 then [6] else [])) ∧
      (tsn < 65536 → nom < 2 ^ 28 → nom ≠ s.rfld rBtNom 0 28 → answers (.timeFrame n
          (s.nextFrame n me src 0 (leBytes 2 tsn ++ [0#8, 0#8] ++ leBytes 4 nom ++ leBytes 8 0 ++ leBytes 8 0 ++ leBytes 4 0))) s fun t =>
        (t.lk n).arr = some (tsn, s.ct) ∧ (t.reg (rLkStat n)).getLsbD 8 = true ∧ t.bt = s.bt ∧ dataKept s t))

/-- R443, R445, R446, R448, R457, R458, R461, R462, R466, R549: what time and commands do to a link: HELLO, ACK, CREDIT, SYNC and TIME frames that
are due are sent, an unacknowledged frame is sent again up to eight times, silence and a lost lock take the link DOWN, a stale frame is
dropped, sessions are renewed, and a canopy freeze or a RECOV frame leaves by command of a maintenance writer.
The model's own choices are in notes/assumptions/31.md. -/
def Obligations.LinkTimersAndCommandsSendFrames : Prop :=
  ∀ (s : State) (n : Fin 4) (m : Master) (c : Fin 4096) (e : LkEnt) (l : List LkEnt) (len : Fin 512) (inFrame : Bool), s.mode ≠ .halted →
    let ch := s.chan c
    let dst := s.epNode ch.sendEp
    let k := s.lk n
    let down := fun (t : State) => (t.lk n).up = false ∧ ticked (s.reg (rLkDowns n)) (t.reg (rLkDowns n)) 0 16 ∧
      t.fires = (s.pulse (258 + n.val)).fires ∧ dataKept s t
    let sent := fun (t : State) => ticked (s.reg (rLkTxf n)) (t.reg (rLkTxf n)) 0 32 ∧ sameRegs s t (fun x => x = rLkTxf n)
    (s.lkOn n = true → s.lkGcm n = false → k.up = false → k.session ≠ 0#32 → answers (.helloPeriod n) s fun t =>
      putFrame t n .hello (fun g => g.src = s.nodeId ∧ g.payload.take 8 = leBytes 4 s.nodeId.toNat ++ leBytes 4 k.session.toNat) ∧
      sent t ∧ dataKept s t) ∧
    (s.linkIdle n →
      (answers (.linkKeepalive n) s fun t => putFrame t n .ack (fun g => g.payload = [] ∧ g.ack = k.next) ∧ sent t ∧ dataKept s t) ∧
      answers (.linkSilenceTimeout n) s down ∧
      (s.lkMode n = 1 → answers (.linkLockFall n inFrame) s fun t => down t ∧ (t.lk n).lock = false ∧
        (inFrame = true → ticked (s.reg (rLkErr n)) (t.reg (rLkErr n)) 0 16)) ∧
      (k.ackDue = true → answers (.ackDelay n) s fun t => (t.lk n).ackDue = false ∧ (t.lk n).sacked = false ∧
        putFrame t n .ack (fun g => g.payload = [] ∧ g.ack = k.next) ∧ dataKept s t) ∧
      (epKind ch.sendEp = 4 → 0 < ch.owedM → s.mode = .run → s.routeTo dst = some n.val → 1 ≤ k.peerRwin → k.peerAck = k.seq →
        answers (.creditTimeout c) s fun t => t.chan c = { ch with owedW := 0, owedM := 0 } ∧
          putFrame t n .credit (fun g => g.dst = dst ∧ g.credit = some (epUnit ch.sendEp, ch.owedW, ch.owedM)) ∧
          (t.lk n).seq = (k.seq + 1) % 65536) ∧
      (epKind ch.recvEp = 4 → s.epNode ch.recvEp ≠ 0xFFFFFFFF#32 → (ch.msgs.any (fun m => !m.sent)) = true → s.mode = .run →
        s.routeTo (s.epNode ch.recvEp) = some n.val → 1 ≤ k.peerRwin → k.peerAck = k.seq → answers (.syncWaitTimeout c) s fun t =>
          putFrame t n .sync (fun g => g.dst = s.epNode ch.recvEp ∧ g.chan = epUnit ch.recvEp ∧
            g.payload = leBytes 2 ch.sentM.toNat ++ leBytes 2 ch.sentW.toNat)) ∧
      (s.rbit (rLkCtl n) 0 = true → answers (.timePeriod n) s fun t => (t.lk n).tsn = (k.tsn + 1) % 65536 ∧
        ((t.lk n).deps.head? = some ((k.tsn + 1) % 65536, s.ct)) ∧ sent t ∧ dataKept s t ∧
        putFrame t n .time (fun g => g.payload.take 2 = leBytes 2 ((k.tsn + 1) % 65536))) ∧
      (s.maint m = true →
        (s.mode = .run → s.castLinks 4 = [] → answers (.lkFrzcmd m 0x5A3F#16) s fun t => (t.reg rLkGStat).getLsbD 1 = true ∧
          t.frzTrig = s.frzTrig ++ (if (s.reg rLkGCfg).getLsbD 8 || (s.reg rLkGCfg).getLsbD 9 then [6] else [])) ∧
        (k.busy = false → 4 ≤ len.val → len.val ≤ 256 → len.val % 4 = 0 → 1 ≤ k.peerRwin → k.peerAck = k.seq →
          answers (.rtxSend m n len) s fun t => (t.lk n).busy = true ∧ putFrame t n .recov (fun g => g.dst = s.reg (rLkPeer n) ∧
            g.payload = (bytesOf ((List.range 64).map (fun w => s.reg (rLkRtxBuf n w)))).take len)) ∧
        (k.busy = true → answers (.rtxSend m n len) s fun t => t = s.rset (rLkRtxStat n) 2))) ∧
    (s.lkOn n = true → s.lkGcm n = false → k.up = true → k.store = e :: l →
      (e.tries < 8 → answers (.retransmitTimeout n) s fun t => ticked (s.reg (rLkRetx n)) (t.reg (rLkRetx n)) 0 16 ∧
        putFrame t n e.ty (fun g => g.seq = e.f.seq ∧ g.retx = true ∧ g.payload = e.f.payload) ∧
        ((t.lk n).store.head?.map (·.tries)) = some (e.tries + 1)) ∧
      (8 ≤ e.tries → s.frzWait = false → answers (.retransmitTimeout n) s fun t => (t.lk n).up = false)) ∧
    (epKind ch.sendEp = 4 → 0 < ch.owedM → s.routeTo dst = some n.val → k.wait = [e] → e.src = 4 → e.f.dst = dst → e.f.credit = none →
      answers (.linkCreditReturn c) s fun t => t.chan c = { ch with owedW := 0, owedM := 0 } ∧ t.regs = s.regs ∧
        (t.lk n).wait = [{ e with f := { e.f with credit := some (epUnit ch.sendEp, ch.owedW, ch.owedM) } }]) ∧
    (k.wait = e :: l → e.src = 0 → (∀ j, j < n.val → (s.lk j).wait = []) → answers (.staleFrameDrop 0) s fun t => (t.lk n).wait = l ∧
      ticked (s.reg (rLkDrop 0)) (t.reg (rLkDrop 0)) 16 8 ∧ dataKept s t) ∧
    (s.frzWait = true → s.mode = .run → answers .freezeAckWait s fun t => t.frzWait = false ∧ t.frzTrig = s.frzTrig ++ [6] ∧
      (t.reg rDbgFrzCause).getLsbD 6 = true ∧ dataKept s t) ∧
    (k.txcnt < 0xFFFF0000 → answers (.sessionRenewal n) s fun t => t = s) ∧
    (s.lkOn n = true → s.lkGcm n = true → k.store = [] → 0xFFFF0000 ≤ k.txcnt → (s.ports.tr.any (fun r => decide (r.user = .session n))) = false →
      answers (.sessionRenewal n) s fun t =>
        t = { s with ports := { s.ports with tr := s.ports.tr ++ [{ user := .session n.val, want := 1 }] } }) ∧
    (s.maint m = false → answers (.rtxSend m n len) s fun t => t = s.lkRefused m)

/-- R464, R466: RECOV frames. In RECOVERY a peer reads and writes this block, streams an image into it and gives it up, each answered in a
RECOV frame; in RUN a response is kept in the link's receive buffer. -/
def Obligations.RecovFramesAreServed : Prop :=
  ∀ (s : State) (n : Fin 4) (src v : Word) (tag : Byte) (bytes : List Byte) (ld : Load), s.linkIdle n →
    let req := fun (op : Nat) (l : List Byte) => s.nextFrame n s.nodeId src 0 (bytesOf [BitVec.ofNat 32 (op + tag.toNat * 2 ^ 8)] ++ l)
    let answ := fun (op : Nat) (ws : List Word) (t : State) => putFrame t n .recov (fun g => g.dst = src ∧ g.src = s.nodeId ∧
      g.payload = bytesOf (BitVec.ofNat 32 (op + tag.toNat * 2 ^ 8) :: ws))
    (s.mode = .recovery →
      answers (.recovRead n (req 1 (leBytes 4 rBcId))) s (fun t => answ 0x81 [s.kind.bcId] t ∧ dataKept s t) ∧
      answers (.recovWrite n (req 2 (leBytes 4 rSpLapAlarm ++ leBytes 4 v.toNat))) s (fun t => answ 0x82 [] t ∧ t.reg rSpLapAlarm = v) ∧
      (s.boot.otp = none → s.imgState = 0 → answers (.recovStream n (req 3 [])) s fun t => answ 0x83 [] t ∧ t.imgState = 2 ∧
        t.boot.load = some { src := 3, link := some (n.val, src, tag.toNat) } ∧ t.mem = []) ∧
      (s.boot.load = some ld → s.imgState = 2 → bytes.length % 4 = 0 → bytes.length ≤ 252 →
        s.parse (ld.bytes ++ bytes) = .error none → answers (.recovImage n (req 4 bytes)) s fun t =>
          t.boot.load = some { ld with link := some (n.val, src, tag.toNat), bytes := ld.bytes ++ bytes } ∧ t.imgState = 2 ∧
          t.rfld rBcImgStat 8 24 = min 16777215 (ld.bytes.length + bytes.length)) ∧
      (s.boot.load = some ld → s.imgState = 2 → ld.src = 3 → answers (.recovAbort n (req 5 [])) s fun t =>
        t.boot.load = none ∧ t.imgState = 0 ∧ answ 0x85 [] t)) ∧
    (s.mode = .run → s.rbit (rLkRrxStat n) 0 = false → answers (.recovResponse n (req 0x81 (leBytes 4 v.toNat))) s fun t =>
      (t.reg (rLkRrxStat n)).getLsbD 0 = true ∧ fld (t.reg (rLkRrxStat n)) 16 9 = 8 ∧ t.reg (rLkRrxBuf n 1) = v ∧ dataKept s t) ∧
    (s.mode = .run → s.rbit (rLkRrxStat n) 0 = true → answers (.recovResponse n (req 0x81 (leBytes 4 v.toNat))) s fun t =>
      (t.reg (rLkRrxStat n)).getLsbD 1 = true ∧ t.reg (rLkRrxBuf n 1) = s.reg (rLkRrxBuf n 1) ∧ dataKept s t)

/-! ### The recorder and the flash port -/

/-- R467, R472–R479: the recorder applies the oldest update to its object, to a free slot, or to a victim, or counts it as dropped; the
window shows an object word by word; a clear is keyed and checked, and its pass frees the objects it names and records itself. -/
def Obligations.RecorderKeepsObjects : Prop :=
  ∀ (s : State) (u : RecUpd) (q : List RecUpd) (b n : Nat) (i : Fin 256) (ix : Byte) (minsev : Fin 8) (v : Word), s.mode ≠ .halted →
    let made := fun (o : RecObj) => o.valid = true ∧ o.key = u.key ∧ o.sev = u.sev ∧ o.extreme = false ∧ o.created = s.aon ∧
      o.updated = s.aon ∧ o.updcnt = 1 ∧ Bank.get (fun _ => 0) o.bins b = min (2 ^ 32 - 1) n
    let others := fun (t : State) => ∀ k, k ≠ i.val → t.obj k = s.obj k
    let known := s.valid.find? (fun i => decide ((s.obj i).key = u.key))
    let top := min 4 (fld v 16 3)
    (s.recd.queue = u :: q → s.recd.clear = .none → u.dat = .bin b n →
      (known = some i.val → answers (.recorderUpdateApply []) s fun t => t.recd.queue = q ∧ others t ∧ t.regs = s.regs ∧
        (t.obj i).updated = s.aon ∧ (t.obj i).created = (s.obj i).created ∧ (t.obj i).updcnt = min (2 ^ 32 - 1) ((s.obj i).updcnt + 1) ∧
        (∀ k, Bank.get (fun _ => 0) (t.obj i).bins k = if k = b then min (2 ^ 32 - 1) (Bank.get (fun _ => 0) (s.obj i).bins b + n)
          else Bank.get (fun _ => 0) (s.obj i).bins k)) ∧
      (known = none → (List.range 256).find? (fun i => !(s.obj i).valid) = some i.val → u.sev ≠ 4 →
        answers (.recorderUpdateApply []) s fun t => t.recd.queue = q ∧ others t ∧ made (t.obj i) ∧ t.regs = s.regs ∧
          t.fires = (if 2 ≤ u.sev then (s.pulse 267).fires else s.fires)) ∧
      (known = none → (List.range 256).find? (fun i => !(s.obj i).valid) = none → u.sev < 4 →
        (s.victim u.sev = some i.val → answers (.recorderUpdateApply []) s fun t => t.recd.queue = q ∧ others t ∧ made (t.obj i) ∧
          ticked (s.reg rErRepl) (t.reg rErRepl) 0 32) ∧
        (s.victim u.sev = none → answers (.recorderUpdateApply []) s fun t => t.recd.pool = s.recd.pool ∧ t.recd.queue = q ∧
          ticked (s.reg (rErDrop u.sev)) (t.reg (rErDrop u.sev)) 0 32))) ∧
    (answers (.erCursorLoad ix minsev) s fun t => (∀ w, w < 32 → t.reg (rErWin w) = objWord ix.toNat (s.obj ix.toNat) w) ∧
      fld (t.reg rErCursor) 0 8 = ix.toNat ∧ fld (t.reg rErCursor) 8 3 = minsev.val ∧
      (t.reg rErCursor).getLsbD 24 = (s.obj ix.toNat).valid ∧ t.recd = s.recd ∧ dataKept s t) ∧
    (s.valid.find? (fun j => decide (ix.toNat < j) && decide (minsev.val ≤ (s.obj j).sev)) = some i.val →
      answers (.erCursorNext ix minsev) s fun t => (∀ w, w < 32 → t.reg (rErWin w) = objWord i (s.obj i) w) ∧
        fld (t.reg rErCursor) 0 8 = i.val ∧ (t.reg rErCursor).getLsbD 25 = false ∧ t.recd = s.recd) ∧
    (s.valid.find? (fun j => decide (ix.toNat < j) && decide (minsev.val ≤ (s.obj j).sev)) = none →
      answers (.erCursorNext ix minsev) s fun t => (t.reg rErCursor).getLsbD 25 = true ∧ (∀ w, w < 32 → t.reg (rErWin w) = s.reg (rErWin w))) ∧
    (s.recd.clear = .none →
      (fld v 0 16 = 0xE2C1 → answers (.erClrctl v) s fun t => t.recd = { s.recd with clear := .check v } ∧ t.regs = s.regs ∧
        ∃ r, t.ports.cpWait = s.ports.cpWait ++ [r] ∧ r.user = .clear ∧ r.op = opCheck) ∧
      (fld v 0 16 ≠ 0xE2C1 → answers (.erClrctl v) s fun t => t = s.rset rErStat 7)) ∧
    (s.recd.clear = .pass v → s.valid.length < 256 → answers .recorderClearPass s fun t => t.recd.clear = .none ∧
      (t.reg rErStat).getLsbD 4 = true ∧
      (∀ k, k < 256 → (s.obj k).valid = true → (s.obj k).key ≠ clearKey →
        if (s.obj k).sev ≤ top then (t.obj k).valid = false ∨ (t.obj k).key = clearKey else t.obj k = s.obj k) ∧
      (∃ k, k < 256 ∧ (t.obj k).valid = true ∧ (t.obj k).key = clearKey) ∧
      (v.getLsbD 19 = true → ∀ k, k < 5 → t.reg (rErDrop k) = 0#32))

/-- R54–R58, R468, R469, R480–R485, R488: commits are requested by a maintenance writer and by time, begin where enough sectors are good,
and go sequence by sequence through the flash port, which polls, retries, and gives a bad sector up; operating seconds advance the
always-on counters; P4 restores the newest commit.
The model's own choices are in notes/assumptions/32.md. -/
def Obligations.RecorderCommitsAndRestores : Prop :=
  ∀ (s : State) (m : Master) (key : BitVec 16) (c : CommitRun) (k tgt addr r : Nat) (a : Nat) (data : List Byte) (st : Word) (p : Byte)
    (cf : CmFound) (reads : List SectorRead) (l : Load), s.mode ≠ .halted →
    let sects := reads.map (fun x => x.read)
    (3 ≤ s.good → s.recd.commit = none →
      (s.maint m = true → answers (.erCmctl m 0xC0A1#16) s fun t => t.recd = { s.recd with cmReq := true } ∧ t.regs = s.regs) ∧
      (answers .periodicCommit s fun t => t.recd = { s.recd with cmReq := true, cmSecs := 0 } ∧ t.regs = s.regs) ∧
      (s.recd.cmReq = true → s.mode = .run ∨ s.mode = .recovery → s.target s.targetFrom = some tgt →
        answers .commit s fun t => t.recd.cmReq = false ∧ t.regs = s.regs ∧ ∃ d, t.recd.commit = some d ∧ d.target = tgt ∧
          d.step = .erase 0 ∧ d.slots = s.valid ∧ d.stamp = s.aon ∧
          d.seq = (s.recd.newest.map (fun p => p.2 + 1#32)).getD 1#32)) ∧
    (s.maint m = false → answers (.erCmctl m key) s fun t => t = s.rset rErStat 7) ∧
    (s.recd.commit = some c → s.mode ≠ .halted → c.target < 8 →
      (s.ports.flash = .none → c.step = .erase k → answers .flashProgramErase s fun t =>
        t = { s with ports := { s.ports with
          flash := .issued true (s.sectAddr c.target (k * s.eraseUnit)) [] false
          flOut := s.flSeq true (s.sectAddr c.target (k * s.eraseUnit)) [] } }) ∧
      (s.ports.flash = .retry → c.step = .head 0 → answers .flashProgramErase s fun t =>
        t = { s with ports := { s.ports with
          flash := .issued false (s.sectAddr c.target 0) ((s.cmHeader c).take 32) true
          flOut := s.flSeq false (s.sectAddr c.target 0) ((s.cmHeader c).take 32) } }) ∧
      (s.ports.flash = .issued false addr data false →
        (st.getLsbD 0 = true → answers (.flashStatusPoll st) s fun t => t = s) ∧
        (st.getLsbD 0 = false → st.getLsbD 3 = true → answers (.flashStatusPoll st) s fun t => t.ports.flash = .retry ∧
          t.recd = s.recd ∧ fld (t.reg rXpFlStat) 8 8 = fld st 8 8) ∧
        (st.getLsbD 0 = false → st.getLsbD 3 = false → st.getLsbD 1 = false → c.step = .unit → answers (.flashStatusPoll st) s fun t =>
          t.ports.flash = .none ∧ t.recd.commit = none ∧ t.reg rErCmSeq = c.seq ∧ fld (t.reg rErCmStat) 0 3 = c.target ∧
          (t.reg rErCmStat).getLsbD 3 = true ∧ (t.reg rErStat).getLsbD 2 = true) ∧
        (c.step ≠ .bad → answers (.flashPeTimeout p) s fun t => t.ports.flash = .none ∧ (t.reg rXpFlStat).getLsbD 3 = true ∧
          (t.reg rErCmStat).getLsbD (16 + c.target) = true ∧ fld (t.reg rErCmStat) 8 4 = s.good - 1 ∧
          t.recd.commit = some { c with step := .bad }))) ∧
    (s.mode ≠ .halted → s.boot.load = some l → l.src = 2 → s.ports.flash = .read addr r false →
      (s.parse (l.bytes ++ padTo 32 data) = .error none → answers (.flashReadResponse 0 data) s fun t =>
        t.boot.load = some { l with bytes := l.bytes ++ padTo 32 data } ∧ (l.image = none → t.ports.flash = .read (addr + 32) 0 false)) ∧
      (r < 8 → answers (.flashReadResponse 1 data) s fun t => t.ports.flash = .read addr r true ∧ (t.reg rXpFlStat).getLsbD 1 = true ∧
        t.boot = s.boot)) ∧
    (s.mode ≠ .halted → s.ports.flash = .read addr r true → answers .flashIndetRetry s fun t => t.ports.flash = .read addr (r + 1) false ∧
      fld (t.reg rXpFlStat) 16 4 = (r + 1) % 16 ∧ t.boot = s.boot) ∧
    (s.power = false → answers .operatingSecond s fun t => t = s) ∧
    (s.power = true → answers .operatingSecond s fun t => t.aon.pcc = s.aon.pcc ∧ t.regs = s.regs ∧ t.recd = { s.recd with cmSecs := s.recd.cmSecs + 1 } ∧
      (s.aon.secs < 3599 → t.aon.secs = s.aon.secs + 1 ∧ t.aon.hours = s.aon.hours) ∧
      (3599 ≤ s.aon.secs → s.aon.hours < 2 ^ 24 - 1 → t.aon.secs = 0 ∧ t.aon.hours = s.aon.hours + 1) ∧
      (3599 ≤ s.aon.secs → 2 ^ 24 - 1 ≤ s.aon.hours → t.aon = s.aon)) ∧
    (s.mode = .boot → s.phase = 4 → s.recd.restore = true → sects.length = 8 →
      (newest ((List.range 8).filterMap (fun k => (s.cmValid (sects.getD k .flerr)).map (fun c => (k, c)))) = some (a, cf) →
        answers (.recorderRestore reads) s fun t => t.recd.restore = false ∧ t.reg rErCmSeq = cf.seq ∧ fld (t.reg rErCmStat) 0 3 = a ∧
          (t.reg rErCmStat).getLsbD 3 = true ∧ t.recd.applied = leAt cf.head 6 2 ∧ t.reg rErRepl = BitVec.ofNat 32 (leAt cf.head 52 4) ∧
          (s.recd.counters = true → t.aon.hours = leAt cf.head 16 4 % 2 ^ 24 ∧ t.aon.secs = leAt cf.head 20 2 % 2 ^ 12 ∧
            t.aon.pcc = min 16777215 (leAt cf.head 24 4 % 2 ^ 24 + 1)) ∧ (s.recd.counters = false → t.aon = s.aon) ∧ t.mem = s.mem) ∧
      ((sects.all (fun q => sectBlank q && !sectMarked q)) = true → answers (.recorderRestore reads) s fun t => t.recd.restore = false ∧ t.recd.pool = [] ∧
        fld (t.reg rErCmStat) 8 4 = 8 ∧ t.mem = s.mem))

/-! ### Resets, start-up, the loader and OTP -/

/-- R25, R79, R94–R96, R131: what resets and a loss of power leave: burned fuses, the always-on counters and what waits outside stay, memory and the
units start anew, every pin is fail-safe, and BC_RSTCAUSE and its counters show the cause.
The model's own choices are in notes/assumptions/34.md. -/
def Obligations.ResetsKeepWhatTheyMust : Prop :=
  ∀ (s : State),
    let fusesKept := fun (t : State) => (s.boot.otp = none → t.otp = s.otp) ∧ (∀ w, s.fuse w &&& ~~~ t.fuse w = 0#32) ∧
      ∀ o w bits rest, s.boot.otp = some o → o.steps = (w, bits) :: rest →
        (∀ x, x ≠ w → t.fuse x = s.fuse x) ∧ t.fuse w &&& ~~~ bits = s.fuse w &&& ~~~ bits
    let clear := fun (t : State) => t.mode = .boot ∧ t.mem = [] ∧ t.threads = [] ∧ t.chans = [] ∧ t.image = none ∧ fusesKept t ∧
      t.pending = s.pending ∧ t.pads = [] ∧ ∀ n, (t.pin n).fs = true
    (answers .coldReset s fun t => clear t ∧ t.phase = 1 ∧ t.aon = { s.aon with pcc := min (2 ^ 24 - 1) (s.aon.pcc + 1) } ∧
      t.reg rBcRstCause = BitVec.ofNat 32 (1 + 8 * b2n s.sec.aonLost) ∧ t.recd = { restore := true, counters := s.sec.aonLost } ∧ t.power = true ∧
      sameRegs State.reset t (fun a => a = rBcRstCause ∨ a = rSecAlStat)) ∧
    (answers .pwrOkFall s fun t => clear t ∧ t.phase = 0 ∧ t.power = false ∧ t.aon = s.aon ∧ sameRegs State.reset t (fun a => a = rSecAlStat)) ∧
    (answers .aonOkFall s fun t => t.sec = { s.sec with aonLost := true } ∧ t.aon.secs < 3600 ∧ t.regs = s.regs ∧ t.recd = s.recd ∧
      dataKept s t ∧ t.otp = s.otp) ∧
    (s.power = false → answers .warmReset s fun t => t = s) ∧
    (s.power = true → answers .warmReset s fun t => clear t ∧ t.phase = 1 ∧ t.aon = s.aon ∧
      t.reg rBcRstCause = BitVec.ofNat 32 (2 + 8 * b2n (s.rbit rBcRstCause 3)) ∧ t.recd.pool = s.recd.pool ∧ t.recd.restore = s.recd.restore ∧
      ticked (s.reg rBcWarmCnt) (t.reg rBcWarmCnt) 0 16 ∧ t.reg rErCmStat = s.reg rErCmStat &&& 0xFFFFFFF0#32 ∧ t.reg rErCmSeq = 0#32 ∧
      (∀ k, k < 16 → t.reg (rSecAcnt k) = s.reg (rSecAcnt k)) ∧ (∀ k, k < 5 → t.reg (rErDrop k) = s.reg (rErDrop k)) ∧
      t.sec.lockout = s.sec.lockout ∧ t.dbg.ir = s.dbg.ir)

/-- R26, R112, R114, R115, R117–R124, R131, R134–R136, R142, R144, R149: start-up step by step: fuses are read and judged, memory is
filled, an image is read, checked and committed, the delay lines lock, and the block is released; a failure enters RECOVERY with its
code in BC_BOOTERR.
The model's own choices are in notes/assumptions/38.md and notes/assumptions/39.md. -/
def Obligations.StartUpGoesPhaseByPhase : Prop :=
  ∀ (s : State) (g : Nat) (nv : NvRead) (im h : Image) (n : Nat) (l : Load) (us : Word),
    let failed := fun (code : Nat) (t : State) => t.mode = .recovery ∧ fld (t.reg rBcBootErr) 0 8 = code ∧ t.mem = [] ∧
      ∀ n, n < 192 → (t.pin n).fs = true
    let fuses := s.fuse 0x3F = crcWords ((List.range 63).map s.fuse)
    (s.mode = .boot → s.phase = 1 → s.sec.lockRead = false →
      (fuses → s.activeGen = some g → answers (.fuseLoad []) s fun t => t.gen = some g ∧ t.sec.lockRead = true ∧ t.mode = .boot ∧
        t.phase = 1 ∧ fld (t.reg rBcMode) 10 3 = lockLevel s.lockWord ∧ (∀ w, w < 512 → t.reg (rOtpMirror w) = s.fuse w) ∧
        t.reg rLkNodeId = s.fuse (0x80 + 32 * g) ∧ t.ports.tr = s.ports.tr ++ [{ user := .key, want := 4 }] ∧ t.mem = s.mem) ∧
      (¬ fuses → answers (.fuseLoad []) s (failed 0x11)) ∧
      (fuses → s.activeGen = none → answers (.fuseLoad []) s (failed 0x12))) ∧
    (s.mode = .boot → s.phase = 2 → answers (.memoryFill false) s fun t => t.phase = 3 ∧ t.mem = [] ∧ t.regs = s.regs ∧
      (∀ w, t.spPoisoned w = false) ∧ t.upset = [] ∧ t.pool = [] ∧ t.recd = s.recd) ∧
    (s.mode = .boot → s.phase = 2 → s.rbit rBcMode 9 = true → s.shGroup 0 = false →
      answers .testEntry s fun t => t = { s with mode := .test }) ∧
    (s.mode = .boot → s.phase = 3 → s.boot.load = none →
      (s.loadSrcs.headD 1 = 2 → s.ports.flash = .none → answers (.imageLoad nv) s fun t =>
        t.ports.flash = .read (s.genWord 4).toNat 0 false ∧ t.boot.load = some { src := 2 } ∧ t.regs = s.regs) ∧
      (s.loadSrcs.headD 1 = 1 → nv.sfdp = true → parseHeader (padTo 64 nv.bytes) s.kind s.arbFloor (s.genWord 0) = .ok (h, n) →
        fld (s.genWord 3) 0 24 + leNat (((padTo 64 nv.bytes).drop 8).take 4) ≤ 2 ^ 24 → s.parse (padTo h.length nv.bytes) = .ok im →
        answers (.imageLoad nv) s fun t =>
          t.boot.load = some { src := 1, bytes := padTo h.length nv.bytes, image := some { im with source := 1 } } ∧
          t.phase = 3 ∧ t.ports.cpWait = s.ports.cpWait ++
            [{ user := .image, op := opCheck, slot := fld (s.genWord 1) 0 8, iv := ((padTo h.length nv.bytes).drop 0x18).take 12
               aad := (padTo h.length nv.bytes).take (im.length - 16)
               tag := ((padTo h.length nv.bytes).drop (im.length - 16)).take 16 }])) ∧
    (s.boot.load = some l → l.image = some im → l.ok = true → l.src < 4 → s.mode = .boot → answers .imageCommit s fun t =>
      t.phase = 4 ∧ t.boot.load = none ∧ t.image = some (im.withRom s.draws) ∧ t.reg rBcImgVer = im.version ∧
      t.reg rBcImgLen = BitVec.ofNat 32 im.length ∧ fld (t.reg rBcBootErr) 8 2 = l.src ∧ t.mem = s.mem) ∧
    (s.mode = .boot → s.phase = 4 →
      (answers .delayLineLock s fun t => t.boot = { s.boot with locked := true } ∧ t.mode = .boot ∧ dataKept s t) ∧
      (s.boot.locked = false → answers .dlockTimeout s (failed 0x41)) ∧
      (s.image = some im → s.boot.locked = true → s.recd.restore = false → answers (.release us []) s fun t => t.mode = .run ∧ t.phase = 5 ∧
        t.reg rBcBootTime = us ∧ t.bt.on = true ∧ (∀ k, k < 16 → t.standState k = if im.owns k then 1 else 0) ∧ t.mem = s.mem)) ∧
    (s.boot.load = some l → l.image = none → l.ok = true → s.mode = .recovery → answers .imageAccept s fun t => t.mode = .boot ∧
      t.phase = 4 ∧ t.boot.load = none ∧ t.boot.locked = false ∧ t.imgState = 0 ∧ t.mem = s.mem)

/-- R123, R126–R130, R147, R148, R150: the loader's and the OTP unit's commands: each acts for its writers in its mode, under its key, and is
refused with its flag otherwise; an OTP step burns its bits and no others.
The model's own choices are in notes/assumptions/26.md and notes/assumptions/39.md. -/
def Obligations.LoaderAndOtpCommandsAct : Prop :=
  ∀ (s : State) (m : Master) (key : BitVec 16) (auto : Bool) (zone : Fin 8) (g : Nat) (v : Word) (l : Load) (o : OtpOp) (w : Nat)
    (bits missed : Word) (p : Nat × Word) (rest : List (Nat × Word)),
    let refused := s.rset rBcImgStat 6
    let burns := fun (steps : List (Nat × Word)) (t : State) => (∃ ctl, t.boot.otp = some { ctl := ctl, check := true, steps := steps, all := steps }) ∧
      t.otp = s.otp ∧ t.regs = s.regs ∧ ∃ r, t.ports.cpWait = s.ports.cpWait ++ [r] ∧ r.user = .command ∧ r.dslot = 0
    let lock := fun (b : Nat) => (List.range 4).map (fun k => (0x124 + k, BitVec.ofNat 32 (2 ^ b)))
    (s.boot.otp = none →
      (s.imgWriter m 1 = true → s.mode = .run → s.boot.reload = none → answers (.reload m 0x1A6E#16 auto) s fun t =>
        t.boot.reload.isSome = true ∧ t.regs = s.regs ∧ t.mode = .run ∧
        ∃ r, t.ports.cpWait = s.ports.cpWait ++ [r] ∧ r.user = .command ∧ r.dslot = 1) ∧
      (s.mode = .recovery →
        (s.imgWriter m 2 = true → s.imgState = 0 → answers (.srcload m 0x1A6E#16) s fun t => t.imgState = 3 ∧
          t.boot.load = some { src := s.loadSrcs.headD 1 } ∧ t.mem = []) ∧
        (s.imgWriter m 3 = true → s.imgState = 0 → answers (.stream m 0x1A6E#16) s fun t => t.imgState = 1 ∧
          t.boot.load = some { src := 3 } ∧ t.mem = []) ∧
        (s.imgWriter m 4 = true → s.boot.load = some l → s.imgState = 1 → answers (.imgAbort m 0x1A6E#16) s fun t =>
          t.boot.load = none ∧ t.imgState = 0 ∧ fld (t.reg rBcBootErr) 0 8 = 0x3C)) ∧
      (s.imgWriter m 2 = true → s.mode = .run → answers (.srcload m 0x1A6E#16) s fun t => t = refused)) ∧
    (key ≠ 0x1A6E#16 → s.mode ≠ .halted → answers (.stream .recov key) s fun t => t = refused) ∧
    (s.boot.load = some l → s.mode ≠ .halted → s.imgState = 1 → (∀ x y, m = .host x y → x = true ∧ y = true) → s.parse (l.bytes ++ leBytes 4 v.toNat) = .error none →
      answers (.bcImginWrite m v) s fun t => t.boot.load = some { l with bytes := l.bytes ++ leBytes 4 v.toNat } ∧
        t.imgState = 1 ∧ t.chans = s.chans) ∧
    (s.boot.load = some l → l.src = 3 → s.imgState = 1 ∨ s.imgState = 2 → s.mode = .recovery → answers .streamIdleTimeout s fun t =>
      t.boot.load = none ∧ t.imgState = 0 ∧ fld (t.reg rBcBootErr) 0 8 = 0x3C ∧ t.mode = .recovery) ∧
    (s.imgState = 0 → s.boot.otp = none →
      (s.mode = .recovery →
        (s.otpWriter m 1 = true → s.blankGen = some g → answers (.burngen m 0xA17C#16) s fun t =>
          burns ((List.range 32).map (fun i => (0x80 + 32 * g + i,
            ((List.range 31).map (fun i => s.reg (rOtpStage i)) ++ [crcWords ((List.range 31).map (fun i => s.reg (rOtpStage i)))]).getD i 0#32))) t) ∧
        (s.otpWriter m 3 = true → s.lockWord.getLsbD 0 = false → answers (.lock1 m 0xA17C#16) s (burns (lock 0))) ∧
        (s.otpWriter m 4 = true → s.lockWord.getLsbD 1 = false → answers (.lock2 m 0xA17C#16) s (burns (lock 1))) ∧
        (s.otpWriter m 6 = true → s.lockWord.getLsbD 2 = false → answers (.testdis m 0xA17C#16) s (burns (lock 2))) ∧
        (s.otpWriter m 5 = true → (s.fuse (0x128 + 4 * zone.val + 3)).getLsbD 0 = false →
          (s.fuse (0x128 + 4 * zone.val + 3)).getLsbD 1 = false → answers (.zoneburn m 0xA17C#16 zone) s (burns
            ((List.range 3).map (fun i => (0x128 + 4 * zone.val + i, s.reg (rOtpStage i))) ++ [(0x128 + 4 * zone.val + 3, 3#32)]))) ∧
        (s.otpWriter m 3 = true → s.lockWord.getLsbD 0 = true → answers (.lock1 m 0xA17C#16) s fun t => t = s.rset rOtpStat 24)) ∧
      (∀ im, s.mode = .run → s.otpWriter m 2 = true → s.image = some im → s.arbFloor + 1 = im.epoch →
        answers (.arbraise m 0xA17C#16) s fun t => t.otp = s.otp ∧ ∃ q, t.boot.otp = some q ∧ q.check = false ∧
          q.steps = [(0x120 + s.arbFloor / 32, BitVec.ofNat 32 (2 ^ (s.arbFloor % 32))),
            (0x122 + s.arbFloor / 32, BitVec.ofNat 32 (2 ^ (s.arbFloor % 32)))])) ∧
    (s.boot.otp = some o → o.steps = (w, bits) :: rest → o.check = false → o.stepped = false →
      (rest = p :: rest.tail → answers (.otpBurnStepDone missed) s fun t => t.fuse w = s.fuse w ||| (bits &&& ~~~ missed) ∧
        (∀ k, k ≠ w → t.fuse k = s.fuse k) ∧ t.boot.otp = some { o with steps := rest, stepped := decide (s.mode = .halted) } ∧
        t.regs = s.regs) ∧
      (rest = [] → s.mode = .halted → answers (.otpBurnStepDone missed) s fun t => t.fuse w = s.fuse w ||| (bits &&& ~~~ missed) ∧
        t.boot.otp = some { o with steps := [], stepped := true } ∧ t.regs = s.regs) ∧
      (rest = [] → s.mode ≠ .halted → fld o.ctl 16 4 = 3 → o.all = [(w, bits)] → answers (.otpBurnStepDone 0#32) s fun t => t.boot.otp = none ∧
        t.fuse w = s.fuse w ||| bits ∧ (t.reg rOtpStat).getLsbD 21 = true))

/-! ### Stands -/

/-- R97–R99, R105, R107, R108, R111: a thread restart gives the thread the registers of its record; a stand restart drains the stand, then
restores it from the restart copy, parks it where its restarts were too many, and releases it, unless the debugger holds it.
The model's own choices are in notes/assumptions/37.md. -/
def Obligations.ThreadAndStandRestartsRunTheirSteps : Prop :=
  ∀ (s : State) (k : Tid) (n : Fin 16) (im : Image) (r r2 : ThreadRec) (stopped : List (Fin 32)), s.mode = .run → s.image = some im →
    let h := s.thr k
    let d := s.stand n
    let quiet := fun (t : Tid) => (s.thr t).sbuf = [] ∧ (s.thr t).held = [] ∧ s.requestsOf t = []
    let fresh := fun (h : Thread) (r : ThreadRec) => h.pc = r.entry ∧ h.tvec = r.tvec ∧ h.rg 1 = r.arg ∧ (∀ x, 2 ≤ x → h.rg x = 0#32) ∧
      h.park = none ∧ h.stall = .none ∧ h.evp = 0#8 ∧ h.restarting = false
    (im.threadRec k = some r → quiet k → h.restarting = true → s.standState h.stand = 1 →
      (h.twin = false → answers (.threadRestart k) s fun t => fresh (t.thr k) r ∧ (t.thr k).halted = h.halted ∧ sameThreads s t k ∧
        t.mem = s.mem ∧ ticked (s.reg (rStcRcnt h.stand)) (t.reg (rStcRcnt h.stand)) 16 16) ∧
      (h.twin = true → quiet (partnerT k) → im.threadRec (partnerT k) = some r2 → answers (.threadRestart k) s fun t =>
        fresh (t.thr k) r ∧ fresh (t.thr (partnerT k)) r2 ∧ (∀ j, j ≠ k.val → j ≠ partner k → t.thr j = s.thr j) ∧ t.mem = s.mem)) ∧
    (d.req = true → d.step = .none → (∀ t ∈ s.standTids n, quiet t) → answers (.standRestart n) s fun t => (t.stand n).step = .drained ∧
      t.standState n = 2 ∧ (t.stand n).req = false ∧ (∀ b, b < 8 → d.causes.testBit b = true → (t.reg (rStcCause n)).getLsbD b = true) ∧
      (∀ p, p < 192 → s.pinOwned p = true → s.pinStand p = n.val → (t.pin p).fs = true) ∧ t.mem = s.mem ∧
      (∀ j ∈ s.standTids n, (t.thr j).park = none ∧ (t.thr j).stall = .none ∧ (t.thr j).defer = [] ∧ (t.thr j).halted = false) ∧
      ((t.stand n).parks = true ↔ s.rfld (rStcCfg n) 12 4 ≠ 0 ∧ s.rfld (rStcStat n) 8 4 = s.rfld (rStcCfg n) 12 4)) ∧
    (d.step = .drained → d.zero = false →
      (d.parks = false → k.val ∈ s.standThreads n → im.threadRec k = some r → answers (.standRestore n) s fun t => fresh (t.thr k) r ∧
        (t.stand n).step = .restored ∧ (t.thr k).halted = false ∧ t.standState n = s.standState n ∧ t.mem = s.mem) ∧
      (d.parks = true → answers (.standRestore n) s fun t => t.standState n = 3 ∧ (t.stand n).step = .restored)) ∧
    (d.step = .restored → s.standState n = 2 →
      (s.rbit rDbgShold n = false → d.unpark = false → answers (.standRelease n stopped) s fun t => t.standState n = 1 ∧
        (t.stand n).step = .none ∧ (t.stand n).causes = 0 ∧
        t.rfld (rStcStat n) 8 4 = min 15 (s.rfld (rStcStat n) 8 4 + 1) ∧ ticked (s.reg (rStcRcnt n)) (t.reg (rStcRcnt n)) 0 16 ∧
        (∀ j ∈ s.standThreads n, (t.thr j).released = true) ∧ (∃ l, t.fires = s.fires ++ l ++ (s.routesOf 268).map (fun x => (x, 268))) ∧
        (∀ e ∈ im.ses, e.stand = n.val → e.n ∈ s.standSes n → (t.se e.n).inRst = stopped.any (fun x => decide (x.val = e.n))) ∧
        t.mem = s.mem) ∧
      (s.rbit rDbgShold n = true → answers (.standRelease n stopped) s fun t =>
        t = (s.seClocks (s.standSes n) stopped).rsetFld (rStcStat n) 0 3 4))

/-- R102–R104, R108: who may restart or unpark a stand, what the watchdog and its kicks do, and how the storm count falls.
The model's own choices are in notes/assumptions/36.md. -/
def Obligations.StandCommandsAreChecked : Prop :=
  ∀ (s : State) (m : Master) (n : Fin 16) (key : BitVec 16) (c : Nat) (k : Tid), s.mode ≠ .halted →
    let bad := s.rset (rStcStat n) 4
    let d := s.stand n
    (s.stcWriter m n = some c → s.standState n = 1 ∨ s.standState n = 2 ∨ s.standState n = 4 → c < 4 →
      (d.step = .none → answers (.restart m n 0x5E7D#16) s fun t => (t.stand n).req = true ∧ (t.stand n).causes = d.causes ||| 2 ^ c ∧
        t.regs = s.regs ∧ dataKept s t) ∧
      (d.step ≠ .none → answers (.restart m n 0x5E7D#16) s fun t => (t.stand n).req = d.req ∧
        (t.stand n).causes = d.causes ||| 2 ^ c ∧ (t.reg (rStcCause n)).getLsbD c = true ∧ dataKept s t) ∧
      answers (.unpark m n 0x5E7D#16) s (fun t => t = bad)) ∧
    (s.stcWriter m n = some c → s.standState n = 3 → s.rbit rDbgShold n = false → answers (.unpark m n 0x5E7D#16) s fun t =>
      t.standState n = 1 ∧ t.rfld (rStcStat n) 8 4 = 0 ∧ (t.stand n).parks = false ∧ (t.reg (rStcCause n)).getLsbD 7 = true ∧
      t.mem = s.mem) ∧
    (s.stcWriter m n = some c → s.standState n = 3 → answers (.restart m n 0x5E7D#16) s fun t => t = bad) ∧
    (key ≠ 0x5E7D#16 ∨ s.stcWriter m n = none →
      (∀ x, m = .thread x → answers (.restart m n key) s (fun t => t = bad) ∧ answers (.unpark m n key) s (fun t => t = bad)) ∧
      ((∀ x, m ≠ .thread x) → answers (.restart m n key) s (fun t => t = s) ∧ answers (.unpark m n key) s (fun t => t = s))) ∧
    ((s.thr k).stand = n.val → (s.thr k).cls ≠ .idle →
      (d.wdOn = true → answers (.wdkick (.thread k) n 0xC35A#16) s fun t => sameRegs s t (fun a => a = rStcStat n) ∧ dataKept s t ∧
        t.rfld (rStcStat n) 16 16 = (if s.rfld (rStcCfg n) 16 16 = 0 then 1 else s.rfld (rStcCfg n) 16 16) ∧
        fld (t.reg (rStcStat n)) 0 16 = fld (s.reg (rStcStat n)) 0 16) ∧
      (d.wdOn = false → answers (.wdkick (.thread k) n 0xC35A#16) s fun t => t = s)) ∧
    ((∀ x, m = .thread x → (s.thr x).stand ≠ n.val ∨ (s.thr x).cls = .idle) → answers (.wdkick m n 0xC35A#16) s fun t =>
      t = s.rset (rStcStat n) 3) ∧
    (key ≠ 0xC35A#16 → answers (.wdkick m n key) s fun t => t = s) ∧
    (s.mode = .run → d.wdOn = true → s.rbit rDbgShalt n = false → d.step = .none → s.standState n = 1 →
      answers (.watchdogExpiry n) s fun t => (t.stand n).req = true ∧ (t.stand n).causes = d.causes ||| 2 ^ 4 ∧
        t.rfld (rStcStat n) 16 16 = 0 ∧ t.standState n = 1 ∧ sameRegs s t (fun a => a = rStcStat n) ∧ dataKept s t) ∧
    (s.mode = .run → 0 < s.rfld (rStcStat n) 8 4 → answers (.stormDecay n) s fun t =>
      t.rfld (rStcStat n) 8 4 = s.rfld (rStcStat n) 8 4 - 1 ∧ sameRegs s t (fun a => a = rStcStat n) ∧ dataKept s t)

/-! ### Protection -/

/-- R496, R499, R503–R509, R511–R513: what an alarm input, a shadow mismatch and an alarm response do; the steps of a zeroise; the freeze
reset at LK2; the debug challenge with its lockout. Which settings stand behind a group number of a mismatch is the model's list
(notes/assumptions/28.md).
The model's own choices are in notes/assumptions/41.md. -/
def Obligations.AlarmsZeroiseAndTheDebugChallenge : Prop :=
  ∀ (s : State) (k : Fin 8) (m : Master) (mask : Byte) (g : Fin 8) (i : Fin 256) (flip : Word) (src : Nat) (rest : List Nat)
    (key : BitVec 16) (stays : Bool) (stopped : List (Fin 32)), src < 16 →
    let lost := 8 * b2n (s.rbit rBcRstCause 3)
    let early := s.mode = .boot ∧ s.phase < 2
    let r := s.reg (rSecResp src)
    let quiet := ∀ (t : Tid), (s.thr t).sbuf = [] ∧ (s.thr t).held = [] ∧ s.requestsOf t = []
    let hit := s.rbit rSecAlStat (16 + k)
    let weak := s.sp.resv.isNone
    let fails := s.rfld rSecDbgStat 4 4
    let blank := s.sec.fresh = false
    (answers (.alarmInput k stays) s fun t => (∀ p, p < 192 → (t.pin p).fs = true) ∧ t.rbit rSecAlStat (8 + k) = stays ∧ dataKept s t ∧
      t.rbit rSecAlStat k = (s.rbit rSecAlStat k || hit) ∧ t.rbit rSecAlStat (16 + k) = false ∧
      (hit = true → ¬ early → t.raised = s.raised ++ [k.val] ∧ t.rfld rSecStat 8 4 = k.val ∧
        ticked (s.reg (rSecAcnt k)) (t.reg (rSecAcnt k)) 0 16) ∧
      (hit = false ∨ early → t.raised = s.raised ∧ t.reg (rSecAcnt k) = s.reg (rSecAcnt k))) ∧
    (answers (.alarmRearm k) s fun t => t.rbit rSecAlStat (8 + k) = false ∧ t.rbit rSecAlStat (16 + k) = true ∧
      t.rbit rSecAlStat k = s.rbit rSecAlStat k ∧ sameRegs s t (fun a => a = rSecAlStat) ∧ dataKept s t) ∧
    (m = .debugger ∨ s.mode ≠ .halted → answers (.secAlstatClear m mask) s fun t => ∀ j, j < 8 → t.rbit rSecAlStat j =
      (s.rbit rSecAlStat j && (!s.maint m || !mask.getLsbD j || s.rbit rSecAlStat (8 + j)))) ∧
    (flip ≠ 0#32 → answers (.shadowMismatch g i flip) s fun t => t.shBad g i = true ∧ t.rbit rSecShStat g = true ∧ dataKept s t ∧
      (g.val = 7 → t.sec.zero ≠ .none) ∧ t.raised = (if s.rbit rSecShStat g = true then s.raised else s.raised ++ [9]) ∧
      (g.val = 6 → ∀ b, (t.reg (rSecResp (i % 16))).getLsbD b =
        ((s.reg (rSecResp (i % 16))).getLsbD b || (flip &&& 0xFFFF000F#32).getLsbD b))) ∧
    (s.raised = src :: rest → s.mode ≠ .halted → ¬ early →
      (fld r 0 4 = 0 → answers .alarmResponse s fun t => t = { s with raised := rest }) ∧
      (r.getLsbD 3 = true → answers .alarmResponse s fun t => t.mode = .boot ∧ t.phase = 1 ∧ t.raised = [] ∧ t.threads = [] ∧ t.mem = [] ∧
        t.reg rBcRstCause = BitVec.ofNat 32 (4 + 16 * src + lost)) ∧
      (fld r 0 4 ≠ 0 → r.getLsbD 3 = false → answers .alarmResponse s fun t => t.raised = rest ∧ t.fires = (s.pulse 269).fires ∧
        dataKept s t ∧ (r.getLsbD 1 = true → s.sec.zero = .none ∨ s.sec.zero = .cleared → t.sec.zero = .asked ∧ t.sec.zsrc = src ∧ t.sec.zfreeze = r.getLsbD 0) ∧
        (r.getLsbD 1 = false → t.sec.zero = s.sec.zero ∧ (r.getLsbD 0 = true → s.mode = .run → t.frzTrig = s.frzTrig ++ [5] ∧
          t.rbit rDbgFrzCause 5 = true)) ∧
        (r.getLsbD 2 = true → s.mode = .run → ∀ n, n < 16 → r.getLsbD (16 + n) = true → s.standState n ≠ 0 → s.standState n ≠ 5 →
          (t.stand n).causes.testBit 6 = true))) ∧
    (s.sec.zero = .asked → s.mode ≠ .halted → (s.mode = .run → quiet) → answers .zeroise s fun t => t.sec.zero = .drained ∧
      t.sp.key = s.sp.resv.getD 0#128 ∧ t.sp.resv = none ∧ t.rbit rSecStat 4 = false ∧ t.rbit rSecStat 3 = (s.rbit rSecStat 3 || weak) ∧
      (∃ q ∈ t.ports.tr, q.user = .zero) ∧ (∀ a, s.kind.spSize ≤ a → t.byte a = s.byte a) ∧
      (s.mode = .run → ∀ n, n < 16 → s.standState n ≠ 0 → s.standState n ≠ 5 → t.standState n = 2 ∧ (t.stand n).zero = true)) ∧
    (s.sec.zero = .drained → s.mode ≠ .halted → answers .zeroiseClear s fun t =>
      (∀ a, t.byte a = if a < s.kind.spSize then 0#8 else s.byte a) ∧ t.sp.under = none ∧ (∀ w, t.badAt w = false) ∧ t.pool = [] ∧ (∀ c, (t.chan c).msgs = [] ∧ (t.chan c).staged = []) ∧
      t.threads = s.threads ∧ (s.mode = .run → t.sec.zero = .cleared) ∧ (s.mode ≠ .run → t.sec.zero = .none ∧ t.rbit rSecStat 2 = true)) ∧
    (s.sec.zero = .cleared → s.mode = .run → s.frzTrig = [] → answers (.zeroiseRestore stopped) s fun t => t.sec.zero = .none ∧
      t.rbit rSecStat 2 = true) ∧
    (s.mode = .halted → s.rfld rDbgFrzStat 0 2 = 2 → s.rfld rBcMode 10 3 = 2 → s.sec.frzSrc = some src →
      answers .lk2FreezeReset s fun t => t.mode = .boot ∧ t.phase = 1 ∧ t.threads = [] ∧ t.mem = [] ∧
        t.reg rBcRstCause = BitVec.ofNat 32 (4 + 16 * src + 2 ^ 8 + 2 ^ 9 + lost)) ∧
    (s.dbgSec = true →
      (s.sec.lockout = 0 → answers (.newch key) s fun t =>
        t = if key = 0xD3B6#16 then { s with ports := { s.ports with tr := s.ports.tr ++ [{ user := .debug, want := 2 }] } } else s) ∧
      (0 < s.sec.lockout → answers (.unlock key) s fun t => t.rbit rSecDbgStat 1 = true ∧ t.sec = s.sec ∧ t.ports = s.ports ∧
        dataKept s t) ∧
      (s.sec.lockout = 0 → key ≠ 0xD3B6#16 ∨ blank → answers (.unlock key) s fun t =>
        ticked (s.reg rSecDbgStat) (t.reg rSecDbgStat) 4 4 ∧ t.sec.lockout = min 1024 (2 ^ (min 15 (fails + 1) - 1)) ∧
        t.sec.unlocked = s.sec.unlocked ∧ t.raised = (if (s.sec.failRun + 1) % 3 = 0 then s.raised ++ [13] else s.raised)) ∧
      (s.sec.lockout = 0 → s.sec.unlockCtl = none → key = 0xD3B6#16 → ¬ blank → answers (.unlock key) s fun t =>
        t.reg (rSecDbgCh 0) = 0#32 ∧ t.reg (rSecDbgCh 1) = 0#32 ∧ t.sec.fresh = false ∧ t.sec.unlocked = s.sec.unlocked ∧
        (∃ q, t.ports.cpWait = s.ports.cpWait ++ [q] ∧ q.user = .debug ∧ q.op = opCheck) ∧ dataKept s t) ∧
      answers (.relock key) s (fun t => t = if key = 0xD3B6#16 then { s with sec := { s.sec with unlocked := false } } else s)) ∧
    (answers .debugLockoutEnd s fun t => t = { s with sec := { s.sec with lockout := 0 } })

/-! ### Debug and freeze -/

/-- R514, R515, R533: what the instructions of the test access port capture, and how the freeze record is read; R10, R556, R557: a
register written by a master, and a write that the mode rejects. That a withheld instruction captures 0 is the model's choice of what
BYPASS shows in its register.
The model's own choices are in notes/assumptions/46.md. -/
def Obligations.DebugPortReadsAndWritesRegisters : Prop :=
  ∀ (s : State) (we : Bool) (a : Addr) (v : Word) (m : Master),
    let head := s.rfld rDbgFrzStat 0 2 = 2 ∧ s.rfld rDbgFrSel 0 16 = 0 ∧ s.rfld rDbgFrPtr 0 24 = 2
    let kept := fun (t : State) => t = { s with dbg := t.dbg }
    (answers .bypass s fun t => t.dbg.ir = 31#5 ∧ kept t) ∧
    (answers .tapReset s fun t => t = { s with dbg := { s.dbg with ir := 1#5 } }) ∧
    (answers .idcode s fun t => t.dbg.ir = 1#5 ∧ t.dbg.dr.getLsbD 0 = true ∧ (t.dbg.dr >>> 1).setWidth 11 = Config.manufacturer ∧
      (t.dbg.dr >>> 12).setWidth 16 = 0x0128#16 ∧ (t.dbg.dr >>> 28).setWidth 4 = 1#4 ∧ kept t) ∧
    (s.dbgSec = false → answers (.dbgacc we a v) s fun t => t.dbg.ir = 31#5 ∧ t.dbg.accStat = s.dbg.accStat ∧ kept t) ∧
    (s.dbg.accPend = none → s.dbgSec = true → s.dbgOpen = false → secDbgKind a.toNat = none → answers (.dbgacc we a v) s fun t =>
      t.dbg.ir = 8#5 ∧ t.dbg.accStat = 3#2 ∧ kept t) ∧
    (s.dbgOpen = true →
      (s.dbg.accPend = none → s.mode = .halted → a.toNat < 0x6A0000 ∨ 0x6C0000 ≤ a.toNat → answers (.dbgacc we a v) s fun t => t.dbg.accStat = 2#2 ∧ kept t) ∧
      (s.dbg.accPend = none → s.mode = .run → s.frzTrig = [] → answers (.dbgacc false 0x600000#24 v) s fun t =>
        t.dbg.accData = s.kind.bcId ∧ t.dbg.accStat = 0#2 ∧ kept t) ∧
      (s.dbg.accPend = none → s.mode = .run → s.frzTrig = [] → s.regWaits a.toNat = true → answers (.dbgacc we a v) s fun t =>
        t.dbg.accPend = some (we, a, v) ∧ t.dbg.accStat = 1#2 ∧ kept t) ∧
      (s.dbg.accPend.isSome = true → answers (.dbgacc we a v) s fun t => t = s) ∧
      (s.dbg.accPend = none → answers (.dbgacc true (BitVec.ofNat 24 (rDbgBpAddr 0)) v) s fun t => t.dbg.accStat = 0#2 ∧
        t.rfld (rDbgBpAddr 0) 0 24 = fld v 0 24 ∧ sameRegs s t (fun x => x = rDbgBpAddr 0) ∧ dataKept s t) ∧
      (answers (.dbgFrselWrite v) s fun t => t.reg rDbgFrSel = v &&& 0xFFFF#32 ∧ t.reg rDbgFrPtr = 0#32 ∧
        sameRegs s t (fun x => x = rDbgFrSel ∨ x = rDbgFrPtr) ∧ t = { s with regs := t.regs }) ∧
      (head → (answers .dbgFrdataRead s fun t => t.rdata = 0x7E1AF2E0#32 ∧ t.rfld rDbgFrPtr 0 24 = 3 ∧ sameRegs s t (fun x => x = rDbgFrPtr) ∧
          dataKept s t) ∧
        (answers .frread s fun t => t.dbg.ir = 10#5 ∧ t.dbg.dr = 0x17E1AF2E0#64 ∧ t.rfld rDbgFrPtr 0 24 = 3 ∧ dataKept s t)) ∧
      (s.rfld rDbgFrzStat 0 2 ≠ 2 → answers .frread s fun t => t.dbg.dr = 0#64 ∧ kept t) ∧
      (s.rfld rDbgFrzStat 0 2 = 2 → s.rfld rDbgFrSel 0 8 = 5 → s.sp.ttStep = 4 → answers .frread s fun t => t.dbg.dr = 0#64 ∧
        t.rbit rDbgFrzStat 4 = true ∧ dataKept s t)) ∧
    (s.dbgOpen = false → answers .frread s fun t => t.dbg.ir = 31#5 ∧ kept t) ∧
    (m = .host true true ∨ m = .recov → s.mode ≠ .halted → answers (.registerWrite m (BitVec.ofNat 24 rSpLapAlarm) v) s fun t =>
      t.reg rSpLapAlarm = v ∧ sameRegs s t (fun x => x = rSpLapAlarm) ∧ t = { s with regs := t.regs }) ∧
    (s.mode = .run → fld (v ^^^ s.reg rStcTick) 0 10 ≠ 0 → s.reg rBcRwlRef = 0#32 →
      answers (.registerWrite (.host true true) (BitVec.ofNat 24 rStcTick) v) s fun t => t.reg rStcTick = s.reg rStcTick ∧
        ticked (s.reg rBcRwlCnt) (t.reg rBcRwlCnt) 0 16 ∧ t.reg rBcRwlRef = 0x81601800#32 ∧ t = { s with regs := t.regs })

/-- R516–R522, R561: what the commands of DBG_CMD do to threads and stands, when they are refused and why, and how the registers of a
halted thread are read and written. -/
def Obligations.DebuggerHaltsStepsAndResumes : Prop :=
  ∀ (s : State) (k : Tid) (n : Fin 16) (p : Port) (r : Fin 41) (v : Word),
    let h := s.thr k
    let done := fun (t : State) => t.rbit rDbgCmdStat 1 = true ∧ t.mem = s.mem ∧ t.mode = s.mode
    let ref := fun (reason : Nat) (t : State) => t.rbit rDbgCmdStat 2 = true ∧ t.rfld rDbgCmdStat 8 4 = reason ∧
      sameRegs s t (fun x => x = rDbgCmdStat) ∧ t = { s with regs := t.regs }
    let others := fun (t : State) => ∀ j, j ∉ s.copies k → t.thr j = s.thr j
    let A := s.copyA k
    let b := (s.thr A).port p
    let q := s.thr s.tselRead
    let cmds := ([.haltt k, .resumet k, .stept k, .treset k, .dbgAbort k p, .halts n, .resumes n] : List Instr)
    (s.dbgOpen = false → (∀ c ∈ cmds, answers c s fun t => t = s) ∧ answers (.dbgSholdWrite v) s (fun t => t = s) ∧
      ∀ w, answers (.dbgTregAccess w r v) s fun t => t = s) ∧
    (s.dbgOpen = true →
      (s.mode ≠ .run → ∀ c ∈ cmds, answers c s (ref 2)) ∧
      (s.mode = .run → h.cls = .idle → ∀ c ∈ ([.haltt k, .resumet k, .stept k, .treset k, .dbgAbort k p] : List Instr), answers c s (ref 3)) ∧
      (s.mode = .run → h.cls ≠ .idle →
        (h.halted = false → (∀ c ∈ ([.resumet k, .stept k, .dbgAbort k p] : List Instr), answers c s (ref 4))) ∧
        (answers (.haltt k) s fun t => done t ∧ others t ∧ ∀ j ∈ s.copies k, (t.thr j).halted = true ∧
          (t.thr j) = { s.thr j with halted := true, step := (t.thr j).step, haltTag := (t.thr j).haltTag }) ∧
        (h.halted = true →
          (answers (.resumet k) s fun t => done t ∧ others t ∧ ∀ j ∈ s.copies k, t.thr j = { s.thr j with halted := false, step := false }) ∧
          (answers (.stept k) s fun t => done t ∧ others t ∧ ∀ j ∈ s.copies k, t.thr j = { s.thr j with halted := false, step := true })) ∧
        (s.standState h.stand = 1 → answers (.treset k) s fun t => done t ∧ others t ∧
          ∀ j ∈ s.copies k, t.thr j = { s.thr j with restarting := true }) ∧
        (s.standState h.stand ≠ 1 → answers (.treset k) s fun t => done t ∧ t.threads = s.threads) ∧
        (h.halted = true → b.bound = true → b.recv = false →
          ((s.chan b.ch).staged = [] → answers (.dbgAbort k p) s fun t => done t ∧ dataKept s t) ∧
          ((s.chan b.ch).staged ≠ [] →
            (answers (.dbgAbort k p) s fun t => done t ∧ (t.chan b.ch).staged = [] ∧ (t.chan b.ch).msgs = (s.chan b.ch).msgs ∧
              ∀ j ∈ s.copies k, ∀ q, (s.thr j).park = some q → q.op.port = p.val → (t.thr j).park = some { q with aborted := true }) ∧
            ((∀ j ∈ s.copies k, (s.thr j).park = none) → answers (.dbgAbort k p) s fun t => (t.thr A).port p = { b with abortp := true } ∧
              sameThreads s t A)))) ∧
      (s.mode = .run → s.standState n = 0 ∨ s.standState n = 5 → answers (.halts n) s (ref 3) ∧ answers (.resumes n) s (ref 3)) ∧
      (s.mode = .run → s.standState n ≠ 0 → s.standState n ≠ 5 →
        (s.rbit rDbgShalt n = false → answers (.resumes n) s (ref 4)) ∧
        (answers (.halts n) s fun t => done t ∧ t.rbit rDbgShalt n = true ∧
          (∀ j ∈ s.standThreads n, s.rbit rDbgShalt n = false → (t.thr j).halted = true) ∧ t.standState n = s.standState n ∧
          ∀ j, j ∉ s.standThreads n → t.thr j = s.thr j) ∧
        (s.rbit rDbgShalt n = true → answers (.resumes n) s fun t => done t ∧ t.rbit rDbgShalt n = false ∧
          (∀ j ∈ s.standThreads n, (t.thr j).halted = false) ∧
          ((∀ q, s.tmDfrz q = false ∨ (s.tmr q).stand ≠ n.val) → ∀ j, j ∉ s.standThreads n → t.thr j = s.thr j))) ∧
      (s.mode = .run → (s.stand n).step = .restored → s.standState n = 2 → s.rbit rDbgShold n = true →
        answers (.standRelease n []) s fun t => t.standState n = 4 ∧ sameRegs s t (fun x => x = rStcStat n) ∧
          t = { s with regs := t.regs, ses := t.ses }) ∧
      (answers (.dbgSholdWrite v) s fun t => t.reg rDbgShold = v &&& 0xFFFF#32 ∧
        (s.mode = .run → s.standState n = 4 → v.getLsbD n = false → t.standState n = 1) ∧
        (s.mode = .run → (∀ j, j < 16 → s.standState j ≠ 4) → sameRegs s t (fun x => x = rDbgShold) ∧ t = { s with regs := t.regs })) ∧
      (s.rfld rDbgTsel 0 7 = k.val →
        (h.halted = false → ∀ w, answers (.dbgTregAccess w r v) s fun t => t.rbit rDbgCmdStat 2 = true ∧
          t.rfld rDbgCmdStat 8 4 = 4 ∧ dataKept s t) ∧
        (h.halted = true →
          (answers (.dbgTregAccess false r v) s fun t => t = { s with rdata := t.rdata } ∧ (r.val = 0 → t.rdata = q.pc.setWidth 32) ∧
            (1 ≤ r.val → r.val < 16 → t.rdata = q.rg r) ∧ (r.val = 37 → t.rdata = q.tst) ∧ (r.val = 40 → t.rdata = q.evp.setWidth 32)) ∧
          (answers (.dbgTregAccess true r v) s fun t => others t ∧ t.mem = s.mem ∧ ∀ j ∈ s.copies k,
            (r.val = 0 → (t.thr j).pc = v.setWidth 24) ∧
            (1 ≤ r.val → r.val < 16 → (t.thr j).rg r = v ∧ ∀ x : Nat, x ≠ r.val → (t.thr j).rg x = (s.thr j).rg x) ∧
            (r.val = 38 → (t.thr j).tvec = v.setWidth 24) ∧ (r.val = 40 → (t.thr j).evp = (s.thr j).evp &&& ~~~ (v.setWidth 8))))))

/-- R507, R526–R529, R531, R532, R538: triggers act in RUN alone; the request makes the block HALTED; completion shows every domain that
acknowledged; an alarm in a freeze resets the block or is held; RESUME ends the freeze, and is refused with none or with FREEZE_N low.
A domain whose clock starts late gates then.
The model's own choices are in notes/assumptions/58.md. -/
def Obligations.FreezesStopTheBlockAndResumesRelease : Prop :=
  ∀ (s : State) (cycles src : Nat) (rest : List Nat) (stopped : List (Fin 60)) (d : Fin 60), src < 16 →
    let st := s.rfld rDbgFrzStat 0 2
    let r := s.reg (rSecResp src)
    let started := fun (bit : Nat) (t : State) =>
      (s.mode = .run → t.frzTrig = s.frzTrig ++ [bit] ∧ t.rbit rDbgFrzCause bit = true) ∧
      (s.mode = .halted → t.frzTrig = s.frzTrig ∧ t.rbit rDbgFrzCause bit = true) ∧
      (s.mode ≠ .run → s.mode ≠ .halted → t.frzTrig = s.frzTrig ∧ t.rbit rDbgFrzStat 2 = true ∧ t.reg rDbgFrzCause = s.reg rDbgFrzCause) ∧
      t.mode = s.mode ∧ dataKept s t
    let acked := fun (t : State) (k : Nat) => t.rbit (rDbgFrzAck (k / 32)) (k % 32)
    let first := d.val = 14 ∨ d.val = 17 ∨ d.val = 18 ∨ d.val = 59 ∨ (d.val < 8 ∧ s.kind.engines ≤ d.val) ∨
      (19 ≤ d.val ∧ d.val < 27 ∧ s.kind.links ≤ (d.val - 19) % 4) ∨ (27 ≤ d.val ∧ d.val < 59 ∧ s.kind.ses ≤ d.val - 27)
    let frozen := fun (t : State) => t.rfld rDbgFrzStat 0 2 = 2 ∧ t.mode = .halted ∧ t.stands = s.stands ∧ t.chans = s.chans ∧
      (s.sp.copy = none → ticked (s.reg rDbgFrzCnt) (t.reg rDbgFrzCnt) 0 16 ∧ dataKept s t)
    answers .freezeNLow s (started 0) ∧
    (s.dbgOpen = true → answers .dbgFreeze s fun t => started 1 t ∧ t.rbit rDbgCmdStat 1 = true) ∧
    (s.dbgOpen = false → answers .dbgFreeze s fun t => t = s) ∧
    (s.mode = .run → s.frzTrig ≠ [] → answers .freezeRequest s fun t => t.mode = .halted ∧ t.rfld rDbgFrzStat 0 2 = 1 ∧ t.frzTrig = [] ∧
      (∀ k, k < 7 → t.rbit rDbgFrzCause k = s.frzTrig.contains k) ∧ (acked t d = true ↔ first) ∧ dataKept s t) ∧
    (s.mode ≠ .run ∨ s.frzTrig = [] → answers .freezeRequest s fun t => t = s) ∧
    (st = 1 → answers (.freezeComplete cycles) s fun t => frozen t ∧ t.rfld rDbgFrzCnt 16 16 = min 65535 cycles ∧ ∀ k, k < 60 → acked t k = true) ∧
    (st = 1 → answers (.freezeAckTimeout stopped) s fun t => frozen t ∧
      t.rfld rDbgFrzCnt 16 16 = min 65535 (max 1 (s.rfld rDbgFrzCfg 0 16) * 256) ∧
      (acked t d = false ↔ d ∈ stopped ∧ ¬ first)) ∧
    (s.mode = .halted → s.raised = src :: rest →
      (r.getLsbD 1 = true ∨ r.getLsbD 3 = true → answers .freezeAlarm s fun t => t.mode = .boot ∧ t.phase = 1 ∧ t.threads = [] ∧ t.mem = [] ∧
        t.reg rBcRstCause = BitVec.ofNat 32 (4 + 16 * src + 8 * b2n (s.rbit rBcRstCause 3))) ∧
      (r.getLsbD 1 = false → r.getLsbD 3 = false → answers .freezeAlarm s fun t => t.mode = .halted ∧ t.raised = rest ∧
        t.sec.held = (if r.getLsbD 2 = true then s.sec.held ++ [src] else s.sec.held) ∧
        (r.getLsbD 0 = true → t.rbit rDbgFrzCause 5 = true) ∧ t.frzTrig = s.frzTrig ∧ t.stands = s.stands ∧ dataKept s t)) ∧
    (s.dbgOpen = true →
      (st = 0 → ∀ b, answers (.resume b) s fun t => t.rbit rDbgCmdStat 2 = true ∧ t.rfld rDbgCmdStat 8 4 = 4 ∧
        sameRegs s t (fun x => x = rDbgCmdStat) ∧ t = { s with regs := t.regs }) ∧
      (st ≠ 0 → answers (.resume false) s fun t => t.rbit rDbgCmdStat 2 = true ∧ t.rbit rDbgFrzStat 3 = true ∧ t.mode = s.mode ∧
        t = { s with regs := t.regs }) ∧
      (st ≠ 0 → s.det.due = [] → s.sec.held = [] → ∀ n, n < 16 → s.standState n = 4 → s.rbit rDbgShold n = false →
        answers (.resume true) s fun t => t.standState n = 1) ∧
      (st ≠ 0 → s.det.due = [] → (∀ j, j < 16 → s.standState j ≠ 4) → answers (.resume true) s fun t => t.mode = .run ∧ t.rfld rDbgFrzStat 0 2 = 0 ∧ t.frzTrig = [] ∧
        t.sec.held = [] ∧ t.rbit rDbgCmdStat 1 = true ∧ t.bt.first = true ∧ t.ports.cpDiscard = s.ports.cpCur.isSome ∧ dataKept s t ∧
        (src ∈ s.sec.held → ∀ n, n < 16 → r.getLsbD (16 + n) = true → s.standState n ≠ 0 → s.standState n ≠ 5 →
          (t.stand n).causes.testBit 6 = true))) ∧
    (s.mode = .halted → st = 2 → s.dbg.notack.testBit d.val = true → s.dbg.late.testBit d.val = false →
      answers (.stoppedClockStart d) s fun t => acked t d.val = true ∧ t.mode = .halted ∧ t.dbg.late.testBit d.val = true ∧
        (27 ≤ d.val → d.val ≤ 58 → t.se (d.val - 27) = { s.se (d.val - 27) with stopped := false }) ∧
        sameRegs s t (fun x => x = rDbgFrzAck (d.val / 32)) ∧ dataKept s t) ∧
    (s.mode ≠ .halted → 27 ≤ d.val → d.val ≤ 58 → s.dbg.accPend = none → s.ports.hostQ = [] →
      (∀ k, (s.thr k).held = [] ∧ (s.thr k).defer = []) → answers (.stoppedClockStart d) s fun t =>
        t.se (d.val - 27) = { s.se (d.val - 27) with
          stopped := false
          inRst := (s.se (d.val - 27)).inRst && decide (s.standState (s.seStand (d.val - 27)) ≠ 1) } ∧
        t = { s with ses := t.ses }) ∧
    (s.mode ≠ .halted → d.val < 27 ∨ d.val = 59 → answers (.stoppedClockStart d) s fun t => t = s) ∧
    (s.mode = .halted → ∀ (n : Fin 64) (k : Fin 4) (c : Fin 4096) (j : Tid) (e : Fin 32) (i : Fin 256) (q : Fin 272) (m : Master) (f : LinkFrame) (v : Word)
      (u : Iss), (∀ x ∈ ([.ppsEdge cycles, .timerMatch n, .timerWrap n, .timerCountEvent n, .tmnCmpWrite n v, .routeFire ⟨i, q⟩, .poolScrub c .corrected,
        .mcHput m ⟨0, by decide⟩ v, .loadDataReturn j, .storeGrant j, .channelResponse j, .laneRecordApply e, .sePush e false false 0,
        .cdataFrame k f, .linkKeepalive k, .governorWindowStart, .periodicCommit, .recorderUpdateApply [], .restart m 0 0x5E7D#16,
        .cipherRequest, .hostResponse, .trHealthFail, .add u .wrap 1 2 3, .ld u .b32 false 1 (.disp 1 0)] : List Instr), answers x s fun t => t = s) ∧
      answers (.padClampPulse ⟨0, by decide⟩) s fun t => (t.pin 0).clamp = true ∧ t.regs = s.regs ∧ dataKept s t)

/-! ### Ports -/

/-- R36–R42, R45, R551, R552: a host request is accepted while fewer than four are outstanding, is answered with the code of R39 or its
result, in the order of acceptance, and errors are recorded in XP_HPERR; R324: a host read of the low word of a pair answers it and
latches the high word of the same moment, and the read of the high word that follows takes the latched word.
The model's own choices are in notes/assumptions/52.md. -/
def Obligations.HostRequestsAreAnsweredInOrder : Prop :=
  (∀ (s : State) (we : Bool) (a : Addr) (size : Fin 4) (v : Word) (sec priv : Bool) (r : HostReq) (l : List HostReq) (code : Nat) (d : Word),
    let ask := fun (we : Bool) (a : Addr) (size : Fin 4) => Instr.hostRequest we a size v sec priv
    let only := fun (we : Bool) (a : Addr) (size : Fin 4) (sent : Bool) (ans : Option (Nat × Word)) (t : State) => t.ports.hostQ =
      [{ we := we, addr := a, size := size, wdata := v, sec := sec, priv := priv, sent := sent, ans := ans }]
    let open_ := s.rbit rBcMode 8 = true ∧ s.shGroup 0 = false
    (s.mode = .halted ∨ (s.mode = .boot ∧ s.phase = 0) ∨ 4 ≤ s.ports.hostQ.length → answers (ask we a size) s fun t => t = s) ∧
    (s.ports.hostQ = [] → s.mode ≠ .halted → ¬ (s.mode = .boot ∧ s.phase = 0) →
      (¬ open_ → answers (ask we a size) s fun t => only we a size false (some (6, 0#32)) t ∧ t.regs = s.regs ∧ dataKept s t) ∧
      (open_ → s.mode = .boot → answers (ask true a size) s fun t => only true a size false (some (5, 0#32)) t ∧ t.regs = s.regs ∧
        dataKept s t) ∧
      (open_ → answers (ask false (BitVec.ofNat 24 rBcId) 2) s fun t => only false (BitVec.ofNat 24 rBcId) 2 false (some (0, s.kind.bcId)) t ∧
        t.regs = s.regs ∧ dataKept s t) ∧
      (open_ → s.mode ≠ .boot → s.sec.zero ≠ .drained →
        (0x700000 ≤ a.toNat → answers (ask we a size) s fun t => only we a size false (some (2, 0#32)) t ∧ t.regs = s.regs ∧ dataKept s t) ∧
        (a.toNat < s.spLimit → size.val = 3 ∨ a.toNat % 2 ^ size.val ≠ 0 → answers (ask we a size) s fun t =>
          only we a size false (some (3, 0#32)) t ∧ t.regs = s.regs ∧ dataKept s t) ∧
        (a.toNat < s.spLimit → size.val ≠ 3 → a.toNat % 2 ^ size.val = 0 → s.windowAdmits a.toNat sec priv we = false →
          answers (ask we a size) s fun t => only we a size false (some (1, 0#32)) t ∧ dataKept s t) ∧
        (a.toNat < s.spLimit → size.val ≠ 3 → a.toNat % 2 ^ size.val = 0 → s.windowAdmits a.toNat sec priv we = true →
          answers (ask we a size) s fun t => only we a size true none t ∧ t.lane (bankOf a.toNat) 17 = [.host] ∧ t.regs = s.regs ∧
            dataKept s t))) ∧
    (s.mode ≠ .halted → s.ports.hostQ = r :: l → r.ans = some (code, d) → (∀ q ∈ l, q.ans.isSome = true) → code < 8 →
      answers .hostResponse s fun t => t.ports.hostQ = l ∧ t.rdata = d ∧ t.ports.hpRerr = code ∧ dataKept s t ∧
        (code = 0 ∨ code = 6 → t.regs = s.regs) ∧
        (code ≠ 0 → code ≠ 6 → s.rbit rXpHpErr 31 = false → t.rfld rXpHpErr 0 24 = r.addr.toNat ∧ t.rfld rXpHpErr 24 3 = code ∧
          t.rbit rXpHpErr 27 = r.we ∧ t.rbit rXpHpErr 28 = r.sec ∧ t.rbit rXpHpErr 29 = r.priv ∧ t.rbit rXpHpErr 31 = true) ∧
        (code ≠ 0 → code ≠ 6 → s.rbit rXpHpErr 31 = true → t.reg rXpHpErr = s.reg rXpHpErr ||| 0x40000000#32)) ∧
    (s.mode ≠ .halted → s.ports.hostQ = [] → answers .hostResponse s fun t => t = s)) ∧
  (∀ (s : State), s.mode ≠ .halted →
    let low := s.bt.bt.setWidth 32
    let high := (s.bt.bt >>> 32).setWidth 32
    answers (.hostPairLowRead (BitVec.ofNat 24 rBtCntLo)) s (fun t => t = { s with rdata := low, pairLatch := some (rBtCntHi, high) }) ∧
    (∀ v, s.pairLatch = some (rBtCntHi, v) →
      answers (.hostPairHighRead (BitVec.ofNat 24 rBtCntHi)) s (fun t => t = { s with rdata := v, pairLatch := none })) ∧
    (∀ a v, s.pairLatch = some (a, v) → a ≠ rBtCntHi →
      answers (.hostPairHighRead (BitVec.ofNat 24 rBtCntHi)) s (fun t => t = { s with rdata := high })))

/-- R63, R65–R67, R74, R75, R112, R511, R512, R531: the cipher port takes the request of the first user in order, one at a time; what its
result, a fault and a timeout do, shown for the debug challenge; words of the TRNG go to the request that waits longest, and a wait
of more than 10 ms fails P1 or raises source 12.
The model's own choices are in notes/assumptions/53.md. -/
def Obligations.CipherAndRandomPortsServeTheirUsers : Prop :=
  ∀ (s : State) (q : CpReq) (l : List CpReq) (w : Word) (u : TrReq) (k : List TrReq) (stat : Fin 8) (ctl : Word) (rd : List Byte),
    let p := s.ports
    let debugging := p.cpCur = some q ∧ q.user = .debug ∧ s.sec.unlockCtl = some ctl ∧ s.mode ≠ .halted ∧ p.cpDiscard = false
    let counted := fun (t : State) => ticked (s.reg rXpCpStat) (t.reg rXpCpStat) 16 16
    let failed := fun (t : State) => t.ports.cpCur = none ∧ t.sec.unlocked = s.sec.unlocked ∧ t.sec.unlockCtl = none ∧
      ticked (s.reg rSecDbgStat) (t.reg rSecDbgStat) 4 4
    (p.cpCur = none → p.cpWait = q :: l → s.mode ≠ .halted → s.shGroup 1 = false → answers .cipherRequest s fun t =>
      ∃ r ∈ q :: l, (∀ x ∈ q :: l, r.user.rank ≤ x.user.rank) ∧ t.ports.cpCur = some r ∧ t.ports.cpWait = (q :: l).erase r ∧
        t = { s with ports := t.ports }) ∧
    (p.cpCur = some q → answers .cipherRequest s fun t => t = s) ∧
    (debugging → answers (.cipherResult ⟨0, rd⟩) s fun t => t.sec.unlocked = true ∧ t.ports.cpCur = none ∧ t.rfld rSecDbgStat 4 4 = 0 ∧
      dataKept s t) ∧
    (debugging → answers (.cipherResult ⟨2, rd⟩) s fun t => failed t ∧ t.rbit rXpCpStat 4 = true ∧ dataKept s t) ∧
    (debugging → answers (.cipherResult ⟨3, rd⟩) s fun t => failed t ∧ t.rbit rXpCpStat 5 = true ∧ dataKept s t) ∧
    (debugging → stat.val ≠ 0 → stat.val ≠ 2 → stat.val ≠ 3 → ∀ c ∈ ([.cipherResult ⟨stat, rd⟩, .cipherTimeout] : List Instr),
      (p.cpAgain = false → answers c s fun t => counted t ∧ t.ports.cpCur = some q ∧ t.ports.cpAgain = true ∧ t.rbit rXpCpStat 1 = true ∧
        (c = .cipherTimeout → t.rbit rXpCpStat 3 = true) ∧ t.raised = s.raised ∧ t.sec = s.sec ∧ dataKept s t) ∧
      (p.cpAgain = true → answers c s fun t => counted t ∧ failed t ∧ t.rbit rXpCpStat 2 = true ∧ (∃ m, t.raised = s.raised ++ 11 :: m) ∧
        (c = .cipherTimeout → t.rbit rXpCpStat 3 = true) ∧ dataKept s t)) ∧
    (p.cpCur = none → answers (.cipherResult ⟨stat, rd⟩) s (fun t => t = s) ∧ answers .cipherTimeout s (fun t => t = s)) ∧
    (p.cpCur = some { q with user := .gone } → s.mode ≠ .halted → p.cpDiscard = false →
      answers (.cipherResult ⟨stat, rd⟩) s (fun t => t = { s with ports := { p with cpCur := none, cpAgain := false } }) ∧
      answers .cipherTimeout s (fun t => t = { s with ports := { p with cpCur := none, cpAgain := false } })) ∧
    (s.mode ≠ .halted → answers .cipherResumeReissue s fun t => t = { s with ports := { p with cpDiscard := false } }) ∧
    (s.mode ≠ .halted → p.tr = u :: k →
      (u.got.length + 1 < u.want → answers (.trngWord w) s fun t => t.ports.tr = { u with got := u.got ++ [w] } :: k ∧
        t.ports.health = false ∧ (p.health = false → t = { s with ports := t.ports }) ∧
        (p.health = true → t = { s.rset rXpTrStat 0 with ports := t.ports })) ∧
      (∀ w0, u.got = [w0] → u.want = 2 →
        (u.user = .nonce → answers (.trngWord w) s fun t => t.reg (rBcNonce 0) = w0 ∧ t.reg (rBcNonce 1) = w ∧ t.ports.tr = k ∧ dataKept s t) ∧
        (u.user = .recNonce → answers (.trngWord w) s fun t => t.reg (rErNonce 0) = w0 ∧ t.reg (rErNonce 1) = w ∧ t.ports.tr = k ∧ dataKept s t) ∧
        (u.user = .debug → answers (.trngWord w) s fun t => t.reg (rSecDbgCh 0) = w0 ∧ t.reg (rSecDbgCh 1) = w ∧ t.ports.tr = k ∧ dataKept s t)) ∧
      (∀ w0 w1 w2, u.got = [w0, w1, w2] → u.want = 4 →
        (u.user = .zero → answers (.trngWord w) s fun t => t.sp.resv = some (w ++ w2 ++ w1 ++ w0) ∧ t.rbit rSecStat 4 = true ∧ t.ports.tr = k) ∧
        (u.user = .key → s.mode = .boot → s.phase = 1 → answers (.trngWord w) s fun t => t.phase = 2 ∧ t.sp.key = w ++ w2 ++ w1 ++ w0 ∧
          t.sp.resv = none ∧ t.rbit rSecStat 3 = false ∧ t.ports.tr = k ++ [{ user := .zero, want := 4 }]))) ∧
    (s.mode ≠ .halted → p.tr = [] → answers (.trngWord w) s fun t =>
      t = { (if p.health then s.rset rXpTrStat 0 else s) with ports := { p with health := false } }) ∧
    (p.tr ≠ [] →
      (s.mode = .boot → answers .trngWaitTimeout s fun t => t.mode = .recovery ∧ t.rfld rBcBootErr 0 8 = 0x13 ∧ t.mem = []) ∧
      (s.mode = .run → answers .trngWaitTimeout s fun t => t.rbit rXpTrStat 2 = true ∧ t.raised = s.raised ++ [12] ∧ dataKept s t)) ∧
    (s.mode ≠ .halted → answers .trHealthFail s fun t => t.ports.health = true ∧ t.rbit rXpTrStat 0 = true ∧ dataKept s t) ∧
    (s.mode = .halted → answers .trHealthFail s fun t => t = s)

/-! ### The machine -/

/-- A step with a command at the front of the queue is that command's meaning on the state with the queue's rest. -/
def Obligations.StepRunsTheFrontCommand : Prop :=
  ∀ (c : Instr) (s : State) (q : List Instr), s.pending = c :: q → step s = exec c { s with pending := q }

/-- With no command waiting a step is one TCLK cycle, the model's choice (notes/assumptions/2.md): BT advances by 1 + ADJ/2^32 (R328) and a
running timer's prescaler and count by R310; in a freeze nothing happens (R530). -/
def Obligations.EmptyQueueStepIsOneTick : Prop :=
  ∀ (s : State) (n : Fin 64), s.pending = [] →
    let T := s.bt.frac.toNat + ((2 ^ 32 : Int) + (s.reg rBtAdj).toInt).toNat
    ∃ t, step s = .next t ∧ t.chans = s.chans ∧ t.mem = s.mem ∧ (∀ k, t.thr k = { s.thr k with stall := (t.thr k).stall }) ∧ t.pending = [] ∧ (s.mode = .halted → t = s) ∧ (s.bt.on = false → t.bt = s.bt) ∧
      (s.mode ≠ .halted → s.bt.on = true → t.bt.bt = s.bt.bt + BitVec.ofNat 64 (T / 2 ^ 32) ∧ t.bt.frac = BitVec.ofNat 32 T) ∧
      (s.tmrs.map Prod.fst = [n.val] → s.tmRuns n = true → s.tmLinked n = false → s.rbit (rTmCtl n) 1 = false →
        ((s.tmr n).p = s.rfld (rTmCtl n) 16 16 → t.reg (rTmCnt n) = s.reg (rTmCnt n) + 1#32 ∧ (t.tmr n).p = 0) ∧
        ((s.tmr n).p ≠ s.rfld (rTmCtl n) 16 16 → t.reg (rTmCnt n) = s.reg (rTmCnt n) ∧ (t.tmr n).p = (s.tmr n).p + 1))

/-- R14, R25, R94, R514: what a cold reset leaves, before P0 has run: the mode, the registers whose reset value is not 0, IDCODE selected,
no command waiting; and storage in its canonical form.
The model's own choices are in notes/assumptions/59.md. -/
def Obligations.ResetHoldsTheSpecsValues : Prop :=
  let s := State.reset
  s.mode = .boot ∧ s.phase = 0 ∧ s.pending = [] ∧ s.dbg.ir = 1#5 ∧ s.canon ∧
  s.reg rBcId = 0x01280103#32 ∧ s.reg rBcCap = 0x00182048#32 ∧ s.reg rStcTick = 99#32 ∧ s.reg rBtDisc = 0x1620#32 ∧
  s.reg rBtStepMax = 256#32 ∧ s.reg rSpCfg = 0x01000301#32 ∧ s.reg rPgStat = 2#32 ∧ s.reg rLkGCfg = 0x000A0140#32 ∧
  s.reg rLkRoute = 0x00FF0000#32 ∧ s.reg rErCfg = 60#32 ∧ s.reg rErCmStat = 0x800#32 ∧ s.reg rDbgFrzCfg = 256#32 ∧
  s.reg rXpFlCfg = 0x00640063#32 ∧ s.reg rXpCpCfg = 0xFFFF#32 ∧ s.reg rXpNvCfg = 0x70#32 ∧
  (∀ n, n < 16 → s.standState n = 5) ∧ (∀ e, e < 8 → s.reg (rECfg e) = 0x00400009#32) ∧
  (∀ n, n < 32 → s.reg (rSeClk n) = 256#32 ∧ s.reg (rSeThr n) = 0x00082020#32) ∧ (∀ n, n < 192 → (s.reg (rPgPinStat n)).getLsbD 3 = true) ∧
  (∀ n, n < 4 → s.reg (rLkCtl n) = 0x03E80200#32) ∧ (∀ k, k < 8 → s.rbit rSecAlStat (16 + k) = true) ∧
  (∀ t r, (s.thr t).rg r = 0#32) ∧ (∀ a, 0x6B0000 ≤ a → a < 0x6B0200 → s.reg a = 0#32)

/-- Every step goes on, whatever the state; a step from a state whose memory and unit registers stand in canonical form leaves them so;
and no command changes the queue of those behind it. -/
def Obligations.EveryStepGoesOnInCanonicalForm : Prop :=
  (∀ s, goesOn s) ∧ (∀ s t, s.canon → step s = .next t → t.canon) ∧ (∀ c s t, exec c s = .next t → t.pending = s.pending)
end

