-- ==== Sys2Proof/Laws/Bank.lean ====
section
/-! SUPPORT. The basic laws of sparse storage: a read after a write, and that every operation keeps the canonical form. -/
namespace Sys2Proof
namespace Machine
variable {α : Type}

theorem Bank.get_drop_same (d : Nat → α) (b : List (Nat × α)) (k : Nat) : Bank.get d (Bank.drop b k) k = d k := by
  induction b with
  | nil => rfl
  | cons p r ih =>
    obtain ⟨j, v⟩ := p
    by_cases h : k = j <;> simp [Bank.drop, Bank.get, h, ih]
    subst h; exact ih

theorem Bank.get_drop_other (d : Nat → α) (b : List (Nat × α)) {k n : Nat} (hn : n ≠ k) :
    Bank.get d (Bank.drop b k) n = Bank.get d b n := by
  induction b with
  | nil => rfl
  | cons p r ih =>
    obtain ⟨j, v⟩ := p
    by_cases h : k = j
    · subst h; simp [Bank.drop, Bank.get, hn, ih]
    · by_cases h2 : n = j <;> simp [Bank.drop, Bank.get, h, h2, ih]

theorem Bank.get_insert_same (d : Nat → α) (b : List (Nat × α)) (k : Nat) (v : α) (h : ∀ p ∈ b, p.1 ≠ k) :
    Bank.get d (Bank.insert b k v) k = v := by
  induction b with
  | nil => simp [Bank.insert, Bank.get]
  | cons p r ih =>
    obtain ⟨j, w⟩ := p
    have hj : ¬ k = j := fun e => h (j, w) (by simp) e.symm
    by_cases hl : k < j
    · simp [Bank.insert, Bank.get, hl]
    · simp [Bank.insert, Bank.get, hl, hj, ih (fun p hp => h p (by simp [hp]))]

theorem Bank.get_insert_other (d : Nat → α) (b : List (Nat × α)) {k n : Nat} (v : α) (hn : n ≠ k) :
    Bank.get d (Bank.insert b k v) n = Bank.get d b n := by
  induction b with
  | nil => simp [Bank.insert, Bank.get, hn]
  | cons p r ih =>
    obtain ⟨j, w⟩ := p
    by_cases hl : k < j <;> by_cases h2 : n = j <;> simp [Bank.insert, Bank.get, hl, hn, h2, ih]
    all_goals (subst h2; simp [hn])

theorem Bank.mem_drop {b : List (Nat × α)} {k : Nat} : ∀ p ∈ Bank.drop b k, p.1 ≠ k := by
  induction b with
  | nil => simp [Bank.drop]
  | cons p r ih =>
    obtain ⟨j, v⟩ := p
    by_cases h : k = j
    · subst h; simpa [Bank.drop] using ih
    · intro q hq
      simp only [Bank.drop, h, if_false, List.mem_cons] at hq
      rcases hq with rfl | hq
      · exact fun e => h e.symm
      · exact ih q hq

/-- A read after a write gives the value written. -/
@[simp] theorem Bank.get_put_same [DecidableEq α] (d : Nat → α) (b : List (Nat × α)) (k : Nat) (v : α) :
    Bank.get d (Bank.put d b k v) k = v := by
  by_cases h : v = d k
  · simp [Bank.put, h, Bank.get_drop_same]
  · simp [Bank.put, h, Bank.get_insert_same d _ k v Bank.mem_drop]

/-- A write leaves every other number alone. -/
theorem Bank.get_put_other [DecidableEq α] (d : Nat → α) (b : List (Nat × α)) {k n : Nat} (v : α) (hn : n ≠ k) :
    Bank.get d (Bank.put d b k v) n = Bank.get d b n := by
  by_cases h : v = d k
  · simp [Bank.put, h, Bank.get_drop_other d b hn]
  · simp [Bank.put, h, Bank.get_insert_other d _ v hn, Bank.get_drop_other d b hn]

/-- The two laws as one rewriting rule. -/
theorem Bank.get_put [DecidableEq α] (d : Nat → α) (b : List (Nat × α)) (k n : Nat) (v : α) :
    Bank.get d (Bank.put d b k v) n = if n = k then v else Bank.get d b n := by
  by_cases h : n = k
  · subst h; simp
  · simp [h, Bank.get_put_other d b v h]

theorem Bank.wfFrom_weaken [DecidableEq α] (d : Nat → α) {m n : Nat} (b : List (Nat × α)) (hmn : m ≤ n)
    (h : Bank.wfFrom d n b = true) : Bank.wfFrom d m b = true := by
  cases b with
  | nil => rfl
  | cons p r =>
    obtain ⟨j, v⟩ := p
    simp only [Bank.wfFrom, Bool.and_eq_true, decide_eq_true_eq] at h ⊢
    exact ⟨⟨by omega, h.1.2⟩, h.2⟩

theorem Bank.wfFrom_drop [DecidableEq α] (d : Nat → α) (b : List (Nat × α)) (k : Nat) :
    ∀ n, Bank.wfFrom d n b = true → Bank.wfFrom d n (Bank.drop b k) = true := by
  induction b with
  | nil => intro n _; rfl
  | cons p r ih =>
    obtain ⟨j, v⟩ := p
    intro n h
    simp only [Bank.wfFrom, Bool.and_eq_true, decide_eq_true_eq] at h
    by_cases hk : k = j
    · simpa [Bank.drop, hk] using Bank.wfFrom_weaken d _ (by omega) (ih (j + 1) h.2 |> fun x => hk ▸ x)
    · simp only [Bank.drop, hk, if_false, Bank.wfFrom, Bool.and_eq_true, decide_eq_true_eq]
      exact ⟨h.1, ih _ h.2⟩

theorem Bank.wfFrom_insert [DecidableEq α] (d : Nat → α) (b : List (Nat × α)) (k : Nat) (v : α) (hv : v ≠ d k) :
    ∀ n, n ≤ k → Bank.wfFrom d n b = true → (∀ p ∈ b, p.1 ≠ k) → Bank.wfFrom d n (Bank.insert b k v) = true := by
  induction b with
  | nil => intro n hn _ _; simp [Bank.insert, Bank.wfFrom, hn, hv]
  | cons p r ih =>
    obtain ⟨j, w⟩ := p
    intro n hn h hp
    simp only [Bank.wfFrom, Bool.and_eq_true, decide_eq_true_eq] at h
    have hj : j ≠ k := hp (j, w) (by simp)
    by_cases hl : k < j
    · simp only [Bank.insert, hl, if_true, Bank.wfFrom, Bool.and_eq_true, decide_eq_true_eq]
      exact ⟨⟨hn, by simpa using hv⟩, ⟨by omega, h.1.2⟩, h.2⟩
    · simp only [Bank.insert, hl, if_false, Bank.wfFrom, Bool.and_eq_true, decide_eq_true_eq]
      exact ⟨h.1, ih (j + 1) (by omega) h.2 (fun p q => hp p (by simp [q]))⟩

/-- A write keeps the canonical form. -/
theorem Bank.wf_put [DecidableEq α] (d : Nat → α) (b : List (Nat × α)) (k : Nat) (v : α) (h : Bank.wf d b = true) :
    Bank.wf d (Bank.put d b k v) = true := by
  by_cases hv : v = d k
  · simpa [Bank.wf, Bank.put, hv] using Bank.wfFrom_drop d b k 0 h
  · simpa [Bank.wf, Bank.put, hv] using
      Bank.wfFrom_insert d (Bank.drop b k) k v hv 0 (Nat.zero_le k) (Bank.wfFrom_drop d b k 0 h) Bank.mem_drop

theorem Bank.wfFrom_filter [DecidableEq α] (d : Nat → α) (p : Nat × α → Bool) (b : List (Nat × α)) :
    ∀ n, Bank.wfFrom d n b = true → Bank.wfFrom d n (b.filter p) = true := by
  induction b with
  | nil => intro n _; rfl
  | cons q r ih =>
    obtain ⟨j, v⟩ := q
    intro n h
    simp only [Bank.wfFrom, Bool.and_eq_true, decide_eq_true_eq] at h
    by_cases hq : p (j, v) = true
    · simp only [List.filter_cons, hq, if_true, Bank.wfFrom, Bool.and_eq_true, decide_eq_true_eq]
      exact ⟨h.1, ih _ h.2⟩
    · simp only [List.filter_cons, hq]
      exact Bank.wfFrom_weaken d _ (by omega) (ih (j + 1) h.2)

/-- Entries taken away keep the canonical form. -/
theorem Bank.wf_filter [DecidableEq α] (d : Nat → α) (p : Nat × α → Bool) (b : List (Nat × α)) (h : Bank.wf d b = true) :
    Bank.wf d (b.filter p) = true := Bank.wfFrom_filter d p b 0 h

theorem Bank.clear_eq_filter (p : Nat → Bool) (b : List (Nat × α)) : Bank.clear p b = b.filter (fun q => !p q.1) := by
  induction b with
  | nil => rfl
  | cons q r ih =>
    obtain ⟨j, v⟩ := q
    by_cases hq : p j = true <;> simp [Bank.clear, List.filter_cons, hq, ih]

/-- Numbers cleared keep the canonical form. -/
theorem Bank.wf_clear [DecidableEq α] (d : Nat → α) (p : Nat → Bool) (b : List (Nat × α)) (h : Bank.wf d b = true) :
    Bank.wf d (Bank.clear p b) = true := by rw [Bank.clear_eq_filter]; exact Bank.wf_filter d _ b h

end Machine
end Sys2Proof
end

