-- ==== Sys2Proof/Laws/State.lean ====
section
/-! SUPPORT. The small laws of State: one lemma per field and basic update, true by rfl; then reads after writes. -/
namespace Sys2Proof
namespace Machine
variable (s : State)

@[simp] theorem State.setReg_pending (a : Nat) (v : Word) : (s.setReg a v).pending = s.pending := rfl
@[simp] theorem State.setReg_mode (a : Nat) (v : Word) : (s.setReg a v).mode = s.mode := rfl
@[simp] theorem State.setReg_phase (a : Nat) (v : Word) : (s.setReg a v).phase = s.phase := rfl
@[simp] theorem State.setReg_kind (a : Nat) (v : Word) : (s.setReg a v).kind = s.kind := rfl
@[simp] theorem State.setReg_power (a : Nat) (v : Word) : (s.setReg a v).power = s.power := rfl
@[simp] theorem State.setReg_mem (a : Nat) (v : Word) : (s.setReg a v).mem = s.mem := rfl
@[simp] theorem State.setReg_upset (a : Nat) (v : Word) : (s.setReg a v).upset = s.upset := rfl
@[simp] theorem State.setReg_threads (a : Nat) (v : Word) : (s.setReg a v).threads = s.threads := rfl
@[simp] theorem State.setReg_chans (a : Nat) (v : Word) : (s.setReg a v).chans = s.chans := rfl
@[simp] theorem State.setReg_pool (a : Nat) (v : Word) : (s.setReg a v).pool = s.pool := rfl
@[simp] theorem State.setReg_stamp (a : Nat) (v : Word) : (s.setReg a v).stamp = s.stamp := rfl
@[simp] theorem State.setReg_draws (a : Nat) (v : Word) : (s.setReg a v).draws = s.draws := rfl
@[simp] theorem State.setReg_fires (a : Nat) (v : Word) : (s.setReg a v).fires = s.fires := rfl
@[simp] theorem State.setReg_delivs (a : Nat) (v : Word) : (s.setReg a v).delivs = s.delivs := rfl
@[simp] theorem State.setReg_busyV (a : Nat) (v : Word) : (s.setReg a v).busyV = s.busyV := rfl
@[simp] theorem State.setReg_sp (a : Nat) (v : Word) : (s.setReg a v).sp = s.sp := rfl
@[simp] theorem State.setReg_tmrs (a : Nat) (v : Word) : (s.setReg a v).tmrs = s.tmrs := rfl
@[simp] theorem State.setReg_bt (a : Nat) (v : Word) : (s.setReg a v).bt = s.bt := rfl
@[simp] theorem State.setReg_pairLatch (a : Nat) (v : Word) : (s.setReg a v).pairLatch = s.pairLatch := rfl
@[simp] theorem State.setReg_shadow (a : Nat) (v : Word) : (s.setReg a v).shadow = s.shadow := rfl
@[simp] theorem State.setReg_rdata (a : Nat) (v : Word) : (s.setReg a v).rdata = s.rdata := rfl
@[simp] theorem State.setReg_recd (a : Nat) (v : Word) : (s.setReg a v).recd = s.recd := rfl
@[simp] theorem State.setReg_aon (a : Nat) (v : Word) : (s.setReg a v).aon = s.aon := rfl
@[simp] theorem State.setReg_raised (a : Nat) (v : Word) : (s.setReg a v).raised = s.raised := rfl
@[simp] theorem State.setReg_frzTrig (a : Nat) (v : Word) : (s.setReg a v).frzTrig = s.frzTrig := rfl
@[simp] theorem State.setReg_stands (a : Nat) (v : Word) : (s.setReg a v).stands = s.stands := rfl
@[simp] theorem State.setReg_det (a : Nat) (v : Word) : (s.setReg a v).det = s.det := rfl
@[simp] theorem State.setReg_ses (a : Nat) (v : Word) : (s.setReg a v).ses = s.ses := rfl
@[simp] theorem State.setReg_cals (a : Nat) (v : Word) : (s.setReg a v).cals = s.cals := rfl
@[simp] theorem State.setReg_otp (a : Nat) (v : Word) : (s.setReg a v).otp = s.otp := rfl
@[simp] theorem State.setReg_gen (a : Nat) (v : Word) : (s.setReg a v).gen = s.gen := rfl
@[simp] theorem State.setReg_image (a : Nat) (v : Word) : (s.setReg a v).image = s.image := rfl
@[simp] theorem State.setReg_pins (a : Nat) (v : Word) : (s.setReg a v).pins = s.pins := rfl
@[simp] theorem State.setReg_zones (a : Nat) (v : Word) : (s.setReg a v).zones = s.zones := rfl
@[simp] theorem State.setReg_pads (a : Nat) (v : Word) : (s.setReg a v).pads = s.pads := rfl
@[simp] theorem State.setReg_ports (a : Nat) (v : Word) : (s.setReg a v).ports = s.ports := rfl
@[simp] theorem State.setReg_svcs (a : Nat) (v : Word) : (s.setReg a v).svcs = s.svcs := rfl
@[simp] theorem State.setReg_links (a : Nat) (v : Word) : (s.setReg a v).links = s.links := rfl
@[simp] theorem State.setReg_frzWait (a : Nat) (v : Word) : (s.setReg a v).frzWait = s.frzWait := rfl
@[simp] theorem State.setReg_recovQ (a : Nat) (v : Word) : (s.setReg a v).recovQ = s.recovQ := rfl
@[simp] theorem State.setReg_sec (a : Nat) (v : Word) : (s.setReg a v).sec = s.sec := rfl
@[simp] theorem State.setReg_dbg (a : Nat) (v : Word) : (s.setReg a v).dbg = s.dbg := rfl
@[simp] theorem State.setReg_boot (a : Nat) (v : Word) : (s.setReg a v).boot = s.boot := rfl

@[simp] theorem State.setThr_pending (n : Nat) (h : Thread) : (s.setThr n h).pending = s.pending := rfl
@[simp] theorem State.setThr_mode (n : Nat) (h : Thread) : (s.setThr n h).mode = s.mode := rfl
@[simp] theorem State.setThr_phase (n : Nat) (h : Thread) : (s.setThr n h).phase = s.phase := rfl
@[simp] theorem State.setThr_kind (n : Nat) (h : Thread) : (s.setThr n h).kind = s.kind := rfl
@[simp] theorem State.setThr_power (n : Nat) (h : Thread) : (s.setThr n h).power = s.power := rfl
@[simp] theorem State.setThr_regs (n : Nat) (h : Thread) : (s.setThr n h).regs = s.regs := rfl
@[simp] theorem State.setThr_mem (n : Nat) (h : Thread) : (s.setThr n h).mem = s.mem := rfl
@[simp] theorem State.setThr_upset (n : Nat) (h : Thread) : (s.setThr n h).upset = s.upset := rfl
@[simp] theorem State.setThr_chans (n : Nat) (h : Thread) : (s.setThr n h).chans = s.chans := rfl
@[simp] theorem State.setThr_pool (n : Nat) (h : Thread) : (s.setThr n h).pool = s.pool := rfl
@[simp] theorem State.setThr_stamp (n : Nat) (h : Thread) : (s.setThr n h).stamp = s.stamp := rfl
@[simp] theorem State.setThr_draws (n : Nat) (h : Thread) : (s.setThr n h).draws = s.draws := rfl
@[simp] theorem State.setThr_fires (n : Nat) (h : Thread) : (s.setThr n h).fires = s.fires := rfl
@[simp] theorem State.setThr_delivs (n : Nat) (h : Thread) : (s.setThr n h).delivs = s.delivs := rfl
@[simp] theorem State.setThr_busyV (n : Nat) (h : Thread) : (s.setThr n h).busyV = s.busyV := rfl
@[simp] theorem State.setThr_sp (n : Nat) (h : Thread) : (s.setThr n h).sp = s.sp := rfl
@[simp] theorem State.setThr_tmrs (n : Nat) (h : Thread) : (s.setThr n h).tmrs = s.tmrs := rfl
@[simp] theorem State.setThr_bt (n : Nat) (h : Thread) : (s.setThr n h).bt = s.bt := rfl
@[simp] theorem State.setThr_pairLatch (n : Nat) (h : Thread) : (s.setThr n h).pairLatch = s.pairLatch := rfl
@[simp] theorem State.setThr_shadow (n : Nat) (h : Thread) : (s.setThr n h).shadow = s.shadow := rfl
@[simp] theorem State.setThr_rdata (n : Nat) (h : Thread) : (s.setThr n h).rdata = s.rdata := rfl
@[simp] theorem State.setThr_recd (n : Nat) (h : Thread) : (s.setThr n h).recd = s.recd := rfl
@[simp] theorem State.setThr_aon (n : Nat) (h : Thread) : (s.setThr n h).aon = s.aon := rfl
@[simp] theorem State.setThr_raised (n : Nat) (h : Thread) : (s.setThr n h).raised = s.raised := rfl
@[simp] theorem State.setThr_frzTrig (n : Nat) (h : Thread) : (s.setThr n h).frzTrig = s.frzTrig := rfl
@[simp] theorem State.setThr_stands (n : Nat) (h : Thread) : (s.setThr n h).stands = s.stands := rfl
@[simp] theorem State.setThr_det (n : Nat) (h : Thread) : (s.setThr n h).det = s.det := rfl
@[simp] theorem State.setThr_ses (n : Nat) (h : Thread) : (s.setThr n h).ses = s.ses := rfl
@[simp] theorem State.setThr_cals (n : Nat) (h : Thread) : (s.setThr n h).cals = s.cals := rfl
@[simp] theorem State.setThr_otp (n : Nat) (h : Thread) : (s.setThr n h).otp = s.otp := rfl
@[simp] theorem State.setThr_gen (n : Nat) (h : Thread) : (s.setThr n h).gen = s.gen := rfl
@[simp] theorem State.setThr_image (n : Nat) (h : Thread) : (s.setThr n h).image = s.image := rfl
@[simp] theorem State.setThr_pins (n : Nat) (h : Thread) : (s.setThr n h).pins = s.pins := rfl
@[simp] theorem State.setThr_zones (n : Nat) (h : Thread) : (s.setThr n h).zones = s.zones := rfl
@[simp] theorem State.setThr_pads (n : Nat) (h : Thread) : (s.setThr n h).pads = s.pads := rfl
@[simp] theorem State.setThr_ports (n : Nat) (h : Thread) : (s.setThr n h).ports = s.ports := rfl
@[simp] theorem State.setThr_svcs (n : Nat) (h : Thread) : (s.setThr n h).svcs = s.svcs := rfl
@[simp] theorem State.setThr_links (n : Nat) (h : Thread) : (s.setThr n h).links = s.links := rfl
@[simp] theorem State.setThr_frzWait (n : Nat) (h : Thread) : (s.setThr n h).frzWait = s.frzWait := rfl
@[simp] theorem State.setThr_recovQ (n : Nat) (h : Thread) : (s.setThr n h).recovQ = s.recovQ := rfl
@[simp] theorem State.setThr_sec (n : Nat) (h : Thread) : (s.setThr n h).sec = s.sec := rfl
@[simp] theorem State.setThr_dbg (n : Nat) (h : Thread) : (s.setThr n h).dbg = s.dbg := rfl
@[simp] theorem State.setThr_boot (n : Nat) (h : Thread) : (s.setThr n h).boot = s.boot := rfl

@[simp] theorem State.setChan_pending (n : Nat) (h : Chan) : (s.setChan n h).pending = s.pending := rfl
@[simp] theorem State.setChan_mode (n : Nat) (h : Chan) : (s.setChan n h).mode = s.mode := rfl
@[simp] theorem State.setChan_phase (n : Nat) (h : Chan) : (s.setChan n h).phase = s.phase := rfl
@[simp] theorem State.setChan_kind (n : Nat) (h : Chan) : (s.setChan n h).kind = s.kind := rfl
@[simp] theorem State.setChan_power (n : Nat) (h : Chan) : (s.setChan n h).power = s.power := rfl
@[simp] theorem State.setChan_regs (n : Nat) (h : Chan) : (s.setChan n h).regs = s.regs := rfl
@[simp] theorem State.setChan_mem (n : Nat) (h : Chan) : (s.setChan n h).mem = s.mem := rfl
@[simp] theorem State.setChan_upset (n : Nat) (h : Chan) : (s.setChan n h).upset = s.upset := rfl
@[simp] theorem State.setChan_threads (n : Nat) (h : Chan) : (s.setChan n h).threads = s.threads := rfl
@[simp] theorem State.setChan_pool (n : Nat) (h : Chan) : (s.setChan n h).pool = s.pool := rfl
@[simp] theorem State.setChan_stamp (n : Nat) (h : Chan) : (s.setChan n h).stamp = s.stamp := rfl
@[simp] theorem State.setChan_draws (n : Nat) (h : Chan) : (s.setChan n h).draws = s.draws := rfl
@[simp] theorem State.setChan_fires (n : Nat) (h : Chan) : (s.setChan n h).fires = s.fires := rfl
@[simp] theorem State.setChan_delivs (n : Nat) (h : Chan) : (s.setChan n h).delivs = s.delivs := rfl
@[simp] theorem State.setChan_busyV (n : Nat) (h : Chan) : (s.setChan n h).busyV = s.busyV := rfl
@[simp] theorem State.setChan_sp (n : Nat) (h : Chan) : (s.setChan n h).sp = s.sp := rfl
@[simp] theorem State.setChan_tmrs (n : Nat) (h : Chan) : (s.setChan n h).tmrs = s.tmrs := rfl
@[simp] theorem State.setChan_bt (n : Nat) (h : Chan) : (s.setChan n h).bt = s.bt := rfl
@[simp] theorem State.setChan_pairLatch (n : Nat) (h : Chan) : (s.setChan n h).pairLatch = s.pairLatch := rfl
@[simp] theorem State.setChan_shadow (n : Nat) (h : Chan) : (s.setChan n h).shadow = s.shadow := rfl
@[simp] theorem State.setChan_rdata (n : Nat) (h : Chan) : (s.setChan n h).rdata = s.rdata := rfl
@[simp] theorem State.setChan_recd (n : Nat) (h : Chan) : (s.setChan n h).recd = s.recd := rfl
@[simp] theorem State.setChan_aon (n : Nat) (h : Chan) : (s.setChan n h).aon = s.aon := rfl
@[simp] theorem State.setChan_raised (n : Nat) (h : Chan) : (s.setChan n h).raised = s.raised := rfl
@[simp] theorem State.setChan_frzTrig (n : Nat) (h : Chan) : (s.setChan n h).frzTrig = s.frzTrig := rfl
@[simp] theorem State.setChan_stands (n : Nat) (h : Chan) : (s.setChan n h).stands = s.stands := rfl
@[simp] theorem State.setChan_det (n : Nat) (h : Chan) : (s.setChan n h).det = s.det := rfl
@[simp] theorem State.setChan_ses (n : Nat) (h : Chan) : (s.setChan n h).ses = s.ses := rfl
@[simp] theorem State.setChan_cals (n : Nat) (h : Chan) : (s.setChan n h).cals = s.cals := rfl
@[simp] theorem State.setChan_otp (n : Nat) (h : Chan) : (s.setChan n h).otp = s.otp := rfl
@[simp] theorem State.setChan_gen (n : Nat) (h : Chan) : (s.setChan n h).gen = s.gen := rfl
@[simp] theorem State.setChan_image (n : Nat) (h : Chan) : (s.setChan n h).image = s.image := rfl
@[simp] theorem State.setChan_pins (n : Nat) (h : Chan) : (s.setChan n h).pins = s.pins := rfl
@[simp] theorem State.setChan_zones (n : Nat) (h : Chan) : (s.setChan n h).zones = s.zones := rfl
@[simp] theorem State.setChan_pads (n : Nat) (h : Chan) : (s.setChan n h).pads = s.pads := rfl
@[simp] theorem State.setChan_ports (n : Nat) (h : Chan) : (s.setChan n h).ports = s.ports := rfl
@[simp] theorem State.setChan_svcs (n : Nat) (h : Chan) : (s.setChan n h).svcs = s.svcs := rfl
@[simp] theorem State.setChan_links (n : Nat) (h : Chan) : (s.setChan n h).links = s.links := rfl
@[simp] theorem State.setChan_frzWait (n : Nat) (h : Chan) : (s.setChan n h).frzWait = s.frzWait := rfl
@[simp] theorem State.setChan_recovQ (n : Nat) (h : Chan) : (s.setChan n h).recovQ = s.recovQ := rfl
@[simp] theorem State.setChan_sec (n : Nat) (h : Chan) : (s.setChan n h).sec = s.sec := rfl
@[simp] theorem State.setChan_dbg (n : Nat) (h : Chan) : (s.setChan n h).dbg = s.dbg := rfl
@[simp] theorem State.setChan_boot (n : Nat) (h : Chan) : (s.setChan n h).boot = s.boot := rfl

@[simp] theorem State.setByte_pending (a : Nat) (v : Byte) : (s.setByte a v).pending = s.pending := rfl
@[simp] theorem State.setByte_mode (a : Nat) (v : Byte) : (s.setByte a v).mode = s.mode := rfl
@[simp] theorem State.setByte_phase (a : Nat) (v : Byte) : (s.setByte a v).phase = s.phase := rfl
@[simp] theorem State.setByte_kind (a : Nat) (v : Byte) : (s.setByte a v).kind = s.kind := rfl
@[simp] theorem State.setByte_power (a : Nat) (v : Byte) : (s.setByte a v).power = s.power := rfl
@[simp] theorem State.setByte_regs (a : Nat) (v : Byte) : (s.setByte a v).regs = s.regs := rfl
@[simp] theorem State.setByte_upset (a : Nat) (v : Byte) : (s.setByte a v).upset = s.upset := rfl
@[simp] theorem State.setByte_threads (a : Nat) (v : Byte) : (s.setByte a v).threads = s.threads := rfl
@[simp] theorem State.setByte_chans (a : Nat) (v : Byte) : (s.setByte a v).chans = s.chans := rfl
@[simp] theorem State.setByte_pool (a : Nat) (v : Byte) : (s.setByte a v).pool = s.pool := rfl
@[simp] theorem State.setByte_stamp (a : Nat) (v : Byte) : (s.setByte a v).stamp = s.stamp := rfl
@[simp] theorem State.setByte_draws (a : Nat) (v : Byte) : (s.setByte a v).draws = s.draws := rfl
@[simp] theorem State.setByte_fires (a : Nat) (v : Byte) : (s.setByte a v).fires = s.fires := rfl
@[simp] theorem State.setByte_delivs (a : Nat) (v : Byte) : (s.setByte a v).delivs = s.delivs := rfl
@[simp] theorem State.setByte_busyV (a : Nat) (v : Byte) : (s.setByte a v).busyV = s.busyV := rfl
@[simp] theorem State.setByte_sp (a : Nat) (v : Byte) : (s.setByte a v).sp = s.sp := rfl
@[simp] theorem State.setByte_tmrs (a : Nat) (v : Byte) : (s.setByte a v).tmrs = s.tmrs := rfl
@[simp] theorem State.setByte_bt (a : Nat) (v : Byte) : (s.setByte a v).bt = s.bt := rfl
@[simp] theorem State.setByte_pairLatch (a : Nat) (v : Byte) : (s.setByte a v).pairLatch = s.pairLatch := rfl
@[simp] theorem State.setByte_shadow (a : Nat) (v : Byte) : (s.setByte a v).shadow = s.shadow := rfl
@[simp] theorem State.setByte_rdata (a : Nat) (v : Byte) : (s.setByte a v).rdata = s.rdata := rfl
@[simp] theorem State.setByte_recd (a : Nat) (v : Byte) : (s.setByte a v).recd = s.recd := rfl
@[simp] theorem State.setByte_aon (a : Nat) (v : Byte) : (s.setByte a v).aon = s.aon := rfl
@[simp] theorem State.setByte_raised (a : Nat) (v : Byte) : (s.setByte a v).raised = s.raised := rfl
@[simp] theorem State.setByte_frzTrig (a : Nat) (v : Byte) : (s.setByte a v).frzTrig = s.frzTrig := rfl
@[simp] theorem State.setByte_stands (a : Nat) (v : Byte) : (s.setByte a v).stands = s.stands := rfl
@[simp] theorem State.setByte_det (a : Nat) (v : Byte) : (s.setByte a v).det = s.det := rfl
@[simp] theorem State.setByte_ses (a : Nat) (v : Byte) : (s.setByte a v).ses = s.ses := rfl
@[simp] theorem State.setByte_cals (a : Nat) (v : Byte) : (s.setByte a v).cals = s.cals := rfl
@[simp] theorem State.setByte_otp (a : Nat) (v : Byte) : (s.setByte a v).otp = s.otp := rfl
@[simp] theorem State.setByte_gen (a : Nat) (v : Byte) : (s.setByte a v).gen = s.gen := rfl
@[simp] theorem State.setByte_image (a : Nat) (v : Byte) : (s.setByte a v).image = s.image := rfl
@[simp] theorem State.setByte_pins (a : Nat) (v : Byte) : (s.setByte a v).pins = s.pins := rfl
@[simp] theorem State.setByte_zones (a : Nat) (v : Byte) : (s.setByte a v).zones = s.zones := rfl
@[simp] theorem State.setByte_pads (a : Nat) (v : Byte) : (s.setByte a v).pads = s.pads := rfl
@[simp] theorem State.setByte_ports (a : Nat) (v : Byte) : (s.setByte a v).ports = s.ports := rfl
@[simp] theorem State.setByte_svcs (a : Nat) (v : Byte) : (s.setByte a v).svcs = s.svcs := rfl
@[simp] theorem State.setByte_links (a : Nat) (v : Byte) : (s.setByte a v).links = s.links := rfl
@[simp] theorem State.setByte_frzWait (a : Nat) (v : Byte) : (s.setByte a v).frzWait = s.frzWait := rfl
@[simp] theorem State.setByte_recovQ (a : Nat) (v : Byte) : (s.setByte a v).recovQ = s.recovQ := rfl
@[simp] theorem State.setByte_sec (a : Nat) (v : Byte) : (s.setByte a v).sec = s.sec := rfl
@[simp] theorem State.setByte_dbg (a : Nat) (v : Byte) : (s.setByte a v).dbg = s.dbg := rfl
@[simp] theorem State.setByte_boot (a : Nat) (v : Byte) : (s.setByte a v).boot = s.boot := rfl

@[simp] theorem State.drew_pending : (s.drew).pending = s.pending := rfl
@[simp] theorem State.drew_mode : (s.drew).mode = s.mode := rfl
@[simp] theorem State.drew_phase : (s.drew).phase = s.phase := rfl
@[simp] theorem State.drew_kind : (s.drew).kind = s.kind := rfl
@[simp] theorem State.drew_power : (s.drew).power = s.power := rfl
@[simp] theorem State.drew_regs : (s.drew).regs = s.regs := rfl
@[simp] theorem State.drew_mem : (s.drew).mem = s.mem := rfl
@[simp] theorem State.drew_upset : (s.drew).upset = s.upset := rfl
@[simp] theorem State.drew_threads : (s.drew).threads = s.threads := rfl
@[simp] theorem State.drew_chans : (s.drew).chans = s.chans := rfl
@[simp] theorem State.drew_pool : (s.drew).pool = s.pool := rfl
@[simp] theorem State.drew_stamp : (s.drew).stamp = s.stamp := rfl
@[simp] theorem State.drew_fires : (s.drew).fires = s.fires := rfl
@[simp] theorem State.drew_delivs : (s.drew).delivs = s.delivs := rfl
@[simp] theorem State.drew_busyV : (s.drew).busyV = s.busyV := rfl
@[simp] theorem State.drew_sp : (s.drew).sp = s.sp := rfl
@[simp] theorem State.drew_tmrs : (s.drew).tmrs = s.tmrs := rfl
@[simp] theorem State.drew_bt : (s.drew).bt = s.bt := rfl
@[simp] theorem State.drew_pairLatch : (s.drew).pairLatch = s.pairLatch := rfl
@[simp] theorem State.drew_shadow : (s.drew).shadow = s.shadow := rfl
@[simp] theorem State.drew_rdata : (s.drew).rdata = s.rdata := rfl
@[simp] theorem State.drew_recd : (s.drew).recd = s.recd := rfl
@[simp] theorem State.drew_aon : (s.drew).aon = s.aon := rfl
@[simp] theorem State.drew_raised : (s.drew).raised = s.raised := rfl
@[simp] theorem State.drew_frzTrig : (s.drew).frzTrig = s.frzTrig := rfl
@[simp] theorem State.drew_stands : (s.drew).stands = s.stands := rfl
@[simp] theorem State.drew_det : (s.drew).det = s.det := rfl
@[simp] theorem State.drew_ses : (s.drew).ses = s.ses := rfl
@[simp] theorem State.drew_cals : (s.drew).cals = s.cals := rfl
@[simp] theorem State.drew_otp : (s.drew).otp = s.otp := rfl
@[simp] theorem State.drew_gen : (s.drew).gen = s.gen := rfl
@[simp] theorem State.drew_image : (s.drew).image = s.image := rfl
@[simp] theorem State.drew_pins : (s.drew).pins = s.pins := rfl
@[simp] theorem State.drew_zones : (s.drew).zones = s.zones := rfl
@[simp] theorem State.drew_pads : (s.drew).pads = s.pads := rfl
@[simp] theorem State.drew_ports : (s.drew).ports = s.ports := rfl
@[simp] theorem State.drew_svcs : (s.drew).svcs = s.svcs := rfl
@[simp] theorem State.drew_links : (s.drew).links = s.links := rfl
@[simp] theorem State.drew_frzWait : (s.drew).frzWait = s.frzWait := rfl
@[simp] theorem State.drew_recovQ : (s.drew).recovQ = s.recovQ := rfl
@[simp] theorem State.drew_sec : (s.drew).sec = s.sec := rfl
@[simp] theorem State.drew_dbg : (s.drew).dbg = s.dbg := rfl
@[simp] theorem State.drew_boot : (s.drew).boot = s.boot := rfl

@[simp] theorem State.modStand_pending (n : Nat) (f : Stand → Stand) : (s.modStand n f).pending = s.pending := rfl
@[simp] theorem State.modStand_mode (n : Nat) (f : Stand → Stand) : (s.modStand n f).mode = s.mode := rfl
@[simp] theorem State.modStand_phase (n : Nat) (f : Stand → Stand) : (s.modStand n f).phase = s.phase := rfl
@[simp] theorem State.modStand_kind (n : Nat) (f : Stand → Stand) : (s.modStand n f).kind = s.kind := rfl
@[simp] theorem State.modStand_power (n : Nat) (f : Stand → Stand) : (s.modStand n f).power = s.power := rfl
@[simp] theorem State.modStand_regs (n : Nat) (f : Stand → Stand) : (s.modStand n f).regs = s.regs := rfl
@[simp] theorem State.modStand_mem (n : Nat) (f : Stand → Stand) : (s.modStand n f).mem = s.mem := rfl
@[simp] theorem State.modStand_upset (n : Nat) (f : Stand → Stand) : (s.modStand n f).upset = s.upset := rfl
@[simp] theorem State.modStand_threads (n : Nat) (f : Stand → Stand) : (s.modStand n f).threads = s.threads := rfl
@[simp] theorem State.modStand_chans (n : Nat) (f : Stand → Stand) : (s.modStand n f).chans = s.chans := rfl
@[simp] theorem State.modStand_pool (n : Nat) (f : Stand → Stand) : (s.modStand n f).pool = s.pool := rfl
@[simp] theorem State.modStand_stamp (n : Nat) (f : Stand → Stand) : (s.modStand n f).stamp = s.stamp := rfl
@[simp] theorem State.modStand_draws (n : Nat) (f : Stand → Stand) : (s.modStand n f).draws = s.draws := rfl
@[simp] theorem State.modStand_fires (n : Nat) (f : Stand → Stand) : (s.modStand n f).fires = s.fires := rfl
@[simp] theorem State.modStand_delivs (n : Nat) (f : Stand → Stand) : (s.modStand n f).delivs = s.delivs := rfl
@[simp] theorem State.modStand_busyV (n : Nat) (f : Stand → Stand) : (s.modStand n f).busyV = s.busyV := rfl
@[simp] theorem State.modStand_sp (n : Nat) (f : Stand → Stand) : (s.modStand n f).sp = s.sp := rfl
@[simp] theorem State.modStand_tmrs (n : Nat) (f : Stand → Stand) : (s.modStand n f).tmrs = s.tmrs := rfl
@[simp] theorem State.modStand_bt (n : Nat) (f : Stand → Stand) : (s.modStand n f).bt = s.bt := rfl
@[simp] theorem State.modStand_pairLatch (n : Nat) (f : Stand → Stand) : (s.modStand n f).pairLatch = s.pairLatch := rfl
@[simp] theorem State.modStand_shadow (n : Nat) (f : Stand → Stand) : (s.modStand n f).shadow = s.shadow := rfl
@[simp] theorem State.modStand_rdata (n : Nat) (f : Stand → Stand) : (s.modStand n f).rdata = s.rdata := rfl
@[simp] theorem State.modStand_recd (n : Nat) (f : Stand → Stand) : (s.modStand n f).recd = s.recd := rfl
@[simp] theorem State.modStand_aon (n : Nat) (f : Stand → Stand) : (s.modStand n f).aon = s.aon := rfl
@[simp] theorem State.modStand_raised (n : Nat) (f : Stand → Stand) : (s.modStand n f).raised = s.raised := rfl
@[simp] theorem State.modStand_frzTrig (n : Nat) (f : Stand → Stand) : (s.modStand n f).frzTrig = s.frzTrig := rfl
@[simp] theorem State.modStand_det (n : Nat) (f : Stand → Stand) : (s.modStand n f).det = s.det := rfl
@[simp] theorem State.modStand_ses (n : Nat) (f : Stand → Stand) : (s.modStand n f).ses = s.ses := rfl
@[simp] theorem State.modStand_cals (n : Nat) (f : Stand → Stand) : (s.modStand n f).cals = s.cals := rfl
@[simp] theorem State.modStand_otp (n : Nat) (f : Stand → Stand) : (s.modStand n f).otp = s.otp := rfl
@[simp] theorem State.modStand_gen (n : Nat) (f : Stand → Stand) : (s.modStand n f).gen = s.gen := rfl
@[simp] theorem State.modStand_image (n : Nat) (f : Stand → Stand) : (s.modStand n f).image = s.image := rfl
@[simp] theorem State.modStand_pins (n : Nat) (f : Stand → Stand) : (s.modStand n f).pins = s.pins := rfl
@[simp] theorem State.modStand_zones (n : Nat) (f : Stand → Stand) : (s.modStand n f).zones = s.zones := rfl
@[simp] theorem State.modStand_pads (n : Nat) (f : Stand → Stand) : (s.modStand n f).pads = s.pads := rfl
@[simp] theorem State.modStand_ports (n : Nat) (f : Stand → Stand) : (s.modStand n f).ports = s.ports := rfl
@[simp] theorem State.modStand_svcs (n : Nat) (f : Stand → Stand) : (s.modStand n f).svcs = s.svcs := rfl
@[simp] theorem State.modStand_links (n : Nat) (f : Stand → Stand) : (s.modStand n f).links = s.links := rfl
@[simp] theorem State.modStand_frzWait (n : Nat) (f : Stand → Stand) : (s.modStand n f).frzWait = s.frzWait := rfl
@[simp] theorem State.modStand_recovQ (n : Nat) (f : Stand → Stand) : (s.modStand n f).recovQ = s.recovQ := rfl
@[simp] theorem State.modStand_sec (n : Nat) (f : Stand → Stand) : (s.modStand n f).sec = s.sec := rfl
@[simp] theorem State.modStand_dbg (n : Nat) (f : Stand → Stand) : (s.modStand n f).dbg = s.dbg := rfl
@[simp] theorem State.modStand_boot (n : Nat) (f : Stand → Stand) : (s.modStand n f).boot = s.boot := rfl

@[simp] theorem State.modReg_pending (a : Nat) (f : Word → Word) : (s.modReg a f).pending = s.pending := rfl
@[simp] theorem State.modReg_mode (a : Nat) (f : Word → Word) : (s.modReg a f).mode = s.mode := rfl
@[simp] theorem State.modReg_phase (a : Nat) (f : Word → Word) : (s.modReg a f).phase = s.phase := rfl
@[simp] theorem State.modReg_kind (a : Nat) (f : Word → Word) : (s.modReg a f).kind = s.kind := rfl
@[simp] theorem State.modReg_power (a : Nat) (f : Word → Word) : (s.modReg a f).power = s.power := rfl
@[simp] theorem State.modReg_mem (a : Nat) (f : Word → Word) : (s.modReg a f).mem = s.mem := rfl
@[simp] theorem State.modReg_upset (a : Nat) (f : Word → Word) : (s.modReg a f).upset = s.upset := rfl
@[simp] theorem State.modReg_threads (a : Nat) (f : Word → Word) : (s.modReg a f).threads = s.threads := rfl
@[simp] theorem State.modReg_chans (a : Nat) (f : Word → Word) : (s.modReg a f).chans = s.chans := rfl
@[simp] theorem State.modReg_pool (a : Nat) (f : Word → Word) : (s.modReg a f).pool = s.pool := rfl
@[simp] theorem State.modReg_stamp (a : Nat) (f : Word → Word) : (s.modReg a f).stamp = s.stamp := rfl
@[simp] theorem State.modReg_draws (a : Nat) (f : Word → Word) : (s.modReg a f).draws = s.draws := rfl
@[simp] theorem State.modReg_fires (a : Nat) (f : Word → Word) : (s.modReg a f).fires = s.fires := rfl
@[simp] theorem State.modReg_delivs (a : Nat) (f : Word → Word) : (s.modReg a f).delivs = s.delivs := rfl
@[simp] theorem State.modReg_busyV (a : Nat) (f : Word → Word) : (s.modReg a f).busyV = s.busyV := rfl
@[simp] theorem State.modReg_sp (a : Nat) (f : Word → Word) : (s.modReg a f).sp = s.sp := rfl
@[simp] theorem State.modReg_tmrs (a : Nat) (f : Word → Word) : (s.modReg a f).tmrs = s.tmrs := rfl
@[simp] theorem State.modReg_bt (a : Nat) (f : Word → Word) : (s.modReg a f).bt = s.bt := rfl
@[simp] theorem State.modReg_pairLatch (a : Nat) (f : Word → Word) : (s.modReg a f).pairLatch = s.pairLatch := rfl
@[simp] theorem State.modReg_shadow (a : Nat) (f : Word → Word) : (s.modReg a f).shadow = s.shadow := rfl
@[simp] theorem State.modReg_rdata (a : Nat) (f : Word → Word) : (s.modReg a f).rdata = s.rdata := rfl
@[simp] theorem State.modReg_recd (a : Nat) (f : Word → Word) : (s.modReg a f).recd = s.recd := rfl
@[simp] theorem State.modReg_aon (a : Nat) (f : Word → Word) : (s.modReg a f).aon = s.aon := rfl
@[simp] theorem State.modReg_raised (a : Nat) (f : Word → Word) : (s.modReg a f).raised = s.raised := rfl
@[simp] theorem State.modReg_frzTrig (a : Nat) (f : Word → Word) : (s.modReg a f).frzTrig = s.frzTrig := rfl
@[simp] theorem State.modReg_stands (a : Nat) (f : Word → Word) : (s.modReg a f).stands = s.stands := rfl
@[simp] theorem State.modReg_det (a : Nat) (f : Word → Word) : (s.modReg a f).det = s.det := rfl
@[simp] theorem State.modReg_ses (a : Nat) (f : Word → Word) : (s.modReg a f).ses = s.ses := rfl
@[simp] theorem State.modReg_cals (a : Nat) (f : Word → Word) : (s.modReg a f).cals = s.cals := rfl
@[simp] theorem State.modReg_otp (a : Nat) (f : Word → Word) : (s.modReg a f).otp = s.otp := rfl
@[simp] theorem State.modReg_gen (a : Nat) (f : Word → Word) : (s.modReg a f).gen = s.gen := rfl
@[simp] theorem State.modReg_image (a : Nat) (f : Word → Word) : (s.modReg a f).image = s.image := rfl
@[simp] theorem State.modReg_pins (a : Nat) (f : Word → Word) : (s.modReg a f).pins = s.pins := rfl
@[simp] theorem State.modReg_zones (a : Nat) (f : Word → Word) : (s.modReg a f).zones = s.zones := rfl
@[simp] theorem State.modReg_pads (a : Nat) (f : Word → Word) : (s.modReg a f).pads = s.pads := rfl
@[simp] theorem State.modReg_ports (a : Nat) (f : Word → Word) : (s.modReg a f).ports = s.ports := rfl
@[simp] theorem State.modReg_svcs (a : Nat) (f : Word → Word) : (s.modReg a f).svcs = s.svcs := rfl
@[simp] theorem State.modReg_links (a : Nat) (f : Word → Word) : (s.modReg a f).links = s.links := rfl
@[simp] theorem State.modReg_frzWait (a : Nat) (f : Word → Word) : (s.modReg a f).frzWait = s.frzWait := rfl
@[simp] theorem State.modReg_recovQ (a : Nat) (f : Word → Word) : (s.modReg a f).recovQ = s.recovQ := rfl
@[simp] theorem State.modReg_sec (a : Nat) (f : Word → Word) : (s.modReg a f).sec = s.sec := rfl
@[simp] theorem State.modReg_dbg (a : Nat) (f : Word → Word) : (s.modReg a f).dbg = s.dbg := rfl
@[simp] theorem State.modReg_boot (a : Nat) (f : Word → Word) : (s.modReg a f).boot = s.boot := rfl

@[simp] theorem State.modThr_pending (n : Nat) (f : Thread → Thread) : (s.modThr n f).pending = s.pending := rfl
@[simp] theorem State.modThr_mode (n : Nat) (f : Thread → Thread) : (s.modThr n f).mode = s.mode := rfl
@[simp] theorem State.modThr_phase (n : Nat) (f : Thread → Thread) : (s.modThr n f).phase = s.phase := rfl
@[simp] theorem State.modThr_kind (n : Nat) (f : Thread → Thread) : (s.modThr n f).kind = s.kind := rfl
@[simp] theorem State.modThr_power (n : Nat) (f : Thread → Thread) : (s.modThr n f).power = s.power := rfl
@[simp] theorem State.modThr_regs (n : Nat) (f : Thread → Thread) : (s.modThr n f).regs = s.regs := rfl
@[simp] theorem State.modThr_mem (n : Nat) (f : Thread → Thread) : (s.modThr n f).mem = s.mem := rfl
@[simp] theorem State.modThr_upset (n : Nat) (f : Thread → Thread) : (s.modThr n f).upset = s.upset := rfl
@[simp] theorem State.modThr_chans (n : Nat) (f : Thread → Thread) : (s.modThr n f).chans = s.chans := rfl
@[simp] theorem State.modThr_pool (n : Nat) (f : Thread → Thread) : (s.modThr n f).pool = s.pool := rfl
@[simp] theorem State.modThr_stamp (n : Nat) (f : Thread → Thread) : (s.modThr n f).stamp = s.stamp := rfl
@[simp] theorem State.modThr_draws (n : Nat) (f : Thread → Thread) : (s.modThr n f).draws = s.draws := rfl
@[simp] theorem State.modThr_fires (n : Nat) (f : Thread → Thread) : (s.modThr n f).fires = s.fires := rfl
@[simp] theorem State.modThr_delivs (n : Nat) (f : Thread → Thread) : (s.modThr n f).delivs = s.delivs := rfl
@[simp] theorem State.modThr_busyV (n : Nat) (f : Thread → Thread) : (s.modThr n f).busyV = s.busyV := rfl
@[simp] theorem State.modThr_sp (n : Nat) (f : Thread → Thread) : (s.modThr n f).sp = s.sp := rfl
@[simp] theorem State.modThr_tmrs (n : Nat) (f : Thread → Thread) : (s.modThr n f).tmrs = s.tmrs := rfl
@[simp] theorem State.modThr_bt (n : Nat) (f : Thread → Thread) : (s.modThr n f).bt = s.bt := rfl
@[simp] theorem State.modThr_pairLatch (n : Nat) (f : Thread → Thread) : (s.modThr n f).pairLatch = s.pairLatch := rfl
@[simp] theorem State.modThr_shadow (n : Nat) (f : Thread → Thread) : (s.modThr n f).shadow = s.shadow := rfl
@[simp] theorem State.modThr_rdata (n : Nat) (f : Thread → Thread) : (s.modThr n f).rdata = s.rdata := rfl
@[simp] theorem State.modThr_recd (n : Nat) (f : Thread → Thread) : (s.modThr n f).recd = s.recd := rfl
@[simp] theorem State.modThr_aon (n : Nat) (f : Thread → Thread) : (s.modThr n f).aon = s.aon := rfl
@[simp] theorem State.modThr_raised (n : Nat) (f : Thread → Thread) : (s.modThr n f).raised = s.raised := rfl
@[simp] theorem State.modThr_frzTrig (n : Nat) (f : Thread → Thread) : (s.modThr n f).frzTrig = s.frzTrig := rfl
@[simp] theorem State.modThr_stands (n : Nat) (f : Thread → Thread) : (s.modThr n f).stands = s.stands := rfl
@[simp] theorem State.modThr_det (n : Nat) (f : Thread → Thread) : (s.modThr n f).det = s.det := rfl
@[simp] theorem State.modThr_ses (n : Nat) (f : Thread → Thread) : (s.modThr n f).ses = s.ses := rfl
@[simp] theorem State.modThr_cals (n : Nat) (f : Thread → Thread) : (s.modThr n f).cals = s.cals := rfl
@[simp] theorem State.modThr_otp (n : Nat) (f : Thread → Thread) : (s.modThr n f).otp = s.otp := rfl
@[simp] theorem State.modThr_gen (n : Nat) (f : Thread → Thread) : (s.modThr n f).gen = s.gen := rfl
@[simp] theorem State.modThr_image (n : Nat) (f : Thread → Thread) : (s.modThr n f).image = s.image := rfl
@[simp] theorem State.modThr_pins (n : Nat) (f : Thread → Thread) : (s.modThr n f).pins = s.pins := rfl
@[simp] theorem State.modThr_zones (n : Nat) (f : Thread → Thread) : (s.modThr n f).zones = s.zones := rfl
@[simp] theorem State.modThr_pads (n : Nat) (f : Thread → Thread) : (s.modThr n f).pads = s.pads := rfl
@[simp] theorem State.modThr_ports (n : Nat) (f : Thread → Thread) : (s.modThr n f).ports = s.ports := rfl
@[simp] theorem State.modThr_svcs (n : Nat) (f : Thread → Thread) : (s.modThr n f).svcs = s.svcs := rfl
@[simp] theorem State.modThr_links (n : Nat) (f : Thread → Thread) : (s.modThr n f).links = s.links := rfl
@[simp] theorem State.modThr_frzWait (n : Nat) (f : Thread → Thread) : (s.modThr n f).frzWait = s.frzWait := rfl
@[simp] theorem State.modThr_recovQ (n : Nat) (f : Thread → Thread) : (s.modThr n f).recovQ = s.recovQ := rfl
@[simp] theorem State.modThr_sec (n : Nat) (f : Thread → Thread) : (s.modThr n f).sec = s.sec := rfl
@[simp] theorem State.modThr_dbg (n : Nat) (f : Thread → Thread) : (s.modThr n f).dbg = s.dbg := rfl
@[simp] theorem State.modThr_boot (n : Nat) (f : Thread → Thread) : (s.modThr n f).boot = s.boot := rfl

@[simp] theorem State.modChan_pending (n : Nat) (f : Chan → Chan) : (s.modChan n f).pending = s.pending := rfl
@[simp] theorem State.modChan_mode (n : Nat) (f : Chan → Chan) : (s.modChan n f).mode = s.mode := rfl
@[simp] theorem State.modChan_phase (n : Nat) (f : Chan → Chan) : (s.modChan n f).phase = s.phase := rfl
@[simp] theorem State.modChan_kind (n : Nat) (f : Chan → Chan) : (s.modChan n f).kind = s.kind := rfl
@[simp] theorem State.modChan_power (n : Nat) (f : Chan → Chan) : (s.modChan n f).power = s.power := rfl
@[simp] theorem State.modChan_regs (n : Nat) (f : Chan → Chan) : (s.modChan n f).regs = s.regs := rfl
@[simp] theorem State.modChan_mem (n : Nat) (f : Chan → Chan) : (s.modChan n f).mem = s.mem := rfl
@[simp] theorem State.modChan_upset (n : Nat) (f : Chan → Chan) : (s.modChan n f).upset = s.upset := rfl
@[simp] theorem State.modChan_threads (n : Nat) (f : Chan → Chan) : (s.modChan n f).threads = s.threads := rfl
@[simp] theorem State.modChan_pool (n : Nat) (f : Chan → Chan) : (s.modChan n f).pool = s.pool := rfl
@[simp] theorem State.modChan_stamp (n : Nat) (f : Chan → Chan) : (s.modChan n f).stamp = s.stamp := rfl
@[simp] theorem State.modChan_draws (n : Nat) (f : Chan → Chan) : (s.modChan n f).draws = s.draws := rfl
@[simp] theorem State.modChan_fires (n : Nat) (f : Chan → Chan) : (s.modChan n f).fires = s.fires := rfl
@[simp] theorem State.modChan_delivs (n : Nat) (f : Chan → Chan) : (s.modChan n f).delivs = s.delivs := rfl
@[simp] theorem State.modChan_busyV (n : Nat) (f : Chan → Chan) : (s.modChan n f).busyV = s.busyV := rfl
@[simp] theorem State.modChan_sp (n : Nat) (f : Chan → Chan) : (s.modChan n f).sp = s.sp := rfl
@[simp] theorem State.modChan_tmrs (n : Nat) (f : Chan → Chan) : (s.modChan n f).tmrs = s.tmrs := rfl
@[simp] theorem State.modChan_bt (n : Nat) (f : Chan → Chan) : (s.modChan n f).bt = s.bt := rfl
@[simp] theorem State.modChan_pairLatch (n : Nat) (f : Chan → Chan) : (s.modChan n f).pairLatch = s.pairLatch := rfl
@[simp] theorem State.modChan_shadow (n : Nat) (f : Chan → Chan) : (s.modChan n f).shadow = s.shadow := rfl
@[simp] theorem State.modChan_rdata (n : Nat) (f : Chan → Chan) : (s.modChan n f).rdata = s.rdata := rfl
@[simp] theorem State.modChan_recd (n : Nat) (f : Chan → Chan) : (s.modChan n f).recd = s.recd := rfl
@[simp] theorem State.modChan_aon (n : Nat) (f : Chan → Chan) : (s.modChan n f).aon = s.aon := rfl
@[simp] theorem State.modChan_raised (n : Nat) (f : Chan → Chan) : (s.modChan n f).raised = s.raised := rfl
@[simp] theorem State.modChan_frzTrig (n : Nat) (f : Chan → Chan) : (s.modChan n f).frzTrig = s.frzTrig := rfl
@[simp] theorem State.modChan_stands (n : Nat) (f : Chan → Chan) : (s.modChan n f).stands = s.stands := rfl
@[simp] theorem State.modChan_det (n : Nat) (f : Chan → Chan) : (s.modChan n f).det = s.det := rfl
@[simp] theorem State.modChan_ses (n : Nat) (f : Chan → Chan) : (s.modChan n f).ses = s.ses := rfl
@[simp] theorem State.modChan_cals (n : Nat) (f : Chan → Chan) : (s.modChan n f).cals = s.cals := rfl
@[simp] theorem State.modChan_otp (n : Nat) (f : Chan → Chan) : (s.modChan n f).otp = s.otp := rfl
@[simp] theorem State.modChan_gen (n : Nat) (f : Chan → Chan) : (s.modChan n f).gen = s.gen := rfl
@[simp] theorem State.modChan_image (n : Nat) (f : Chan → Chan) : (s.modChan n f).image = s.image := rfl
@[simp] theorem State.modChan_pins (n : Nat) (f : Chan → Chan) : (s.modChan n f).pins = s.pins := rfl
@[simp] theorem State.modChan_zones (n : Nat) (f : Chan → Chan) : (s.modChan n f).zones = s.zones := rfl
@[simp] theorem State.modChan_pads (n : Nat) (f : Chan → Chan) : (s.modChan n f).pads = s.pads := rfl
@[simp] theorem State.modChan_ports (n : Nat) (f : Chan → Chan) : (s.modChan n f).ports = s.ports := rfl
@[simp] theorem State.modChan_svcs (n : Nat) (f : Chan → Chan) : (s.modChan n f).svcs = s.svcs := rfl
@[simp] theorem State.modChan_links (n : Nat) (f : Chan → Chan) : (s.modChan n f).links = s.links := rfl
@[simp] theorem State.modChan_frzWait (n : Nat) (f : Chan → Chan) : (s.modChan n f).frzWait = s.frzWait := rfl
@[simp] theorem State.modChan_recovQ (n : Nat) (f : Chan → Chan) : (s.modChan n f).recovQ = s.recovQ := rfl
@[simp] theorem State.modChan_sec (n : Nat) (f : Chan → Chan) : (s.modChan n f).sec = s.sec := rfl
@[simp] theorem State.modChan_dbg (n : Nat) (f : Chan → Chan) : (s.modChan n f).dbg = s.dbg := rfl
@[simp] theorem State.modChan_boot (n : Nat) (f : Chan → Chan) : (s.modChan n f).boot = s.boot := rfl

@[simp] theorem State.rset_pending (a k : Nat) : (s.rset a k).pending = s.pending := rfl
@[simp] theorem State.rset_mode (a k : Nat) : (s.rset a k).mode = s.mode := rfl
@[simp] theorem State.rset_phase (a k : Nat) : (s.rset a k).phase = s.phase := rfl
@[simp] theorem State.rset_kind (a k : Nat) : (s.rset a k).kind = s.kind := rfl
@[simp] theorem State.rset_power (a k : Nat) : (s.rset a k).power = s.power := rfl
@[simp] theorem State.rset_mem (a k : Nat) : (s.rset a k).mem = s.mem := rfl
@[simp] theorem State.rset_upset (a k : Nat) : (s.rset a k).upset = s.upset := rfl
@[simp] theorem State.rset_threads (a k : Nat) : (s.rset a k).threads = s.threads := rfl
@[simp] theorem State.rset_chans (a k : Nat) : (s.rset a k).chans = s.chans := rfl
@[simp] theorem State.rset_pool (a k : Nat) : (s.rset a k).pool = s.pool := rfl
@[simp] theorem State.rset_stamp (a k : Nat) : (s.rset a k).stamp = s.stamp := rfl
@[simp] theorem State.rset_draws (a k : Nat) : (s.rset a k).draws = s.draws := rfl
@[simp] theorem State.rset_fires (a k : Nat) : (s.rset a k).fires = s.fires := rfl
@[simp] theorem State.rset_delivs (a k : Nat) : (s.rset a k).delivs = s.delivs := rfl
@[simp] theorem State.rset_busyV (a k : Nat) : (s.rset a k).busyV = s.busyV := rfl
@[simp] theorem State.rset_sp (a k : Nat) : (s.rset a k).sp = s.sp := rfl
@[simp] theorem State.rset_tmrs (a k : Nat) : (s.rset a k).tmrs = s.tmrs := rfl
@[simp] theorem State.rset_bt (a k : Nat) : (s.rset a k).bt = s.bt := rfl
@[simp] theorem State.rset_pairLatch (a k : Nat) : (s.rset a k).pairLatch = s.pairLatch := rfl
@[simp] theorem State.rset_shadow (a k : Nat) : (s.rset a k).shadow = s.shadow := rfl
@[simp] theorem State.rset_rdata (a k : Nat) : (s.rset a k).rdata = s.rdata := rfl
@[simp] theorem State.rset_recd (a k : Nat) : (s.rset a k).recd = s.recd := rfl
@[simp] theorem State.rset_aon (a k : Nat) : (s.rset a k).aon = s.aon := rfl
@[simp] theorem State.rset_raised (a k : Nat) : (s.rset a k).raised = s.raised := rfl
@[simp] theorem State.rset_frzTrig (a k : Nat) : (s.rset a k).frzTrig = s.frzTrig := rfl
@[simp] theorem State.rset_stands (a k : Nat) : (s.rset a k).stands = s.stands := rfl
@[simp] theorem State.rset_det (a k : Nat) : (s.rset a k).det = s.det := rfl
@[simp] theorem State.rset_ses (a k : Nat) : (s.rset a k).ses = s.ses := rfl
@[simp] theorem State.rset_cals (a k : Nat) : (s.rset a k).cals = s.cals := rfl
@[simp] theorem State.rset_otp (a k : Nat) : (s.rset a k).otp = s.otp := rfl
@[simp] theorem State.rset_gen (a k : Nat) : (s.rset a k).gen = s.gen := rfl
@[simp] theorem State.rset_image (a k : Nat) : (s.rset a k).image = s.image := rfl
@[simp] theorem State.rset_pins (a k : Nat) : (s.rset a k).pins = s.pins := rfl
@[simp] theorem State.rset_zones (a k : Nat) : (s.rset a k).zones = s.zones := rfl
@[simp] theorem State.rset_pads (a k : Nat) : (s.rset a k).pads = s.pads := rfl
@[simp] theorem State.rset_ports (a k : Nat) : (s.rset a k).ports = s.ports := rfl
@[simp] theorem State.rset_svcs (a k : Nat) : (s.rset a k).svcs = s.svcs := rfl
@[simp] theorem State.rset_links (a k : Nat) : (s.rset a k).links = s.links := rfl
@[simp] theorem State.rset_frzWait (a k : Nat) : (s.rset a k).frzWait = s.frzWait := rfl
@[simp] theorem State.rset_recovQ (a k : Nat) : (s.rset a k).recovQ = s.recovQ := rfl
@[simp] theorem State.rset_sec (a k : Nat) : (s.rset a k).sec = s.sec := rfl
@[simp] theorem State.rset_dbg (a k : Nat) : (s.rset a k).dbg = s.dbg := rfl
@[simp] theorem State.rset_boot (a k : Nat) : (s.rset a k).boot = s.boot := rfl

@[simp] theorem State.rclr_pending (a k : Nat) : (s.rclr a k).pending = s.pending := rfl
@[simp] theorem State.rclr_mode (a k : Nat) : (s.rclr a k).mode = s.mode := rfl
@[simp] theorem State.rclr_phase (a k : Nat) : (s.rclr a k).phase = s.phase := rfl
@[simp] theorem State.rclr_kind (a k : Nat) : (s.rclr a k).kind = s.kind := rfl
@[simp] theorem State.rclr_power (a k : Nat) : (s.rclr a k).power = s.power := rfl
@[simp] theorem State.rclr_mem (a k : Nat) : (s.rclr a k).mem = s.mem := rfl
@[simp] theorem State.rclr_upset (a k : Nat) : (s.rclr a k).upset = s.upset := rfl
@[simp] theorem State.rclr_threads (a k : Nat) : (s.rclr a k).threads = s.threads := rfl
@[simp] theorem State.rclr_chans (a k : Nat) : (s.rclr a k).chans = s.chans := rfl
@[simp] theorem State.rclr_pool (a k : Nat) : (s.rclr a k).pool = s.pool := rfl
@[simp] theorem State.rclr_stamp (a k : Nat) : (s.rclr a k).stamp = s.stamp := rfl
@[simp] theorem State.rclr_draws (a k : Nat) : (s.rclr a k).draws = s.draws := rfl
@[simp] theorem State.rclr_fires (a k : Nat) : (s.rclr a k).fires = s.fires := rfl
@[simp] theorem State.rclr_delivs (a k : Nat) : (s.rclr a k).delivs = s.delivs := rfl
@[simp] theorem State.rclr_busyV (a k : Nat) : (s.rclr a k).busyV = s.busyV := rfl
@[simp] theorem State.rclr_sp (a k : Nat) : (s.rclr a k).sp = s.sp := rfl
@[simp] theorem State.rclr_tmrs (a k : Nat) : (s.rclr a k).tmrs = s.tmrs := rfl
@[simp] theorem State.rclr_bt (a k : Nat) : (s.rclr a k).bt = s.bt := rfl
@[simp] theorem State.rclr_pairLatch (a k : Nat) : (s.rclr a k).pairLatch = s.pairLatch := rfl
@[simp] theorem State.rclr_shadow (a k : Nat) : (s.rclr a k).shadow = s.shadow := rfl
@[simp] theorem State.rclr_rdata (a k : Nat) : (s.rclr a k).rdata = s.rdata := rfl
@[simp] theorem State.rclr_recd (a k : Nat) : (s.rclr a k).recd = s.recd := rfl
@[simp] theorem State.rclr_aon (a k : Nat) : (s.rclr a k).aon = s.aon := rfl
@[simp] theorem State.rclr_raised (a k : Nat) : (s.rclr a k).raised = s.raised := rfl
@[simp] theorem State.rclr_frzTrig (a k : Nat) : (s.rclr a k).frzTrig = s.frzTrig := rfl
@[simp] theorem State.rclr_stands (a k : Nat) : (s.rclr a k).stands = s.stands := rfl
@[simp] theorem State.rclr_det (a k : Nat) : (s.rclr a k).det = s.det := rfl
@[simp] theorem State.rclr_ses (a k : Nat) : (s.rclr a k).ses = s.ses := rfl
@[simp] theorem State.rclr_cals (a k : Nat) : (s.rclr a k).cals = s.cals := rfl
@[simp] theorem State.rclr_otp (a k : Nat) : (s.rclr a k).otp = s.otp := rfl
@[simp] theorem State.rclr_gen (a k : Nat) : (s.rclr a k).gen = s.gen := rfl
@[simp] theorem State.rclr_image (a k : Nat) : (s.rclr a k).image = s.image := rfl
@[simp] theorem State.rclr_pins (a k : Nat) : (s.rclr a k).pins = s.pins := rfl
@[simp] theorem State.rclr_zones (a k : Nat) : (s.rclr a k).zones = s.zones := rfl
@[simp] theorem State.rclr_pads (a k : Nat) : (s.rclr a k).pads = s.pads := rfl
@[simp] theorem State.rclr_ports (a k : Nat) : (s.rclr a k).ports = s.ports := rfl
@[simp] theorem State.rclr_svcs (a k : Nat) : (s.rclr a k).svcs = s.svcs := rfl
@[simp] theorem State.rclr_links (a k : Nat) : (s.rclr a k).links = s.links := rfl
@[simp] theorem State.rclr_frzWait (a k : Nat) : (s.rclr a k).frzWait = s.frzWait := rfl
@[simp] theorem State.rclr_recovQ (a k : Nat) : (s.rclr a k).recovQ = s.recovQ := rfl
@[simp] theorem State.rclr_sec (a k : Nat) : (s.rclr a k).sec = s.sec := rfl
@[simp] theorem State.rclr_dbg (a k : Nat) : (s.rclr a k).dbg = s.dbg := rfl
@[simp] theorem State.rclr_boot (a k : Nat) : (s.rclr a k).boot = s.boot := rfl

@[simp] theorem State.rput_pending (a k : Nat) (b : Bool) : (s.rput a k b).pending = s.pending := rfl
@[simp] theorem State.rput_mode (a k : Nat) (b : Bool) : (s.rput a k b).mode = s.mode := rfl
@[simp] theorem State.rput_phase (a k : Nat) (b : Bool) : (s.rput a k b).phase = s.phase := rfl
@[simp] theorem State.rput_kind (a k : Nat) (b : Bool) : (s.rput a k b).kind = s.kind := rfl
@[simp] theorem State.rput_power (a k : Nat) (b : Bool) : (s.rput a k b).power = s.power := rfl
@[simp] theorem State.rput_mem (a k : Nat) (b : Bool) : (s.rput a k b).mem = s.mem := rfl
@[simp] theorem State.rput_upset (a k : Nat) (b : Bool) : (s.rput a k b).upset = s.upset := rfl
@[simp] theorem State.rput_threads (a k : Nat) (b : Bool) : (s.rput a k b).threads = s.threads := rfl
@[simp] theorem State.rput_chans (a k : Nat) (b : Bool) : (s.rput a k b).chans = s.chans := rfl
@[simp] theorem State.rput_pool (a k : Nat) (b : Bool) : (s.rput a k b).pool = s.pool := rfl
@[simp] theorem State.rput_stamp (a k : Nat) (b : Bool) : (s.rput a k b).stamp = s.stamp := rfl
@[simp] theorem State.rput_draws (a k : Nat) (b : Bool) : (s.rput a k b).draws = s.draws := rfl
@[simp] theorem State.rput_fires (a k : Nat) (b : Bool) : (s.rput a k b).fires = s.fires := rfl
@[simp] theorem State.rput_delivs (a k : Nat) (b : Bool) : (s.rput a k b).delivs = s.delivs := rfl
@[simp] theorem State.rput_busyV (a k : Nat) (b : Bool) : (s.rput a k b).busyV = s.busyV := rfl
@[simp] theorem State.rput_sp (a k : Nat) (b : Bool) : (s.rput a k b).sp = s.sp := rfl
@[simp] theorem State.rput_tmrs (a k : Nat) (b : Bool) : (s.rput a k b).tmrs = s.tmrs := rfl
@[simp] theorem State.rput_bt (a k : Nat) (b : Bool) : (s.rput a k b).bt = s.bt := rfl
@[simp] theorem State.rput_pairLatch (a k : Nat) (b : Bool) : (s.rput a k b).pairLatch = s.pairLatch := rfl
@[simp] theorem State.rput_shadow (a k : Nat) (b : Bool) : (s.rput a k b).shadow = s.shadow := rfl
@[simp] theorem State.rput_rdata (a k : Nat) (b : Bool) : (s.rput a k b).rdata = s.rdata := rfl
@[simp] theorem State.rput_recd (a k : Nat) (b : Bool) : (s.rput a k b).recd = s.recd := rfl
@[simp] theorem State.rput_aon (a k : Nat) (b : Bool) : (s.rput a k b).aon = s.aon := rfl
@[simp] theorem State.rput_raised (a k : Nat) (b : Bool) : (s.rput a k b).raised = s.raised := rfl
@[simp] theorem State.rput_frzTrig (a k : Nat) (b : Bool) : (s.rput a k b).frzTrig = s.frzTrig := rfl
@[simp] theorem State.rput_stands (a k : Nat) (b : Bool) : (s.rput a k b).stands = s.stands := rfl
@[simp] theorem State.rput_det (a k : Nat) (b : Bool) : (s.rput a k b).det = s.det := rfl
@[simp] theorem State.rput_ses (a k : Nat) (b : Bool) : (s.rput a k b).ses = s.ses := rfl
@[simp] theorem State.rput_cals (a k : Nat) (b : Bool) : (s.rput a k b).cals = s.cals := rfl
@[simp] theorem State.rput_otp (a k : Nat) (b : Bool) : (s.rput a k b).otp = s.otp := rfl
@[simp] theorem State.rput_gen (a k : Nat) (b : Bool) : (s.rput a k b).gen = s.gen := rfl
@[simp] theorem State.rput_image (a k : Nat) (b : Bool) : (s.rput a k b).image = s.image := rfl
@[simp] theorem State.rput_pins (a k : Nat) (b : Bool) : (s.rput a k b).pins = s.pins := rfl
@[simp] theorem State.rput_zones (a k : Nat) (b : Bool) : (s.rput a k b).zones = s.zones := rfl
@[simp] theorem State.rput_pads (a k : Nat) (b : Bool) : (s.rput a k b).pads = s.pads := rfl
@[simp] theorem State.rput_ports (a k : Nat) (b : Bool) : (s.rput a k b).ports = s.ports := rfl
@[simp] theorem State.rput_svcs (a k : Nat) (b : Bool) : (s.rput a k b).svcs = s.svcs := rfl
@[simp] theorem State.rput_links (a k : Nat) (b : Bool) : (s.rput a k b).links = s.links := rfl
@[simp] theorem State.rput_frzWait (a k : Nat) (b : Bool) : (s.rput a k b).frzWait = s.frzWait := rfl
@[simp] theorem State.rput_recovQ (a k : Nat) (b : Bool) : (s.rput a k b).recovQ = s.recovQ := rfl
@[simp] theorem State.rput_sec (a k : Nat) (b : Bool) : (s.rput a k b).sec = s.sec := rfl
@[simp] theorem State.rput_dbg (a k : Nat) (b : Bool) : (s.rput a k b).dbg = s.dbg := rfl
@[simp] theorem State.rput_boot (a k : Nat) (b : Bool) : (s.rput a k b).boot = s.boot := rfl

@[simp] theorem State.rsetFld_pending (a lo n v : Nat) : (s.rsetFld a lo n v).pending = s.pending := rfl
@[simp] theorem State.rsetFld_mode (a lo n v : Nat) : (s.rsetFld a lo n v).mode = s.mode := rfl
@[simp] theorem State.rsetFld_phase (a lo n v : Nat) : (s.rsetFld a lo n v).phase = s.phase := rfl
@[simp] theorem State.rsetFld_kind (a lo n v : Nat) : (s.rsetFld a lo n v).kind = s.kind := rfl
@[simp] theorem State.rsetFld_power (a lo n v : Nat) : (s.rsetFld a lo n v).power = s.power := rfl
@[simp] theorem State.rsetFld_mem (a lo n v : Nat) : (s.rsetFld a lo n v).mem = s.mem := rfl
@[simp] theorem State.rsetFld_upset (a lo n v : Nat) : (s.rsetFld a lo n v).upset = s.upset := rfl
@[simp] theorem State.rsetFld_threads (a lo n v : Nat) : (s.rsetFld a lo n v).threads = s.threads := rfl
@[simp] theorem State.rsetFld_chans (a lo n v : Nat) : (s.rsetFld a lo n v).chans = s.chans := rfl
@[simp] theorem State.rsetFld_pool (a lo n v : Nat) : (s.rsetFld a lo n v).pool = s.pool := rfl
@[simp] theorem State.rsetFld_stamp (a lo n v : Nat) : (s.rsetFld a lo n v).stamp = s.stamp := rfl
@[simp] theorem State.rsetFld_draws (a lo n v : Nat) : (s.rsetFld a lo n v).draws = s.draws := rfl
@[simp] theorem State.rsetFld_fires (a lo n v : Nat) : (s.rsetFld a lo n v).fires = s.fires := rfl
@[simp] theorem State.rsetFld_delivs (a lo n v : Nat) : (s.rsetFld a lo n v).delivs = s.delivs := rfl
@[simp] theorem State.rsetFld_busyV (a lo n v : Nat) : (s.rsetFld a lo n v).busyV = s.busyV := rfl
@[simp] theorem State.rsetFld_sp (a lo n v : Nat) : (s.rsetFld a lo n v).sp = s.sp := rfl
@[simp] theorem State.rsetFld_tmrs (a lo n v : Nat) : (s.rsetFld a lo n v).tmrs = s.tmrs := rfl
@[simp] theorem State.rsetFld_bt (a lo n v : Nat) : (s.rsetFld a lo n v).bt = s.bt := rfl
@[simp] theorem State.rsetFld_pairLatch (a lo n v : Nat) : (s.rsetFld a lo n v).pairLatch = s.pairLatch := rfl
@[simp] theorem State.rsetFld_shadow (a lo n v : Nat) : (s.rsetFld a lo n v).shadow = s.shadow := rfl
@[simp] theorem State.rsetFld_rdata (a lo n v : Nat) : (s.rsetFld a lo n v).rdata = s.rdata := rfl
@[simp] theorem State.rsetFld_recd (a lo n v : Nat) : (s.rsetFld a lo n v).recd = s.recd := rfl
@[simp] theorem State.rsetFld_aon (a lo n v : Nat) : (s.rsetFld a lo n v).aon = s.aon := rfl
@[simp] theorem State.rsetFld_raised (a lo n v : Nat) : (s.rsetFld a lo n v).raised = s.raised := rfl
@[simp] theorem State.rsetFld_frzTrig (a lo n v : Nat) : (s.rsetFld a lo n v).frzTrig = s.frzTrig := rfl
@[simp] theorem State.rsetFld_stands (a lo n v : Nat) : (s.rsetFld a lo n v).stands = s.stands := rfl
@[simp] theorem State.rsetFld_det (a lo n v : Nat) : (s.rsetFld a lo n v).det = s.det := rfl
@[simp] theorem State.rsetFld_ses (a lo n v : Nat) : (s.rsetFld a lo n v).ses = s.ses := rfl
@[simp] theorem State.rsetFld_cals (a lo n v : Nat) : (s.rsetFld a lo n v).cals = s.cals := rfl
@[simp] theorem State.rsetFld_otp (a lo n v : Nat) : (s.rsetFld a lo n v).otp = s.otp := rfl
@[simp] theorem State.rsetFld_gen (a lo n v : Nat) : (s.rsetFld a lo n v).gen = s.gen := rfl
@[simp] theorem State.rsetFld_image (a lo n v : Nat) : (s.rsetFld a lo n v).image = s.image := rfl
@[simp] theorem State.rsetFld_pins (a lo n v : Nat) : (s.rsetFld a lo n v).pins = s.pins := rfl
@[simp] theorem State.rsetFld_zones (a lo n v : Nat) : (s.rsetFld a lo n v).zones = s.zones := rfl
@[simp] theorem State.rsetFld_pads (a lo n v : Nat) : (s.rsetFld a lo n v).pads = s.pads := rfl
@[simp] theorem State.rsetFld_ports (a lo n v : Nat) : (s.rsetFld a lo n v).ports = s.ports := rfl
@[simp] theorem State.rsetFld_svcs (a lo n v : Nat) : (s.rsetFld a lo n v).svcs = s.svcs := rfl
@[simp] theorem State.rsetFld_links (a lo n v : Nat) : (s.rsetFld a lo n v).links = s.links := rfl
@[simp] theorem State.rsetFld_frzWait (a lo n v : Nat) : (s.rsetFld a lo n v).frzWait = s.frzWait := rfl
@[simp] theorem State.rsetFld_recovQ (a lo n v : Nat) : (s.rsetFld a lo n v).recovQ = s.recovQ := rfl
@[simp] theorem State.rsetFld_sec (a lo n v : Nat) : (s.rsetFld a lo n v).sec = s.sec := rfl
@[simp] theorem State.rsetFld_dbg (a lo n v : Nat) : (s.rsetFld a lo n v).dbg = s.dbg := rfl
@[simp] theorem State.rsetFld_boot (a lo n v : Nat) : (s.rsetFld a lo n v).boot = s.boot := rfl

@[simp] theorem State.rcount_pending (a lo n k : Nat) : (s.rcount a lo n k).pending = s.pending := rfl
@[simp] theorem State.rcount_mode (a lo n k : Nat) : (s.rcount a lo n k).mode = s.mode := rfl
@[simp] theorem State.rcount_phase (a lo n k : Nat) : (s.rcount a lo n k).phase = s.phase := rfl
@[simp] theorem State.rcount_kind (a lo n k : Nat) : (s.rcount a lo n k).kind = s.kind := rfl
@[simp] theorem State.rcount_power (a lo n k : Nat) : (s.rcount a lo n k).power = s.power := rfl
@[simp] theorem State.rcount_mem (a lo n k : Nat) : (s.rcount a lo n k).mem = s.mem := rfl
@[simp] theorem State.rcount_upset (a lo n k : Nat) : (s.rcount a lo n k).upset = s.upset := rfl
@[simp] theorem State.rcount_threads (a lo n k : Nat) : (s.rcount a lo n k).threads = s.threads := rfl
@[simp] theorem State.rcount_chans (a lo n k : Nat) : (s.rcount a lo n k).chans = s.chans := rfl
@[simp] theorem State.rcount_pool (a lo n k : Nat) : (s.rcount a lo n k).pool = s.pool := rfl
@[simp] theorem State.rcount_stamp (a lo n k : Nat) : (s.rcount a lo n k).stamp = s.stamp := rfl
@[simp] theorem State.rcount_draws (a lo n k : Nat) : (s.rcount a lo n k).draws = s.draws := rfl
@[simp] theorem State.rcount_fires (a lo n k : Nat) : (s.rcount a lo n k).fires = s.fires := rfl
@[simp] theorem State.rcount_delivs (a lo n k : Nat) : (s.rcount a lo n k).delivs = s.delivs := rfl
@[simp] theorem State.rcount_busyV (a lo n k : Nat) : (s.rcount a lo n k).busyV = s.busyV := rfl
@[simp] theorem State.rcount_sp (a lo n k : Nat) : (s.rcount a lo n k).sp = s.sp := rfl
@[simp] theorem State.rcount_tmrs (a lo n k : Nat) : (s.rcount a lo n k).tmrs = s.tmrs := rfl
@[simp] theorem State.rcount_bt (a lo n k : Nat) : (s.rcount a lo n k).bt = s.bt := rfl
@[simp] theorem State.rcount_pairLatch (a lo n k : Nat) : (s.rcount a lo n k).pairLatch = s.pairLatch := rfl
@[simp] theorem State.rcount_shadow (a lo n k : Nat) : (s.rcount a lo n k).shadow = s.shadow := rfl
@[simp] theorem State.rcount_rdata (a lo n k : Nat) : (s.rcount a lo n k).rdata = s.rdata := rfl
@[simp] theorem State.rcount_recd (a lo n k : Nat) : (s.rcount a lo n k).recd = s.recd := rfl
@[simp] theorem State.rcount_aon (a lo n k : Nat) : (s.rcount a lo n k).aon = s.aon := rfl
@[simp] theorem State.rcount_raised (a lo n k : Nat) : (s.rcount a lo n k).raised = s.raised := rfl
@[simp] theorem State.rcount_frzTrig (a lo n k : Nat) : (s.rcount a lo n k).frzTrig = s.frzTrig := rfl
@[simp] theorem State.rcount_stands (a lo n k : Nat) : (s.rcount a lo n k).stands = s.stands := rfl
@[simp] theorem State.rcount_det (a lo n k : Nat) : (s.rcount a lo n k).det = s.det := rfl
@[simp] theorem State.rcount_ses (a lo n k : Nat) : (s.rcount a lo n k).ses = s.ses := rfl
@[simp] theorem State.rcount_cals (a lo n k : Nat) : (s.rcount a lo n k).cals = s.cals := rfl
@[simp] theorem State.rcount_otp (a lo n k : Nat) : (s.rcount a lo n k).otp = s.otp := rfl
@[simp] theorem State.rcount_gen (a lo n k : Nat) : (s.rcount a lo n k).gen = s.gen := rfl
@[simp] theorem State.rcount_image (a lo n k : Nat) : (s.rcount a lo n k).image = s.image := rfl
@[simp] theorem State.rcount_pins (a lo n k : Nat) : (s.rcount a lo n k).pins = s.pins := rfl
@[simp] theorem State.rcount_zones (a lo n k : Nat) : (s.rcount a lo n k).zones = s.zones := rfl
@[simp] theorem State.rcount_pads (a lo n k : Nat) : (s.rcount a lo n k).pads = s.pads := rfl
@[simp] theorem State.rcount_ports (a lo n k : Nat) : (s.rcount a lo n k).ports = s.ports := rfl
@[simp] theorem State.rcount_svcs (a lo n k : Nat) : (s.rcount a lo n k).svcs = s.svcs := rfl
@[simp] theorem State.rcount_links (a lo n k : Nat) : (s.rcount a lo n k).links = s.links := rfl
@[simp] theorem State.rcount_frzWait (a lo n k : Nat) : (s.rcount a lo n k).frzWait = s.frzWait := rfl
@[simp] theorem State.rcount_recovQ (a lo n k : Nat) : (s.rcount a lo n k).recovQ = s.recovQ := rfl
@[simp] theorem State.rcount_sec (a lo n k : Nat) : (s.rcount a lo n k).sec = s.sec := rfl
@[simp] theorem State.rcount_dbg (a lo n k : Nat) : (s.rcount a lo n k).dbg = s.dbg := rfl
@[simp] theorem State.rcount_boot (a lo n k : Nat) : (s.rcount a lo n k).boot = s.boot := rfl

theorem State.modReg_eq (a : Nat) (f : Word → Word) : s.modReg a f = s.setReg a (f (s.reg a)) := rfl
theorem State.modThr_eq (n : Nat) (f : Thread → Thread) : s.modThr n f = s.setThr n (f (s.thr n)) := rfl
theorem State.modChan_eq (n : Nat) (f : Chan → Chan) : s.modChan n f = s.setChan n (f (s.chan n)) := rfl

/-- A register read after a register write. -/
@[simp] theorem State.reg_setReg (a k : Nat) (v : Word) : (s.setReg a v).reg k = if k = a then v else s.reg k := by
  simp [State.reg, State.setReg, Bank.get_put]
/-- A register read after a change of a register. -/
@[simp] theorem State.reg_modReg (a k : Nat) (f : Word → Word) :
    (s.modReg a f).reg k = if k = a then f (s.reg a) else s.reg k := by simp [State.modReg]
@[simp] theorem State.reg_rset (a k b : Nat) : (s.rset a b).reg k = if k = a then setBit (s.reg a) b else s.reg k := by
  simp [State.rset]
@[simp] theorem State.reg_rclr (a k b : Nat) : (s.rclr a b).reg k = if k = a then clrBit (s.reg a) b else s.reg k := by
  simp [State.rclr]
@[simp] theorem State.reg_rput (a k b : Nat) (x : Bool) :
    (s.rput a b x).reg k = if k = a then putBit (s.reg a) b x else s.reg k := by simp [State.rput]
@[simp] theorem State.reg_rsetFld (a k lo n v : Nat) :
    (s.rsetFld a lo n v).reg k = if k = a then setFld (s.reg a) lo n v else s.reg k := by simp [State.rsetFld]
@[simp] theorem State.reg_rcount (a k lo n c : Nat) :
    (s.rcount a lo n c).reg k = if k = a then satFld (s.reg a) lo n c else s.reg k := by simp [State.rcount]
/-- A thread read after a thread write. -/
@[simp] theorem State.thr_setThr (n k : Nat) (h : Thread) : (s.setThr n h).thr k = if k = n then h else s.thr k := by
  simp [State.thr, State.setThr, Bank.get_put]
@[simp] theorem State.thr_modThr (n k : Nat) (f : Thread → Thread) :
    (s.modThr n f).thr k = if k = n then f (s.thr n) else s.thr k := by simp [State.modThr]
/-- A channel read after a channel write. -/
@[simp] theorem State.chan_setChan (n k : Nat) (h : Chan) : (s.setChan n h).chan k = if k = n then h else s.chan k := by
  simp [State.chan, State.setChan, Bank.get_put]
@[simp] theorem State.chan_modChan (n k : Nat) (f : Chan → Chan) :
    (s.modChan n f).chan k = if k = n then f (s.chan n) else s.chan k := by simp [State.modChan]
/-- A stand read after a change of a stand. -/
@[simp] theorem State.stand_modStand (n k : Nat) (f : Stand → Stand) :
    (s.modStand n f).stand k = if k = n then f (s.stand n) else s.stand k := by
  simp [State.stand, State.modStand, Bank.get_put]
/-- A byte read after a byte written. -/
@[simp] theorem State.byte_setByte (a k : Nat) (v : Byte) : (s.setByte a v).byte k = if k = a then v else s.byte k := by
  simp [State.byte, State.setByte, Bank.get_put]

@[simp] theorem State.thr_setReg (k : Nat) (a : Nat) (v : Word) : (s.setReg a v).thr k = s.thr k := rfl
@[simp] theorem State.chan_setReg (k : Nat) (a : Nat) (v : Word) : (s.setReg a v).chan k = s.chan k := rfl
@[simp] theorem State.stand_setReg (k : Nat) (a : Nat) (v : Word) : (s.setReg a v).stand k = s.stand k := rfl
@[simp] theorem State.byte_setReg (k : Nat) (a : Nat) (v : Word) : (s.setReg a v).byte k = s.byte k := rfl
@[simp] theorem State.reg_setThr (k : Nat) (n : Nat) (h : Thread) : (s.setThr n h).reg k = s.reg k := rfl
@[simp] theorem State.chan_setThr (k : Nat) (n : Nat) (h : Thread) : (s.setThr n h).chan k = s.chan k := rfl
@[simp] theorem State.stand_setThr (k : Nat) (n : Nat) (h : Thread) : (s.setThr n h).stand k = s.stand k := rfl
@[simp] theorem State.byte_setThr (k : Nat) (n : Nat) (h : Thread) : (s.setThr n h).byte k = s.byte k := rfl
@[simp] theorem State.reg_setChan (k : Nat) (n : Nat) (h : Chan) : (s.setChan n h).reg k = s.reg k := rfl
@[simp] theorem State.thr_setChan (k : Nat) (n : Nat) (h : Chan) : (s.setChan n h).thr k = s.thr k := rfl
@[simp] theorem State.stand_setChan (k : Nat) (n : Nat) (h : Chan) : (s.setChan n h).stand k = s.stand k := rfl
@[simp] theorem State.byte_setChan (k : Nat) (n : Nat) (h : Chan) : (s.setChan n h).byte k = s.byte k := rfl
@[simp] theorem State.reg_setByte (k : Nat) (a : Nat) (v : Byte) : (s.setByte a v).reg k = s.reg k := rfl
@[simp] theorem State.thr_setByte (k : Nat) (a : Nat) (v : Byte) : (s.setByte a v).thr k = s.thr k := rfl
@[simp] theorem State.chan_setByte (k : Nat) (a : Nat) (v : Byte) : (s.setByte a v).chan k = s.chan k := rfl
@[simp] theorem State.stand_setByte (k : Nat) (a : Nat) (v : Byte) : (s.setByte a v).stand k = s.stand k := rfl
@[simp] theorem State.reg_drew (k : Nat) : (s.drew).reg k = s.reg k := rfl
@[simp] theorem State.thr_drew (k : Nat) : (s.drew).thr k = s.thr k := rfl
@[simp] theorem State.chan_drew (k : Nat) : (s.drew).chan k = s.chan k := rfl
@[simp] theorem State.stand_drew (k : Nat) : (s.drew).stand k = s.stand k := rfl
@[simp] theorem State.byte_drew (k : Nat) : (s.drew).byte k = s.byte k := rfl
@[simp] theorem State.reg_modStand (k : Nat) (n : Nat) (f : Stand → Stand) : (s.modStand n f).reg k = s.reg k := rfl
@[simp] theorem State.thr_modStand (k : Nat) (n : Nat) (f : Stand → Stand) : (s.modStand n f).thr k = s.thr k := rfl
@[simp] theorem State.chan_modStand (k : Nat) (n : Nat) (f : Stand → Stand) : (s.modStand n f).chan k = s.chan k := rfl
@[simp] theorem State.byte_modStand (k : Nat) (n : Nat) (f : Stand → Stand) : (s.modStand n f).byte k = s.byte k := rfl
@[simp] theorem State.thr_modReg (k : Nat) (a : Nat) (f : Word → Word) : (s.modReg a f).thr k = s.thr k := rfl
@[simp] theorem State.chan_modReg (k : Nat) (a : Nat) (f : Word → Word) : (s.modReg a f).chan k = s.chan k := rfl
@[simp] theorem State.stand_modReg (k : Nat) (a : Nat) (f : Word → Word) : (s.modReg a f).stand k = s.stand k := rfl
@[simp] theorem State.byte_modReg (k : Nat) (a : Nat) (f : Word → Word) : (s.modReg a f).byte k = s.byte k := rfl
@[simp] theorem State.reg_modThr (k : Nat) (n : Nat) (f : Thread → Thread) : (s.modThr n f).reg k = s.reg k := rfl
@[simp] theorem State.chan_modThr (k : Nat) (n : Nat) (f : Thread → Thread) : (s.modThr n f).chan k = s.chan k := rfl
@[simp] theorem State.stand_modThr (k : Nat) (n : Nat) (f : Thread → Thread) : (s.modThr n f).stand k = s.stand k := rfl
@[simp] theorem State.byte_modThr (k : Nat) (n : Nat) (f : Thread → Thread) : (s.modThr n f).byte k = s.byte k := rfl
@[simp] theorem State.reg_modChan (k : Nat) (n : Nat) (f : Chan → Chan) : (s.modChan n f).reg k = s.reg k := rfl
@[simp] theorem State.thr_modChan (k : Nat) (n : Nat) (f : Chan → Chan) : (s.modChan n f).thr k = s.thr k := rfl
@[simp] theorem State.stand_modChan (k : Nat) (n : Nat) (f : Chan → Chan) : (s.modChan n f).stand k = s.stand k := rfl
@[simp] theorem State.byte_modChan (k : Nat) (n : Nat) (f : Chan → Chan) : (s.modChan n f).byte k = s.byte k := rfl
@[simp] theorem State.thr_rset (k : Nat) (a j : Nat) : (s.rset a j).thr k = s.thr k := rfl
@[simp] theorem State.chan_rset (k : Nat) (a j : Nat) : (s.rset a j).chan k = s.chan k := rfl
@[simp] theorem State.stand_rset (k : Nat) (a j : Nat) : (s.rset a j).stand k = s.stand k := rfl
@[simp] theorem State.byte_rset (k : Nat) (a j : Nat) : (s.rset a j).byte k = s.byte k := rfl
@[simp] theorem State.thr_rclr (k : Nat) (a j : Nat) : (s.rclr a j).thr k = s.thr k := rfl
@[simp] theorem State.chan_rclr (k : Nat) (a j : Nat) : (s.rclr a j).chan k = s.chan k := rfl
@[simp] theorem State.stand_rclr (k : Nat) (a j : Nat) : (s.rclr a j).stand k = s.stand k := rfl
@[simp] theorem State.byte_rclr (k : Nat) (a j : Nat) : (s.rclr a j).byte k = s.byte k := rfl
@[simp] theorem State.thr_rput (k : Nat) (a j : Nat) (b : Bool) : (s.rput a j b).thr k = s.thr k := rfl
@[simp] theorem State.chan_rput (k : Nat) (a j : Nat) (b : Bool) : (s.rput a j b).chan k = s.chan k := rfl
@[simp] theorem State.stand_rput (k : Nat) (a j : Nat) (b : Bool) : (s.rput a j b).stand k = s.stand k := rfl
@[simp] theorem State.byte_rput (k : Nat) (a j : Nat) (b : Bool) : (s.rput a j b).byte k = s.byte k := rfl
@[simp] theorem State.thr_rsetFld (k : Nat) (a lo n v : Nat) : (s.rsetFld a lo n v).thr k = s.thr k := rfl
@[simp] theorem State.chan_rsetFld (k : Nat) (a lo n v : Nat) : (s.rsetFld a lo n v).chan k = s.chan k := rfl
@[simp] theorem State.stand_rsetFld (k : Nat) (a lo n v : Nat) : (s.rsetFld a lo n v).stand k = s.stand k := rfl
@[simp] theorem State.byte_rsetFld (k : Nat) (a lo n v : Nat) : (s.rsetFld a lo n v).byte k = s.byte k := rfl
@[simp] theorem State.thr_rcount (k : Nat) (a lo n j : Nat) : (s.rcount a lo n j).thr k = s.thr k := rfl
@[simp] theorem State.chan_rcount (k : Nat) (a lo n j : Nat) : (s.rcount a lo n j).chan k = s.chan k := rfl
@[simp] theorem State.stand_rcount (k : Nat) (a lo n j : Nat) : (s.rcount a lo n j).stand k = s.stand k := rfl
@[simp] theorem State.byte_rcount (k : Nat) (a lo n j : Nat) : (s.rcount a lo n j).byte k = s.byte k := rfl

/-! ### Memory keeps its canonical form -/

theorem State.setByte_wf (a : Nat) (v : Byte) (h : Memory.wf s.mem = true) : Memory.wf (s.setByte a v).mem = true :=
  Bank.wf_put _ _ a v h
theorem State.writeLE_wf (n : Nat) : ∀ (s : State) (a v : Nat), Memory.wf s.mem = true → Memory.wf (s.writeLE a n v).mem = true := by
  induction n with
  | zero => intro s a v h; exact h
  | succ n ih => intro s a v h; exact ih _ _ _ (State.setByte_wf s a _ h)
theorem State.writeBytes_wf (l : List Byte) : ∀ (s : State) (a : Nat), Memory.wf s.mem = true → Memory.wf (s.writeBytes a l).mem = true := by
  induction l with
  | nil => intro s a h; exact h
  | cons b r ih => intro s a h; exact ih _ _ (State.setByte_wf s a b h)
/-- A write of `n` bytes leaves every other byte alone. -/
theorem State.byte_writeLE_other (n : Nat) : ∀ (s : State) (a v k : Nat), k < a ∨ a + n ≤ k → (s.writeLE a n v).byte k = s.byte k := by
  induction n with
  | zero => intro s a v k _; rfl
  | succ n ih =>
    intro s a v k h
    have := ih (s.setByte a (BitVec.ofNat 8 v)) (a + 1) (v / 256) k (by omega)
    simp only [State.writeLE, this, State.byte_setByte]
    have hk : k ≠ a := by omega
    simp [hk]
/-- A write of bytes changes memory only. -/
theorem State.writeLE_frame (n : Nat) : ∀ (s : State) (a v : Nat), s.writeLE a n v = { s with mem := (s.writeLE a n v).mem } := by
  induction n with
  | zero => intro s a v; rfl
  | succ n ih => intro s a v; simp only [State.writeLE]; rw [ih]; rfl

end Machine
end Sys2Proof
end

