-- ==== Sys2Proof/Laws/Thread.lean ====
section
/-! SUPPORT. What the shared operations of thread instructions do: register writes, deferred results, and the issue of one
instruction. -/
namespace Sys2Proof
namespace Machine

/-! ### Registers of a thread -/

@[simp] theorem Thread.rg_zero (h : Thread) : h.rg 0 = 0#32 := rfl
/-- A g register read after a write; g0 discards (R188). -/
@[simp] theorem Thread.rg_wg (h : Thread) (r k : Nat) (v : Word) :
    (h.wg r v).rg k = if k = r ∧ r ≠ 0 then v else h.rg k := by
  by_cases hr : r = 0
  · simp [Thread.wg, hr]
  · by_cases hk : k = 0
    · subst hk; simp [Thread.rg, Ne.symm hr]
    · simp [Thread.wg, Thread.rg, hr, hk, Bank.get_put]
/-- A write of a g register changes the g registers only. -/
theorem Thread.wg_frame (h : Thread) (r : Nat) (v : Word) : h.wg r v = { h with g := (h.wg r v).g } := by
  by_cases hr : r = 0 <;> simp [Thread.wg, hr]
/-- An index unit read after a write. -/
@[simp] theorem Thread.rx_wx (h : Thread) (n k : Nat) (u : XUnit) : (h.wx n u).rx k = if k = n then u else h.rx k := by
  simp [Thread.rx, Thread.wx, Bank.get_put]
@[simp] theorem Thread.rg_wx (h : Thread) (n r : Nat) (u : XUnit) : (h.wx n u).rg r = h.rg r := rfl
@[simp] theorem Thread.port_setPort (h : Thread) (p k : Nat) (b : PortBind) :
    (h.setPort p b).port k = if k = p then b else h.port k := by
  simp [Thread.port, Thread.setPort, Bank.get_put]

/-- A register write of an instruction. -/
@[simp] theorem Thread.rg_write (h : Thread) (r k : Nat) (v : Word) :
    (h.write r v).rg k = if k = r ∧ r ≠ 0 then v else h.rg k := by
  have : (h.write r v).rg k = (h.wg r v).rg k := rfl
  rw [this, Thread.rg_wg]
/-- It changes g registers and deferred results only. -/
theorem Thread.write_frame (h : Thread) (r : Nat) (v : Word) :
    h.write r v = { h with g := (h.write r v).g, defer := (h.write r v).defer } := by
  by_cases hr : r = 0 <;> simp [Thread.write, Thread.wg, hr]
/-- No deferred result still writes the register. -/
theorem Thread.write_dests (h : Thread) (r : Nat) (v : Word) : ∀ d ∈ (h.write r v).defer, ∀ p ∈ d.dests, p.1 ≠ r := by
  intro d hd p hp
  simp only [Thread.write, List.mem_map] at hd
  obtain ⟨e, -, rfl⟩ := hd
  simp only [Deferred.cancel, List.mem_filter, bne_iff_ne] at hp
  exact hp.2
/-- Deferred results to other registers stay as they are. -/
theorem Thread.write_dests_sub (h : Thread) (r : Nat) (v : Word) :
    ∀ d ∈ (h.write r v).defer, ∃ e ∈ h.defer, e.wait = d.wait ∧ e.st = d.st ∧ ∀ p ∈ d.dests, p ∈ e.dests := by
  intro d hd
  simp only [Thread.write, List.mem_map] at hd
  obtain ⟨e, he, rfl⟩ := hd
  exact ⟨e, he, rfl, rfl, fun p hp => (List.mem_filter.mp hp).1⟩

/-! ### Deferred results -/

theorem Thread.rg_writeDests (v : BitVec 64) (l : List (Nat × Bool)) :
    ∀ (h : Thread) (k : Nat), (∀ p ∈ l, p.1 ≠ k) → (h.writeDests v l).rg k = h.rg k := by
  induction l with
  | nil => intro h k _; rfl
  | cons p r ih =>
    intro h k hk
    simp only [Thread.writeDests]
    rw [ih _ k (fun q hq => hk q (by simp [hq]))]
    have := hk p (by simp)
    simp [Thread.rg_wg, Ne.symm this]

theorem Thread.writeDests_frame (v : BitVec 64) (l : List (Nat × Bool)) :
    ∀ h : Thread, h.writeDests v l = { h with g := (h.writeDests v l).g } := by
  induction l with
  | nil => intro h; rfl
  | cons p r ih =>
    intro h
    simp only [Thread.writeDests]
    rw [ih, Thread.wg_frame]

/-- A register that no deferred result now due names stays. -/
theorem Thread.rg_writeDue (l : List Deferred) : ∀ (h : Thread) (kept : List Deferred) (k : Nat),
    (∀ d ∈ l, d.wait = 0 → ∀ p ∈ d.dests, p.1 ≠ k) → (h.writeDue kept l).rg k = h.rg k := by
  induction l with
  | nil => intro h kept k _; rfl
  | cons d r ih =>
    intro h kept k hk
    have hr : ∀ e ∈ r, e.wait = 0 → ∀ p ∈ e.dests, p.1 ≠ k := fun e he => hk e (by simp [he])
    simp only [Thread.writeDue]
    split
    · rename_i h0 _
      rw [ih _ _ k hr, Thread.rg_writeDests _ _ h k (hk d (by simp) h0)]
    · exact ih _ _ k hr

theorem Thread.writeDue_frame (l : List Deferred) : ∀ (h : Thread) (kept : List Deferred),
    h.writeDue kept l = { h with g := (h.writeDue kept l).g, defer := (h.writeDue kept l).defer } := by
  induction l with
  | nil => intro h kept; rfl
  | cons d r ih =>
    intro h kept
    simp only [Thread.writeDue]
    split
    · rw [ih, Thread.writeDests_frame]
    · exact ih _ _

/-- One instruction passed: g registers and deferred results only. -/
theorem Thread.retire_frame (h : Thread) : h.retire = { h with g := h.retire.g, defer := h.retire.defer } :=
  Thread.writeDue_frame _ h _
/-- A register without a due deferred result keeps its value when an instruction passes. -/
theorem Thread.rg_retire (h : Thread) (k : Nat) (hk : ∀ d ∈ h.defer, d.wait ≤ 1 → ∀ p ∈ d.dests, p.1 ≠ k) :
    h.retire.rg k = h.rg k := by
  refine Thread.rg_writeDue _ h [] k ?_
  intro d hd h0
  simp only [List.mem_map] at hd
  obtain ⟨e, he, rfl⟩ := hd
  exact hk e he (by simp at h0; omega)
/-- With nothing deferred an instruction's passing changes nothing. -/
@[simp] theorem Thread.retire_settled (h : Thread) (hd : h.defer = []) : h.retire = h := by
  obtain ⟨⟩ := h
  simp only at hd
  subst hd
  rfl

/-! ### The issue of an instruction -/

/-- A thread that cannot issue: nothing happens. -/
theorem State.issue_stays (s : State) (i : Iss) (cp : Bool) (pre : Thread → Option TrapInfo)
    (body : Thread → State → State × Option (BitVec 64)) (h : s.canIssue i.t (cp || i.chk) = false) :
    s.issue i cp pre body = s := by simp [State.issue, h]

/-- The state an instruction's own effect acts on: the issue counted, pc past the instruction. -/
def State.passed (s : State) (i : Iss) : State :=
  (s.countIssue i).modThr i.t (fun h => { h with pc := h.pc + BitVec.ofNat 24 i.len, last := h.pc })

/-- An instruction that issues and meets no trap: its effect, its compare record, and its passing. -/
theorem State.issue_done (s : State) (i : Iss) (cp : Bool) (pre : Thread → Option TrapInfo)
    (body : Thread → State → State × Option (BitVec 64)) (h : s.issues i cp) (hp : pre (s.thr i.t) = none) :
    s.issue i cp pre body =
      ((body (s.thr i.t) (s.passed i)).1.chkRecord i (s.thr i.t).pc (body (s.thr i.t) (s.passed i)).2).retireIssue i.t := by
  obtain ⟨h1, h2, h3, h4, h5⟩ := h
  simp [State.issue, State.meetUpset, h1, h2, h3, h4, h5, hp, State.passed]

/-- An instruction that issues and meets a precise trap. -/
theorem State.issue_traps (s : State) (i : Iss) (cp : Bool) (pre : Thread → Option TrapInfo)
    (body : Thread → State → State × Option (BitVec 64)) (tr : TrapInfo) (h : s.issues i cp) (hp : pre (s.thr i.t) = some tr) :
    s.issue i cp pre body = ((s.countSlot i).preciseTrap i.t tr (s.thr i.t).pc).stepEnd i.t := by
  obtain ⟨h1, h2, h3, h4, h5⟩ := h
  simp [State.issue, State.meetUpset, h1, h2, h3, h4, h5, hp]

@[simp] theorem State.thr_countSlot (s : State) (i : Iss) (k : Nat) : (s.countSlot i).thr k = s.thr k := by
  unfold State.countSlot; split <;> simp
@[simp] theorem State.thr_countIssue (s : State) (i : Iss) (k : Nat) : (s.countIssue i).thr k = s.thr k := by
  simp [State.countIssue]
/-- What the count of a donated slot leaves alone. -/
theorem State.countSlot_frame (s : State) (i : Iss) : s.countSlot i = { s with regs := (s.countSlot i).regs } := by
  unfold State.countSlot; split <;> rfl
theorem State.reg_countSlot_other (s : State) (i : Iss) (a : Nat) (h : ¬ slotRegs i a) :
    (s.countSlot i).reg a = s.reg a := by
  unfold State.countSlot
  split
  · rfl
  · rename_i hn
    have h1 : a ≠ rEDonUse (i.t / 16) := fun e => h ⟨hn, .inl e⟩
    have h2 : a ≠ rEStat (i.t / 16) := fun e => h ⟨hn, .inr e⟩
    simp [h1, h2]
@[simp] theorem State.thr_passed (s : State) (i : Iss) (k : Nat) : (s.passed i).thr k =
    if k = i.t then { s.thr i.t with pc := (s.thr i.t).pc + BitVec.ofNat 24 i.len, last := (s.thr i.t).pc } else s.thr k := by
  simp [State.passed]
/-- What the count of an issue and the pc's advance leave alone. -/
theorem State.passed_frame (s : State) (i : Iss) :
    s.passed i = { s with threads := (s.passed i).threads, regs := (s.passed i).regs } := by
  unfold State.passed State.countIssue; rw [State.countSlot_frame]; rfl
theorem State.reg_passed (s : State) (i : Iss) (a : Nat) : (s.passed i).reg a = (s.countIssue i).reg a := rfl

end Machine
end Sys2Proof
end

