-- ==== Sys2Proof/Laws/Issue.lean ====
section
/-! SUPPORT. What an instruction that issues does, once for each shared form of issue. -/
namespace Sys2Proof
namespace Machine

theorem rEIcnt_ne_rEDonUse (t e : Nat) : rEIcnt t ≠ rEDonUse e := by
  simp only [rEIcnt, rEDonUse, rE]; omega

theorem loW_eq (v : BitVec 64) : loW v = v.setWidth 32 := by
  apply BitVec.eq_of_toNat_eq; simp [loW, BitVec.extractLsb'_toNat]
theorem hiW_eq (v : BitVec 64) : hiW v = (v >>> 32).setWidth 32 := by
  apply BitVec.eq_of_toNat_eq; simp [hiW, BitVec.extractLsb'_toNat]

/-- The unit registers that the count of an issue changes. -/
theorem State.reg_countIssue_other (s : State) (i : Iss) (a : Nat)
    (h : ¬ (a = rEIcnt i.t ∨ slotRegs i a)) : (s.countIssue i).reg a = s.reg a := by
  obtain ⟨h1, h2⟩ := not_or.mp h
  simp [State.countIssue, State.reg_countSlot_other _ i a h2, h1]

theorem State.chkRecord_thr (s : State) (i : Iss) (pc : Addr) (v : Option (BitVec 64)) (k : Nat) :
    (s.chkRecord i pc v).thr k = if k = i.t then
      (if i.chk && (s.thr i.t).twin then
        { s.thr i.t with recs := (s.thr i.t).recs ++ [.chk pc.toNat (v.getD ((s.thr i.t).pc.setWidth 64))] } else s.thr i.t)
      else s.thr k := by
  simp [State.chkRecord]
theorem State.chkRecord_frame (s : State) (i : Iss) (pc : Addr) (v : Option (BitVec 64)) :
    s.chkRecord i pc v = { s with threads := (s.chkRecord i pc v).threads } := rfl
@[simp] theorem State.reg_chkRecord (s : State) (i : Iss) (pc : Addr) (v : Option (BitVec 64)) (a : Nat) :
    (s.chkRecord i pc v).reg a = s.reg a := rfl

theorem State.haltOne_thr (s : State) (t k : Nat) : (s.haltOne t).thr k = if k = t ∧ (s.thr t).halted = false then
    { s.thr t with halted := true, step := false, haltTag := s.stamp + 1 } else s.thr k := by
  unfold State.haltOne
  split <;> rename_i h
  · simp [h]
  · simp only [Bool.not_eq_true] at h
    simp only [State.modThr, State.thr_setThr, h, and_true]
    split <;> rfl
theorem State.haltOne_frame (s : State) (t : Nat) :
    s.haltOne t = { s with threads := (s.haltOne t).threads, stamp := (s.haltOne t).stamp } := by
  unfold State.haltOne; split <;> rfl
theorem State.reg_haltOne (s : State) (t a : Nat) : (s.haltOne t).reg a = s.reg a := by
  unfold State.haltOne; split <;> rfl

/-- What the end of a single step does to a thread (R519). -/
theorem State.stepEnd_thr (s : State) (t : Nat) :
    ∃ a b c, (s.stepEnd t).thr t = { s.thr t with halted := a, step := b, haltTag := c } := by
  unfold State.stepEnd
  split
  · rw [State.haltOne_thr]
    split <;> exact ⟨_, _, _, rfl⟩
  · exact ⟨_, _, _, rfl⟩
theorem State.stepEnd_other (s : State) (t k : Nat) (h : k ≠ t) : (s.stepEnd t).thr k = s.thr k := by
  unfold State.stepEnd
  split <;> simp [State.haltOne_thr, h]
theorem State.stepEnd_frame (s : State) (t : Nat) :
    s.stepEnd t = { s with threads := (s.stepEnd t).threads, stamp := (s.stepEnd t).stamp } := by
  unfold State.stepEnd
  split
  · rw [State.haltOne_frame]
  · rfl
theorem State.reg_stepEnd (s : State) (t a : Nat) : (s.stepEnd t).reg a = s.reg a := by
  unfold State.stepEnd
  split <;> simp [State.reg_haltOne]

/-- What the passing of an instruction does to a thread. -/
theorem State.retireIssue_thr (s : State) (t : Nat) :
    ∃ a b c, (s.retireIssue t).thr t = { (s.thr t).retire with halted := a, step := b, haltTag := c } := by
  obtain ⟨a, b, c, h⟩ := State.stepEnd_thr (s.modThr t Thread.retire) t
  refine ⟨a, b, c, ?_⟩
  rw [State.retireIssue, h]
  simp
theorem State.retireIssue_other (s : State) (t k : Nat) (h : k ≠ t) : (s.retireIssue t).thr k = s.thr k := by
  rw [State.retireIssue, State.stepEnd_other _ _ _ h]
  simp [h]
theorem State.retireIssue_frame (s : State) (t : Nat) :
    s.retireIssue t = { s with threads := (s.retireIssue t).threads, stamp := (s.retireIssue t).stamp } := by
  rw [State.retireIssue, State.stepEnd_frame]
  rfl
theorem State.reg_retireIssue (s : State) (t a : Nat) : (s.retireIssue t).reg a = s.reg a := by
  rw [State.retireIssue, State.reg_stepEnd]
  rfl

/-- The state after an instruction whose effect on its thread is `f`. -/
def State.after (s : State) (i : Iss) (f : Thread → Thread) (v : Option (BitVec 64)) : State :=
  (((s.passed i).modThr i.t f).chkRecord i (s.thr i.t).pc v).retireIssue i.t

/-- An instruction that touches its thread alone keeps the other threads and every other unit. -/
theorem State.after_keeps (s : State) (i : Iss) (f : Thread → Thread) (v : Option (BitVec 64)) :
    issueKeeps s (s.after i f v) i := by
  refine ⟨?_, ?_, ?_⟩
  · intro k hk
    simp [State.after, State.retireIssue_other _ _ _ hk, State.chkRecord_thr, hk]
  · intro a ha
    simp [State.after, State.reg_retireIssue, State.reg_passed, State.reg_countIssue_other s i a ha]
  · unfold State.after sameUnits
    rw [State.retireIssue_frame, State.chkRecord_frame]
    simp only [State.modThr, State.setThr]
    rw [State.passed_frame]

/-- The thread after it: what `f` makes of it, with a compare record more or less, passed. -/
theorem State.after_thr (s : State) (i : Iss) (f : Thread → Thread) (v : Option (BitVec 64)) (K : Thread)
    (hK : K = f { s.thr i.t with pc := (s.thr i.t).pc + BitVec.ofNat 24 i.len, last := (s.thr i.t).pc }) :
    ∃ r a b c, (s.after i f v).thr i.t = { ({ K with recs := r } : Thread).retire with halted := a, step := b, haltTag := c } := by
  obtain ⟨a, b, c, h⟩ := State.retireIssue_thr (((s.passed i).modThr i.t f).chkRecord i (s.thr i.t).pc v) i.t
  unfold State.after
  rw [h, State.chkRecord_thr]
  simp only [if_true, State.thr_modThr, State.thr_passed, ← hK]
  split
  · exact ⟨_, a, b, c, rfl⟩
  · exact ⟨_, a, b, c, rfl⟩

/-- A register of it that no due deferred result names. -/
theorem State.after_rg (s : State) (i : Iss) (f : Thread → Thread) (v : Option (BitVec 64)) (K : Thread)
    (hK : K = f { s.thr i.t with pc := (s.thr i.t).pc + BitVec.ofNat 24 i.len, last := (s.thr i.t).pc }) (q : Nat)
    (hq : ∀ d ∈ K.defer, d.wait ≤ 1 → ∀ p ∈ d.dests, p.1 ≠ q) : ((s.after i f v).thr i.t).rg q = K.rg q := by
  obtain ⟨r, a, b, c, ht⟩ := State.after_thr s i f v K hK
  rw [ht]
  exact Thread.rg_retire { K with recs := r } q hq

/-- Everything of it but its g registers and deferred results. -/
theorem State.after_rest (s : State) (i : Iss) (f : Thread → Thread) (v : Option (BitVec 64)) (K : Thread)
    (hK : K = f { s.thr i.t with pc := (s.thr i.t).pc + BitVec.ofNat 24 i.len, last := (s.thr i.t).pc }) :
    ∃ g d r a b c, (s.after i f v).thr i.t =
      { K with g := g, defer := d, recs := r, halted := a, step := b, haltTag := c } := by
  obtain ⟨r, a, b, c, ht⟩ := State.after_thr s i f v K hK
  rw [ht, Thread.retire_frame]
  exact ⟨_, _, _, _, _, _, rfl⟩

/-- An instruction that writes one register. -/
theorem State.issueVal_wrote (s : State) (i : Iss) (rd : Nat) (f : Thread → Word) (h : s.issues i false) :
    wrote s (s.issueVal i true rd f) i rd (f (s.thr i.t)) := by
  have e : s.issueVal i true rd f =
      s.after i (fun k => k.write rd (f (s.thr i.t))) (some ((f (s.thr i.t)).setWidth 64)) := by
    unfold State.issueVal; rw [State.issue_done s i false _ _ h rfl]; rfl
  rw [e]
  have hk := State.after_keeps s i (fun k => k.write rd (f (s.thr i.t))) (some ((f (s.thr i.t)).setWidth 64))
  have hr := State.after_rg s i (fun k => k.write rd (f (s.thr i.t))) (some ((f (s.thr i.t)).setWidth 64)) _ rfl
  obtain ⟨g, d, r, a, b, c, ht⟩ :=
    State.after_rest s i (fun k => k.write rd (f (s.thr i.t))) (some ((f (s.thr i.t)).setWidth 64)) _ rfl
  refine ⟨?_, ?_, ?_, ?_, hk⟩
  · rw [hr rd (fun d hd _ p hp => Thread.write_dests _ rd _ d hd p hp), Thread.rg_write]
    by_cases h0 : rd = 0 <;> simp [h0]
  · intro q hq hu
    rw [hr q, Thread.rg_write]
    · rw [if_neg (fun x => hq x.1)]; rfl
    · intro d hd hw p hp
      obtain ⟨e, he, hew, -, hsub⟩ := Thread.write_dests_sub _ rd _ d hd
      exact hu e he (by omega) p (hsub p hp)
  · rw [ht, Thread.write_frame]; rfl
  · unfold threadKeeps; rw [ht, Thread.write_frame]

/-- An instruction that writes a register pair. -/
theorem State.issuePair_wrote (s : State) (i : Iss) (rd : Nat) (f : Thread → BitVec 64) (h : s.issues i false) :
    wrotePair s (s.issuePair i true rd f) i rd (f (s.thr i.t)) := by
  have e : s.issuePair i true rd f = s.after i (fun k => k.writePair rd (f (s.thr i.t))) (some (f (s.thr i.t))) := by
    unfold State.issuePair; rw [State.issue_done s i false _ _ h rfl]; rfl
  rw [e]
  have hk := State.after_keeps s i (fun k => k.writePair rd (f (s.thr i.t))) (some (f (s.thr i.t)))
  have hr := State.after_rg s i (fun k => k.writePair rd (f (s.thr i.t))) (some (f (s.thr i.t))) _ rfl
  obtain ⟨g, d, r, a, b, c, ht⟩ := State.after_rest s i (fun k => k.writePair rd (f (s.thr i.t))) (some (f (s.thr i.t))) _ rfl
  have hsub : ∀ (k : Thread) (v : BitVec 64), ∀ d ∈ (k.writePair rd v).defer,
      (∀ p ∈ d.dests, p.1 ≠ rd ∧ p.1 ≠ rd + 1) ∧ ∃ e ∈ k.defer, e.wait = d.wait ∧ ∀ p ∈ d.dests, p ∈ e.dests := by
    intro k v d hd
    obtain ⟨e, he, h1, -, h3⟩ := Thread.write_dests_sub _ (rd + 1) _ d hd
    obtain ⟨e', he', h1', -, h3'⟩ := Thread.write_dests_sub _ rd _ e he
    exact ⟨fun p hp => ⟨Thread.write_dests _ rd _ e he p (h3 p hp), Thread.write_dests _ (rd + 1) _ d hd p hp⟩,
      e', he', h1'.trans h1, fun p hp => h3' p (h3 p hp)⟩
  refine ⟨?_, ?_, ?_, ?_, ?_, hk⟩
  · rw [hr rd (fun d hd _ p hp => ((hsub _ _ d hd).1 p hp).1)]
    simp only [Thread.writePair, Thread.rg_write]
    by_cases h0 : rd = 0 <;> simp [h0, loW_eq]
  · rw [hr (rd + 1) (fun d hd _ p hp => ((hsub _ _ d hd).1 p hp).2)]
    simp [Thread.writePair, hiW_eq]
  · intro q hq hu
    obtain ⟨hq1, hq2⟩ := not_or.mp hq
    rw [hr q]
    · simp [Thread.writePair, hq1, hq2]; rfl
    · intro d hd hw p hp
      obtain ⟨e, he, hew, hs⟩ := (hsub _ _ d hd).2
      exact hu e he (by omega) p (hs p hp)
  · rw [ht, Thread.writePair, Thread.write_frame, Thread.write_frame]; rfl
  · unfold threadKeeps; rw [ht, Thread.writePair, Thread.write_frame, Thread.write_frame]

/-- What `writeDue` leaves of a result that is not yet due, at the end of the list. -/
theorem Thread.writeDue_last (l : List Deferred) (x : Deferred) (hx : x.wait ≠ 0) : ∀ (h : Thread) (kept : List Deferred),
    x ∈ (h.writeDue kept (l ++ [x])).defer := by
  induction l with
  | nil =>
    intro h kept
    cases hw : x.wait with
    | zero => exact absurd hw hx
    | succ n => simp [Thread.writeDue, hw]
  | cons d r ih =>
    intro h kept
    simp only [List.cons_append, Thread.writeDue]
    split
    · exact ih _ _
    · exact ih _ _

/-- An instruction whose result comes two instructions later. -/
theorem State.issue_deferVal (s : State) (i : Iss) (dests : List (Nat × Bool)) (v : BitVec 64) (o : Option (BitVec 64)) :
    leftResult s (s.after i (fun k => k.deferVal dests 2 v) o) i dests v := by
  have hk := State.after_keeps s i (fun k => k.deferVal dests 2 v) o
  have hr := State.after_rg s i (fun k => k.deferVal dests 2 v) o _ rfl
  obtain ⟨g, d, r, a, b, c, ht⟩ := State.after_rest s i (fun k => k.deferVal dests 2 v) o _ rfl
  obtain ⟨r', a', b', c', ht'⟩ := State.after_thr s i (fun k => k.deferVal dests 2 v) o _ rfl
  refine ⟨⟨{ dests := dests, wait := 2, st := .ready v }, ?_, rfl, rfl, rfl⟩, ?_, ?_, ?_, hk⟩
  · rw [ht']
    simp only [Thread.retire, Thread.deferVal, List.map_append, List.map_cons, List.map_nil]
    exact Thread.writeDue_last _ _ (by simp) _ _
  · intro q _ hu
    rw [hr q]
    · rfl
    · intro d hd hw p hp
      simp only [Thread.deferVal, List.mem_append, List.mem_singleton] at hd
      rcases hd with hd | rfl
      · exact hu d hd hw p hp
      · simp at hw
  · unfold nextPc; rw [ht]; rfl
  · unfold threadKeeps; rw [ht]; rfl

theorem State.issueDelayed_left (s : State) (i : Iss) (rd : Nat) (f : Thread → Word) (h : s.issues i false) :
    leftResult s (s.issueDelayed i rd f) i [(rd, false)] ((f (s.thr i.t)).setWidth 64) := by
  have e : s.issueDelayed i rd f = s.after i (fun k => k.deferVal [(rd, false)] 2 ((f (s.thr i.t)).setWidth 64))
      (some ((f (s.thr i.t)).setWidth 64)) := by
    unfold State.issueDelayed; rw [State.issue_done s i false _ _ h rfl]; rfl
  rw [e]; exact State.issue_deferVal s i _ _ _
theorem State.issueDelayedPair_left (s : State) (i : Iss) (rd : Nat) (f : Thread → BitVec 64) (h : s.issues i false) :
    leftResult s (s.issueDelayedPair i true rd f) i [(rd, false), (rd + 1, true)] (f (s.thr i.t)) := by
  have e : s.issueDelayedPair i true rd f = s.after i (fun k => k.deferVal [(rd, false), (rd + 1, true)] 2 (f (s.thr i.t)))
      (some (f (s.thr i.t))) := by
    unfold State.issueDelayedPair; rw [State.issue_done s i false _ _ h rfl]; rfl
  rw [e]; exact State.issue_deferVal s i _ _ _

/-- An instruction that only changes its thread. -/
theorem State.issueThr_after (s : State) (i : Iss) (f : Thread → Thread) (h : s.issues i false) :
    s.issueThr i true f = s.after i f none := by
  unfold State.issueThr; rw [State.issue_done s i false _ _ h rfl]; rfl

end Machine
end Sys2Proof
end

