-- ==== Sys2Proof/Laws/Ops.lean ====
section
/-! SUPPORT. What the shared operations over register fields, recorder updates, event pulses, alarm sources and gated domains can do. -/
namespace Sys2Proof
namespace Machine

/-! ### Bits and fields of a word -/

/-- A power of two as a word: its one bit. -/
theorem getLsbD_twoPow (k b : Nat) (h : b < 32) : (BitVec.ofNat 32 (2 ^ k)).getLsbD b = decide (b = k) := by
  rw [BitVec.getLsbD_ofNat, Nat.testBit_two_pow]
  by_cases hb : b = k <;> simp [hb, h, eq_comm] <;> omega
@[simp] theorem getLsbD_setBit (w : Word) (k b : Nat) (h : b < 32) : (setBit w k).getLsbD b = (w.getLsbD b || decide (b = k)) := by
  simp only [setBit, BitVec.getLsbD_or, getLsbD_twoPow k b h]
@[simp] theorem getLsbD_clrBit (w : Word) (k b : Nat) (h : b < 32) : (clrBit w k).getLsbD b = (w.getLsbD b && !decide (b = k)) := by
  simp only [clrBit, BitVec.getLsbD_and, BitVec.getLsbD_not, getLsbD_twoPow k b h, h, decide_true, Bool.true_and]
@[simp] theorem getLsbD_putBit (w : Word) (k b : Nat) (x : Bool) (h : b < 32) :
    (putBit w k x).getLsbD b = if b = k then x else w.getLsbD b := by
  cases x
  · rw [show putBit w k false = clrBit w k from rfl, getLsbD_clrBit w k b h]; by_cases hb : b = k <;> simp [hb]
  · rw [show putBit w k true = setBit w k from rfl, getLsbD_setBit w k b h]; by_cases hb : b = k <;> simp [hb]
/-- A field is the word's bits from its lowest on. -/
theorem fld_eq_extract (w : Word) (lo n : Nat) : fld w lo n = (w.extractLsb' lo n).toNat := by
  simp [fld, BitVec.extractLsb'_toNat, Nat.shiftRight_eq_div_pow]
theorem fld_lt (w : Word) (lo n : Nat) : fld w lo n < 2 ^ n := Nat.mod_lt _ (Nat.two_pow_pos n)
theorem testBit_fld (w : Word) (lo n b : Nat) : (fld w lo n).testBit b = (decide (b < n) && w.getLsbD (lo + b)) := by
  rw [fld_eq_extract, BitVec.testBit_toNat, BitVec.getLsbD_extractLsb']
/-- The ones of a field's mask. -/
theorem getLsbD_fmask (lo n b : Nat) (h : b < 32) : (fmask lo n).getLsbD b = (decide (lo ≤ b) && decide (b < lo + n)) := by
  rw [fmask, BitVec.getLsbD_ofNat, Nat.testBit_mul_two_pow, Nat.testBit_two_pow_sub_one]
  by_cases h1 : lo ≤ b <;> by_cases h2 : b < lo + n <;> simp [h, h1, h2] <;> omega
/-- A field written reads as its low `n` bits in the field, as the word was elsewhere. -/
theorem getLsbD_setFld (w : Word) (lo n v b : Nat) (h : b < 32) :
    (setFld w lo n v).getLsbD b = if lo ≤ b ∧ b < lo + n then v.testBit (b - lo) else w.getLsbD b := by
  rw [setFld, BitVec.getLsbD_or, BitVec.getLsbD_and, BitVec.getLsbD_not, getLsbD_fmask lo n b h, BitVec.getLsbD_ofNat,
    Nat.testBit_mul_two_pow, Nat.testBit_mod_two_pow]
  by_cases h1 : lo ≤ b
  · by_cases h2 : b < lo + n
    · have h3 : b - lo < n := by omega
      simp [h, h1, h2, h3]
    · have h3 : ¬ b - lo < n := by omega
      simp [h, h1, h2, h3]
  · simp [h, h1]
theorem fld_setFld_same (w : Word) (lo n v : Nat) (h : lo + n ≤ 32) : fld (setFld w lo n v) lo n = v % 2 ^ n := by
  apply Nat.eq_of_testBit_eq
  intro b
  rw [testBit_fld, Nat.testBit_mod_two_pow]
  by_cases hb : b < n
  · rw [getLsbD_setFld _ _ _ _ _ (by omega), if_pos (by omega)]
    simp
  · simp [hb]
theorem fld_setFld_other (w : Word) (lo n v lo' n' : Nat) (h : lo' + n' ≤ 32) (hd : lo' + n' ≤ lo ∨ lo + n ≤ lo') :
    fld (setFld w lo n v) lo' n' = fld w lo' n' := by
  apply Nat.eq_of_testBit_eq
  intro b
  rw [testBit_fld, testBit_fld]
  by_cases hb : b < n'
  · rw [getLsbD_setFld _ _ _ _ _ (by omega), if_neg (by omega)]
  · simp [hb]
/-- A counter field counted up by one saturates (R545). -/
theorem fld_satFld (w : Word) (lo n : Nat) (h : lo + n ≤ 32) : fld (satFld w lo n 1) lo n = min (2 ^ n - 1) (fld w lo n + 1) := by
  have := Nat.two_pow_pos n
  rw [satFld, fld_setFld_same _ _ _ _ h, satAdd, Nat.mod_eq_of_lt (by omega)]
theorem State.rcount_ticked (s : State) (a lo n : Nat) (h : lo + n ≤ 32) : ticked (s.reg a) ((s.rcount a lo n 1).reg a) lo n := by
  simp [ticked, fld_satFld _ _ _ h]

/-! ### Gated domains -/

theorem State.gated_running (s t : State) (h : s.mode ≠ .halted) : s.gated t = t := by simp [State.gated, h]
theorem State.gated_halted (s t : State) (h : s.mode = .halted) : s.gated t = s := by simp [State.gated, h]

/-! ### Pulses, recorder updates, alarm sources: what they change -/

theorem State.pulse_frame (s : State) (q : Nat) : s.pulse q = { s with fires := (s.pulse q).fires } := rfl
/-- An update reaches the queue, or is counted as lost. -/
theorem State.recPush_frame (s : State) (u : RecUpd) :
    s.recPush u = { s with recd := (s.recPush u).recd, regs := (s.recPush u).regs } := by
  unfold State.recPush; split
  · rfl
  · split <;> rfl
theorem State.recPush_regs (s : State) (u : RecUpd) : sameRegs s (s.recPush u) (fun a => a = rErQlost) := by
  intro a h
  unfold State.recPush; split
  · rfl
  · split
    · rfl
    · rw [State.reg_rcount, if_neg h]
theorem State.recPush_pool (s : State) (u : RecUpd) : (s.recPush u).recd = { s.recd with queue := (s.recPush u).recd.queue } := by
  unfold State.recPush; split
  · rfl
  · split <;> rfl
/-- An alarm source raised changes its counters, the recorder's queue and the sources that wait. -/
theorem State.raise_frame (s : State) (src : Nat) :
    s.raise src = { s with regs := (s.raise src).regs, recd := (s.raise src).recd, raised := s.raised ++ [src] } := by
  unfold State.raise State.recBin
  dsimp only
  rw [State.recPush_frame]
  split <;> rfl
theorem State.freezeTrigger_frame (s : State) (b : Nat) :
    s.freezeTrigger b = { s with regs := (s.freezeTrigger b).regs, frzTrig := (s.freezeTrigger b).frzTrig } := by
  unfold State.freezeTrigger; split <;> rfl

/-! ### The canonical form kept -/

theorem State.setReg_canon (s : State) (a : Nat) (v : Word) (h : s.canon) : (s.setReg a v).canon := ⟨h.1, Bank.wf_put _ _ a v h.2⟩
theorem State.setByte_canon (s : State) (a : Nat) (v : Byte) (h : s.canon) : (s.setByte a v).canon := ⟨State.setByte_wf s a v h.1, h.2⟩
theorem State.writeLE_canon (s : State) (a n v : Nat) (h : s.canon) : (s.writeLE a n v).canon := by
  refine ⟨State.writeLE_wf n s a v h.1, ?_⟩
  rw [State.writeLE_frame]; exact h.2
theorem State.recPush_canon (s : State) (u : RecUpd) (h : s.canon) : (s.recPush u).canon := by
  unfold State.recPush; split
  · exact h
  · split
    · exact h
    · exact State.setReg_canon _ _ _ h
theorem State.raise_canon (s : State) (src : Nat) (h : s.canon) : (s.raise src).canon := by
  unfold State.raise State.recBin
  dsimp only
  have k (s : State) (h : s.canon) : (((s.rcount (rSecAcnt src) 0 16 1).rsetFld rSecStat 8 4 src).recPush
      { key := { unit := 0x0C, metric := 0x01, index := 0 }, sev := 4, dat := .bin src 1 }).canon :=
    State.recPush_canon _ _ (State.setReg_canon _ _ _ (State.setReg_canon _ _ _ h))
  split
  · exact k _ (State.setReg_canon _ _ _ h)
  · exact k _ h
theorem State.gated_canon (s t : State) (h : s.canon) (k : t.canon) : (s.gated t).canon := by
  unfold State.gated; split <;> assumption
theorem State.each_canon (l : List Nat) (f : State → Nat → State) (hf : ∀ s n, s.canon → (f s n).canon) :
    ∀ s : State, s.canon → (s.each l f).canon := by
  induction l with
  | nil => intro s h; exact h
  | cons n l ih => intro s h; exact ih _ (hf s n h)

end Machine
end Sys2Proof
end

