-- ==== Sys2Proof/Laws/PerInstr.lean ====
section
/-! SUPPORT. Statements made per command. Family Length (R191): a well-formed thread instruction is 1 to 12 bytes long; a command of another
kind issues no instruction. -/
namespace Sys2Proof
namespace Laws

/-- R191: the length of a well-formed command that a thread issues. -/
def Length.Statement (c : Instr) : Prop := ∀ q, c.iss? = some q → c.wellFormed = true → 1 ≤ q.len.val ∧ q.len.val ≤ 12

/-- What makes the statement true: a well-formed command's issue operands are. -/
theorem Length.of_wellFormed (c : Instr) : Length.Statement c := by
  intro q h w
  unfold Instr.wellFormed at w
  rw [h, Bool.and_eq_true] at w
  exact ⟨of_decide_eq_true w.2, Nat.le_of_lt_succ q.len.isLt⟩

theorem Length.add : ∀ a b c d e, Length.Statement (.add a b c d e) := fun a b c d e => Length.of_wellFormed (.add a b c d e)
theorem Length.sub : ∀ a b c d e, Length.Statement (.sub a b c d e) := fun a b c d e => Length.of_wellFormed (.sub a b c d e)
theorem Length.and : ∀ a b c d e, Length.Statement (.and a b c d e) := fun a b c d e => Length.of_wellFormed (.and a b c d e)
theorem Length.or : ∀ a b c d e, Length.Statement (.or a b c d e) := fun a b c d e => Length.of_wellFormed (.or a b c d e)
theorem Length.xor : ∀ a b c d e, Length.Statement (.xor a b c d e) := fun a b c d e => Length.of_wellFormed (.xor a b c d e)
theorem Length.shl : ∀ a b c d e, Length.Statement (.shl a b c d e) := fun a b c d e => Length.of_wellFormed (.shl a b c d e)
theorem Length.shr : ∀ a b c d e, Length.Statement (.shr a b c d e) := fun a b c d e => Length.of_wellFormed (.shr a b c d e)
theorem Length.sra : ∀ a b c d e, Length.Statement (.sra a b c d e) := fun a b c d e => Length.of_wellFormed (.sra a b c d e)
theorem Length.ror : ∀ a b c d, Length.Statement (.ror a b c d) := fun a b c d => Length.of_wellFormed (.ror a b c d)
theorem Length.mul : ∀ a b c d e, Length.Statement (.mul a b c d e) := fun a b c d e => Length.of_wellFormed (.mul a b c d e)
theorem Length.mulh : ∀ a b c d, Length.Statement (.mulh a b c d) := fun a b c d => Length.of_wellFormed (.mulh a b c d)
theorem Length.mulhu : ∀ a b c d, Length.Statement (.mulhu a b c d) := fun a b c d => Length.of_wellFormed (.mulhu a b c d)
theorem Length.div : ∀ a b c d, Length.Statement (.div a b c d) := fun a b c d => Length.of_wellFormed (.div a b c d)
theorem Length.divu : ∀ a b c d, Length.Statement (.divu a b c d) := fun a b c d => Length.of_wellFormed (.divu a b c d)
theorem Length.rem : ∀ a b c d, Length.Statement (.rem a b c d) := fun a b c d => Length.of_wellFormed (.rem a b c d)
theorem Length.remu : ∀ a b c d, Length.Statement (.remu a b c d) := fun a b c d => Length.of_wellFormed (.remu a b c d)
theorem Length.min : ∀ a b c d, Length.Statement (.min a b c d) := fun a b c d => Length.of_wellFormed (.min a b c d)
theorem Length.max : ∀ a b c d, Length.Statement (.max a b c d) := fun a b c d => Length.of_wellFormed (.max a b c d)
theorem Length.minu : ∀ a b c d, Length.Statement (.minu a b c d) := fun a b c d => Length.of_wellFormed (.minu a b c d)
theorem Length.maxu : ∀ a b c d, Length.Statement (.maxu a b c d) := fun a b c d => Length.of_wellFormed (.maxu a b c d)
theorem Length.sel : ∀ a b c d e, Length.Statement (.sel a b c d e) := fun a b c d e => Length.of_wellFormed (.sel a b c d e)
theorem Length.mov : ∀ a b c d, Length.Statement (.mov a b c d) := fun a b c d => Length.of_wellFormed (.mov a b c d)
theorem Length.not : ∀ a b c, Length.Statement (.not a b c) := fun a b c => Length.of_wellFormed (.not a b c)
theorem Length.neg : ∀ a b c d, Length.Statement (.neg a b c d) := fun a b c d => Length.of_wellFormed (.neg a b c d)
theorem Length.abs : ∀ a b c d, Length.Statement (.abs a b c d) := fun a b c d => Length.of_wellFormed (.abs a b c d)
theorem Length.clz : ∀ a b c, Length.Statement (.clz a b c) := fun a b c => Length.of_wellFormed (.clz a b c)
theorem Length.popc : ∀ a b c, Length.Statement (.popc a b c) := fun a b c => Length.of_wellFormed (.popc a b c)
theorem Length.bswap : ∀ a b c, Length.Statement (.bswap a b c) := fun a b c => Length.of_wellFormed (.bswap a b c)
theorem Length.andn : ∀ a b c d, Length.Statement (.andn a b c d) := fun a b c d => Length.of_wellFormed (.andn a b c d)
theorem Length.addi : ∀ a b c d e, Length.Statement (.addi a b c d e) := fun a b c d e => Length.of_wellFormed (.addi a b c d e)
theorem Length.rsubi : ∀ a b c d e, Length.Statement (.rsubi a b c d e) := fun a b c d e => Length.of_wellFormed (.rsubi a b c d e)
theorem Length.andi : ∀ a b c d, Length.Statement (.andi a b c d) := fun a b c d => Length.of_wellFormed (.andi a b c d)
theorem Length.ori : ∀ a b c d, Length.Statement (.ori a b c d) := fun a b c d => Length.of_wellFormed (.ori a b c d)
theorem Length.xori : ∀ a b c d, Length.Statement (.xori a b c d) := fun a b c d => Length.of_wellFormed (.xori a b c d)
theorem Length.shli : ∀ a b c d e, Length.Statement (.shli a b c d e) := fun a b c d e => Length.of_wellFormed (.shli a b c d e)
theorem Length.shri : ∀ a b c d, Length.Statement (.shri a b c d) := fun a b c d => Length.of_wellFormed (.shri a b c d)
theorem Length.srai : ∀ a b c d, Length.Statement (.srai a b c d) := fun a b c d => Length.of_wellFormed (.srai a b c d)
theorem Length.rori : ∀ a b c d, Length.Statement (.rori a b c d) := fun a b c d => Length.of_wellFormed (.rori a b c d)
theorem Length.muli : ∀ a b c d e, Length.Statement (.muli a b c d e) := fun a b c d e => Length.of_wellFormed (.muli a b c d e)
theorem Length.movi : ∀ a b c d, Length.Statement (.movi a b c d) := fun a b c d => Length.of_wellFormed (.movi a b c d)
theorem Length.mini : ∀ a b c d, Length.Statement (.mini a b c d) := fun a b c d => Length.of_wellFormed (.mini a b c d)
theorem Length.maxi : ∀ a b c d, Length.Statement (.maxi a b c d) := fun a b c d => Length.of_wellFormed (.maxi a b c d)
theorem Length.seq : ∀ a b c d e, Length.Statement (.seq a b c d e) := fun a b c d e => Length.of_wellFormed (.seq a b c d e)
theorem Length.sne : ∀ a b c d e, Length.Statement (.sne a b c d e) := fun a b c d e => Length.of_wellFormed (.sne a b c d e)
theorem Length.slt : ∀ a b c d e, Length.Statement (.slt a b c d e) := fun a b c d e => Length.of_wellFormed (.slt a b c d e)
theorem Length.sltu : ∀ a b c d e, Length.Statement (.sltu a b c d e) := fun a b c d e => Length.of_wellFormed (.sltu a b c d e)
theorem Length.sle : ∀ a b c d, Length.Statement (.sle a b c d) := fun a b c d => Length.of_wellFormed (.sle a b c d)
theorem Length.sleu : ∀ a b c d, Length.Statement (.sleu a b c d) := fun a b c d => Length.of_wellFormed (.sleu a b c d)
theorem Length.stst : ∀ a b c d, Length.Statement (.stst a b c d) := fun a b c d => Length.of_wellFormed (.stst a b c d)
theorem Length.seqi : ∀ a b c d, Length.Statement (.seqi a b c d) := fun a b c d => Length.of_wellFormed (.seqi a b c d)
theorem Length.snei : ∀ a b c d, Length.Statement (.snei a b c d) := fun a b c d => Length.of_wellFormed (.snei a b c d)
theorem Length.slti : ∀ a b c d, Length.Statement (.slti a b c d) := fun a b c d => Length.of_wellFormed (.slti a b c d)
theorem Length.sltui : ∀ a b c d, Length.Statement (.sltui a b c d) := fun a b c d => Length.of_wellFormed (.sltui a b c d)
theorem Length.slei : ∀ a b c d, Length.Statement (.slei a b c d) := fun a b c d => Length.of_wellFormed (.slei a b c d)
theorem Length.sleui : ∀ a b c d, Length.Statement (.sleui a b c d) := fun a b c d => Length.of_wellFormed (.sleui a b c d)
theorem Length.sgti : ∀ a b c d, Length.Statement (.sgti a b c d) := fun a b c d => Length.of_wellFormed (.sgti a b c d)
theorem Length.sgtui : ∀ a b c d, Length.Statement (.sgtui a b c d) := fun a b c d => Length.of_wellFormed (.sgtui a b c d)
theorem Length.ststi : ∀ a b c d, Length.Statement (.ststi a b c d) := fun a b c d => Length.of_wellFormed (.ststi a b c d)
theorem Length.ld : ∀ a b c d e, Length.Statement (.ld a b c d e) := fun a b c d e => Length.of_wellFormed (.ld a b c d e)
theorem Length.lea : ∀ a b c d, Length.Statement (.lea a b c d) := fun a b c d => Length.of_wellFormed (.lea a b c d)
theorem Length.ldpc : ∀ a b c d e, Length.Statement (.ldpc a b c d e) := fun a b c d e => Length.of_wellFormed (.ldpc a b c d e)
theorem Length.st : ∀ a b c d e, Length.Statement (.st a b c d e) := fun a b c d e => Length.of_wellFormed (.st a b c d e)
theorem Length.fence : ∀ a, Length.Statement (.fence a) := fun a => Length.of_wellFormed (.fence a)
theorem Length.atomSwap : ∀ a b c d, Length.Statement (.atomSwap a b c d) := fun a b c d => Length.of_wellFormed (.atomSwap a b c d)
theorem Length.atomAdd : ∀ a b c d, Length.Statement (.atomAdd a b c d) := fun a b c d => Length.of_wellFormed (.atomAdd a b c d)
theorem Length.atomAnd : ∀ a b c d, Length.Statement (.atomAnd a b c d) := fun a b c d => Length.of_wellFormed (.atomAnd a b c d)
theorem Length.atomOr : ∀ a b c d, Length.Statement (.atomOr a b c d) := fun a b c d => Length.of_wellFormed (.atomOr a b c d)
theorem Length.atomXor : ∀ a b c d, Length.Statement (.atomXor a b c d) := fun a b c d => Length.of_wellFormed (.atomXor a b c d)
theorem Length.atomMinu : ∀ a b c d, Length.Statement (.atomMinu a b c d) := fun a b c d => Length.of_wellFormed (.atomMinu a b c d)
theorem Length.atomMaxu : ∀ a b c d, Length.Statement (.atomMaxu a b c d) := fun a b c d => Length.of_wellFormed (.atomMaxu a b c d)
theorem Length.atomCas : ∀ a b c d, Length.Statement (.atomCas a b c d) := fun a b c d => Length.of_wellFormed (.atomCas a b c d)
theorem Length.bz : ∀ a b c, Length.Statement (.bz a b c) := fun a b c => Length.of_wellFormed (.bz a b c)
theorem Length.bnz : ∀ a b c, Length.Statement (.bnz a b c) := fun a b c => Length.of_wellFormed (.bnz a b c)
theorem Length.br : ∀ a b, Length.Statement (.br a b) := fun a b => Length.of_wellFormed (.br a b)
theorem Length.call : ∀ a b c, Length.Statement (.call a b c) := fun a b c => Length.of_wellFormed (.call a b c)
theorem Length.jmp : ∀ a b, Length.Statement (.jmp a b) := fun a b => Length.of_wellFormed (.jmp a b)
theorem Length.jal : ∀ a b c, Length.Statement (.jal a b c) := fun a b c => Length.of_wellFormed (.jal a b c)
theorem Length.rett : ∀ a, Length.Statement (.rett a) := fun a => Length.of_wellFormed (.rett a)
theorem Length.bdec : ∀ a b c, Length.Statement (.bdec a b c) := fun a b c => Length.of_wellFormed (.bdec a b c)
theorem Length.impreciseTrap : ∀ a, Length.Statement (.impreciseTrap a) := fun a => Length.of_wellFormed (.impreciseTrap a)
theorem Length.loadDataReturn : ∀ a, Length.Statement (.loadDataReturn a) := fun a => Length.of_wellFormed (.loadDataReturn a)
theorem Length.storeGrant : ∀ a, Length.Statement (.storeGrant a) := fun a => Length.of_wellFormed (.storeGrant a)
theorem Length.lateAccessMark : ∀ a, Length.Statement (.lateAccessMark a) := fun a => Length.of_wellFormed (.lateAccessMark a)
theorem Length.engineHoldStall : ∀ a, Length.Statement (.engineHoldStall a) := fun a => Length.of_wellFormed (.engineHoldStall a)
theorem Length.twinRecordMatch : ∀ a, Length.Statement (.twinRecordMatch a) := fun a => Length.of_wellFormed (.twinRecordMatch a)
theorem Length.twinTimeout : ∀ a, Length.Statement (.twinTimeout a) := fun a => Length.of_wellFormed (.twinTimeout a)
theorem Length.romFetchReturn : ∀ a b, Length.Statement (.romFetchReturn a b) := fun a b => Length.of_wellFormed (.romFetchReturn a b)
theorem Length.put : ∀ a b c d e f, Length.Statement (.put a b c d e f) := fun a b c d e f => Length.of_wellFormed (.put a b c d e f)
theorem Length.pute : ∀ a b c d e f, Length.Statement (.pute a b c d e f) := fun a b c d e f => Length.of_wellFormed (.pute a b c d e f)
theorem Length.chEnd : ∀ a b c d, Length.Statement (.chEnd a b c d) := fun a b c d => Length.of_wellFormed (.chEnd a b c d)
theorem Length.get : ∀ a b c d e f, Length.Statement (.get a b c d e f) := fun a b c d e f => Length.of_wellFormed (.get a b c d e f)
theorem Length.getn : ∀ a b c d e, Length.Statement (.getn a b c d e) := fun a b c d e => Length.of_wellFormed (.getn a b c d e)
theorem Length.drop : ∀ a b c, Length.Statement (.drop a b c) := fun a b c => Length.of_wellFormed (.drop a b c)
theorem Length.abt : ∀ a b c, Length.Statement (.abt a b c) := fun a b c => Length.of_wellFormed (.abt a b c)
theorem Length.tput : ∀ a b c d e, Length.Statement (.tput a b c d e) := fun a b c d e => Length.of_wellFormed (.tput a b c d e)
theorem Length.tpute : ∀ a b c d e, Length.Statement (.tpute a b c d e) := fun a b c d e => Length.of_wellFormed (.tpute a b c d e)
theorem Length.tend : ∀ a b c, Length.Statement (.tend a b c) := fun a b c => Length.of_wellFormed (.tend a b c)
theorem Length.tget : ∀ a b c d e, Length.Statement (.tget a b c d e) := fun a b c d e => Length.of_wellFormed (.tget a b c d e)
theorem Length.tgetn : ∀ a b c d, Length.Statement (.tgetn a b c d) := fun a b c d => Length.of_wellFormed (.tgetn a b c d)
theorem Length.chs : ∀ a b c, Length.Statement (.chs a b c) := fun a b c => Length.of_wellFormed (.chs a b c)
theorem Length.channelResponse : ∀ a, Length.Statement (.channelResponse a) := fun a => Length.of_wellFormed (.channelResponse a)
theorem Length.parkedOpRedecide : ∀ a, Length.Statement (.parkedOpRedecide a) := fun a => Length.of_wellFormed (.parkedOpRedecide a)
theorem Length.channelTimeout : ∀ a, Length.Statement (.channelTimeout a) := fun a => Length.of_wellFormed (.channelTimeout a)
theorem Length.mac : ∀ a b c d e, Length.Statement (.mac a b c d e) := fun a b c d e => Length.of_wellFormed (.mac a b c d e)
theorem Length.msu : ∀ a b c d e, Length.Statement (.msu a b c d e) := fun a b c d e => Length.of_wellFormed (.msu a b c d e)
theorem Length.xadv : ∀ a b, Length.Statement (.xadv a b) := fun a b => Length.of_wellFormed (.xadv a b)
theorem Length.xlea : ∀ a b c, Length.Statement (.xlea a b c) := fun a b c => Length.of_wellFormed (.xlea a b c)
theorem Length.xset : ∀ a b c d, Length.Statement (.xset a b c d) := fun a b c d => Length.of_wellFormed (.xset a b c d)
theorem Length.xget : ∀ a b c d, Length.Statement (.xget a b c d) := fun a b c d => Length.of_wellFormed (.xget a b c d)
theorem Length.waitev : ∀ a b c, Length.Statement (.waitev a b c) := fun a b c => Length.of_wellFormed (.waitev a b c)
theorem Length.waitt : ∀ a b c, Length.Statement (.waitt a b c) := fun a b c => Length.of_wellFormed (.waitt a b c)
theorem Length.yield : ∀ a, Length.Statement (.yield a) := fun a => Length.of_wellFormed (.yield a)
theorem Length.sleep : ∀ a b, Length.Statement (.sleep a b) := fun a b => Length.of_wellFormed (.sleep a b)
theorem Length.waitRelease : ∀ a, Length.Statement (.waitRelease a) := fun a => Length.of_wellFormed (.waitRelease a)
theorem Length.btrd : ∀ a b, Length.Statement (.btrd a b) := fun a b => Length.of_wellFormed (.btrd a b)
theorem Length.evclr : ∀ a b, Length.Statement (.evclr a b) := fun a b => Length.of_wellFormed (.evclr a b)
theorem Length.sig : ∀ a b, Length.Statement (.sig a b) := fun a b => Length.of_wellFormed (.sig a b)
theorem Length.mft : ∀ a b c, Length.Statement (.mft a b c) := fun a b c => Length.of_wellFormed (.mft a b c)
theorem Length.mtt : ∀ a b c, Length.Statement (.mtt a b c) := fun a b c => Length.of_wellFormed (.mtt a b c)
theorem Length.nop : ∀ a, Length.Statement (.nop a) := fun a => Length.of_wellFormed (.nop a)
theorem Length.ext : ∀ a b c d, Length.Statement (.ext a b c d) := fun a b c d => Length.of_wellFormed (.ext a b c d)
theorem Length.exts : ∀ a b c d, Length.Statement (.exts a b c d) := fun a b c d => Length.of_wellFormed (.exts a b c d)
theorem Length.ins : ∀ a b c d, Length.Statement (.ins a b c d) := fun a b c d => Length.of_wellFormed (.ins a b c d)
theorem Length.clrf : ∀ a b c d, Length.Statement (.clrf a b c d) := fun a b c d => Length.of_wellFormed (.clrf a b c d)
theorem Length.setf : ∀ a b c d, Length.Statement (.setf a b c d) := fun a b c d => Length.of_wellFormed (.setf a b c d)
theorem Length.bset : ∀ a b c d, Length.Statement (.bset a b c d) := fun a b c d => Length.of_wellFormed (.bset a b c d)
theorem Length.bclr : ∀ a b c d, Length.Statement (.bclr a b c d) := fun a b c d => Length.of_wellFormed (.bclr a b c d)
theorem Length.binv : ∀ a b c d, Length.Statement (.binv a b c d) := fun a b c d => Length.of_wellFormed (.binv a b c d)
theorem Length.btst : ∀ a b c d, Length.Statement (.btst a b c d) := fun a b c d => Length.of_wellFormed (.btst a b c d)
theorem Length.extr : ∀ a b c d, Length.Statement (.extr a b c d) := fun a b c d => Length.of_wellFormed (.extr a b c d)
theorem Length.insr : ∀ a b c d, Length.Statement (.insr a b c d) := fun a b c d => Length.of_wellFormed (.insr a b c d)
theorem Length.brev : ∀ a b c, Length.Statement (.brev a b c) := fun a b c => Length.of_wellFormed (.brev a b c)
theorem Length.pack : ∀ a b c d, Length.Statement (.pack a b c d) := fun a b c d => Length.of_wellFormed (.pack a b c d)
theorem Length.deftrap : ∀ a, Length.Statement (.deftrap a) := fun a => Length.of_wellFormed (.deftrap a)
theorem Length.illegalInstruction : ∀ a, Length.Statement (.illegalInstruction a) := fun a => Length.of_wellFormed (.illegalInstruction a)
theorem Length.mull : ∀ a b c d, Length.Statement (.mull a b c d) := fun a b c d => Length.of_wellFormed (.mull a b c d)
theorem Length.mullu : ∀ a b c d, Length.Statement (.mullu a b c d) := fun a b c d => Length.of_wellFormed (.mullu a b c d)
theorem Length.macl : ∀ a b c d, Length.Statement (.macl a b c d) := fun a b c d => Length.of_wellFormed (.macl a b c d)
theorem Length.maclu : ∀ a b c d, Length.Statement (.maclu a b c d) := fun a b c d => Length.of_wellFormed (.maclu a b c d)
theorem Length.crcb : ∀ a b c d, Length.Statement (.crcb a b c d) := fun a b c d => Length.of_wellFormed (.crcb a b c d)
theorem Length.crcw : ∀ a b c d, Length.Statement (.crcw a b c d) := fun a b c d => Length.of_wellFormed (.crcw a b c d)
theorem Length.par : ∀ a b c, Length.Statement (.par a b c) := fun a b c => Length.of_wellFormed (.par a b c)
theorem Length.maddi : ∀ a b c d e f, Length.Statement (.maddi a b c d e f) := fun a b c d e f => Length.of_wellFormed (.maddi a b c d e f)
theorem Length.seBr : ∀ a b c d e, Length.Statement (.seBr a b c d e) := fun a b c d e => Length.of_wellFormed (.seBr a b c d e)
theorem Length.seWait : ∀ a b c d e f, Length.Statement (.seWait a b c d e f) := fun a b c d e f => Length.of_wellFormed (.seWait a b c d e f)
theorem Length.seEmit : ∀ a b c d e, Length.Statement (.seEmit a b c d e) := fun a b c d e => Length.of_wellFormed (.seEmit a b c d e)
theorem Length.seSample : ∀ a b c d e f, Length.Statement (.seSample a b c d e f) := fun a b c d e f => Length.of_wellFormed (.seSample a b c d e f)
theorem Length.sePull : ∀ a b c, Length.Statement (.sePull a b c) := fun a b c => Length.of_wellFormed (.sePull a b c)
theorem Length.sePush : ∀ a b c d, Length.Statement (.sePush a b c d) := fun a b c d => Length.of_wellFormed (.sePush a b c d)
theorem Length.seDrive : ∀ a b c d, Length.Statement (.seDrive a b c d) := fun a b c d => Length.of_wellFormed (.seDrive a b c d)
theorem Length.seLoadl : ∀ a b c d, Length.Statement (.seLoadl a b c d) := fun a b c d => Length.of_wellFormed (.seLoadl a b c d)
theorem Length.seCopy : ∀ a b c d e f g, Length.Statement (.seCopy a b c d e f g) := fun a b c d e f g => Length.of_wellFormed (.seCopy a b c d e f g)
theorem Length.seSignal : ∀ a b c, Length.Statement (.seSignal a b c) := fun a b c => Length.of_wellFormed (.seSignal a b c)
theorem Length.seIdle : ∀ a b c, Length.Statement (.seIdle a b c) := fun a b c => Length.of_wellFormed (.seIdle a b c)
theorem Length.seIllegal : ∀ a, Length.Statement (.seIllegal a) := fun a => Length.of_wellFormed (.seIllegal a)
theorem Length.seStallComplete : ∀ a b c, Length.Statement (.seStallComplete a b c) := fun a b c => Length.of_wellFormed (.seStallComplete a b c)
theorem Length.seEventIn : ∀ a b, Length.Statement (.seEventIn a b) := fun a b => Length.of_wellFormed (.seEventIn a b)
theorem Length.senCtlEnWrite : ∀ a b, Length.Statement (.senCtlEnWrite a b) := fun a b => Length.of_wellFormed (.senCtlEnWrite a b)
theorem Length.senProgWrite : ∀ a b c, Length.Statement (.senProgWrite a b c) := fun a b c => Length.of_wellFormed (.senProgWrite a b c)
theorem Length.senPcWrite : ∀ a b, Length.Statement (.senPcWrite a b) := fun a b => Length.of_wellFormed (.senPcWrite a b)
theorem Length.senLWrite : ∀ a b c, Length.Statement (.senLWrite a b c) := fun a b c => Length.of_wellFormed (.senLWrite a b c)
theorem Length.calObservation : ∀ a b c d, Length.Statement (.calObservation a b c d) := fun a b c d => Length.of_wellFormed (.calObservation a b c d)
theorem Length.tapMoveApply : ∀ a b, Length.Statement (.tapMoveApply a b) := fun a b => Length.of_wellFormed (.tapMoveApply a b)
theorem Length.ppsEdge : ∀ a, Length.Statement (.ppsEdge a) := fun a => Length.of_wellFormed (.ppsEdge a)
theorem Length.btHoldover : Length.Statement .btHoldover := Length.of_wellFormed .btHoldover
theorem Length.timerMatch : ∀ a, Length.Statement (.timerMatch a) := fun a => Length.of_wellFormed (.timerMatch a)
theorem Length.timerWrap : ∀ a, Length.Statement (.timerWrap a) := fun a => Length.of_wellFormed (.timerWrap a)
theorem Length.timerCapture : ∀ a, Length.Statement (.timerCapture a) := fun a => Length.of_wellFormed (.timerCapture a)
theorem Length.timerCountEvent : ∀ a, Length.Statement (.timerCountEvent a) := fun a => Length.of_wellFormed (.timerCountEvent a)
theorem Length.timerCompareInput : ∀ a, Length.Statement (.timerCompareInput a) := fun a => Length.of_wellFormed (.timerCompareInput a)
theorem Length.tmnCapRead : ∀ a b c, Length.Statement (.tmnCapRead a b c) := fun a b c => Length.of_wellFormed (.tmnCapRead a b c)
theorem Length.tmnCmpWrite : ∀ a b, Length.Statement (.tmnCmpWrite a b) := fun a b => Length.of_wellFormed (.tmnCmpWrite a b)
theorem Length.tmnCtlWrite : ∀ a b, Length.Statement (.tmnCtlWrite a b) := fun a b => Length.of_wellFormed (.tmnCtlWrite a b)
theorem Length.tmGstart : ∀ a b, Length.Statement (.tmGstart a b) := fun a b => Length.of_wellFormed (.tmGstart a b)
theorem Length.btOfshiWrite : ∀ a, Length.Statement (.btOfshiWrite a) := fun a => Length.of_wellFormed (.btOfshiWrite a)
theorem Length.btAdjWrite : ∀ a, Length.Statement (.btAdjWrite a) := fun a => Length.of_wellFormed (.btAdjWrite a)
theorem Length.hostPairLowRead : ∀ a, Length.Statement (.hostPairLowRead a) := fun a => Length.of_wellFormed (.hostPairLowRead a)
theorem Length.hostPairHighRead : ∀ a, Length.Statement (.hostPairHighRead a) := fun a => Length.of_wellFormed (.hostPairHighRead a)
theorem Length.routeFire : ∀ a, Length.Statement (.routeFire a) := fun a => Length.of_wellFormed (.routeFire a)
theorem Length.eventDelivery : ∀ a, Length.Statement (.eventDelivery a) := fun a => Length.of_wellFormed (.eventDelivery a)
theorem Length.busyViewClear : ∀ a, Length.Statement (.busyViewClear a) := fun a => Length.of_wellFormed (.busyViewClear a)
theorem Length.evFire : ∀ a b c, Length.Statement (.evFire a b c) := fun a b c => Length.of_wellFormed (.evFire a b c)
theorem Length.evStatWrite : ∀ a b c d, Length.Statement (.evStatWrite a b c d) := fun a b c d => Length.of_wellFormed (.evStatWrite a b c d)
theorem Length.deadlockSnapshot : Length.Statement .deadlockSnapshot := Length.of_wellFormed .deadlockSnapshot
theorem Length.deadlockAnalysisEnd : Length.Statement .deadlockAnalysisEnd := Length.of_wellFormed .deadlockAnalysisEnd
theorem Length.poolScrub : ∀ a b, Length.Statement (.poolScrub a b) := fun a b => Length.of_wellFormed (.poolScrub a b)
theorem Length.unitEndpointTransfer : ∀ a b, Length.Statement (.unitEndpointTransfer a b) := fun a b => Length.of_wellFormed (.unitEndpointTransfer a b)
theorem Length.mcHput : ∀ a b c, Length.Statement (.mcHput a b c) := fun a b c => Length.of_wellFormed (.mcHput a b c)
theorem Length.mcHpute : ∀ a b c, Length.Statement (.mcHpute a b c) := fun a b c => Length.of_wellFormed (.mcHpute a b c)
theorem Length.mcHget : ∀ a b, Length.Statement (.mcHget a b) := fun a b => Length.of_wellFormed (.mcHget a b)
theorem Length.mcHstatEnd : ∀ a b, Length.Statement (.mcHstatEnd a b) := fun a b => Length.of_wellFormed (.mcHstatEnd a b)
theorem Length.mcHstatAbt : ∀ a b, Length.Statement (.mcHstatAbt a b) := fun a b => Length.of_wellFormed (.mcHstatAbt a b)
theorem Length.mcHstatDrop : ∀ a b, Length.Statement (.mcHstatDrop a b) := fun a b => Length.of_wellFormed (.mcHstatDrop a b)
theorem Length.spAccessGrant : ∀ a b c, Length.Statement (.spAccessGrant a b c) := fun a b c => Length.of_wellFormed (.spAccessGrant a b c)
theorem Length.scrubGrant : ∀ a b c, Length.Statement (.scrubGrant a b c) := fun a b c => Length.of_wellFormed (.scrubGrant a b c)
theorem Length.scrubLapEnd : ∀ a, Length.Statement (.scrubLapEnd a) := fun a => Length.of_wellFormed (.scrubLapEnd a)
theorem Length.lapAlarm : ∀ a, Length.Statement (.lapAlarm a) := fun a => Length.of_wellFormed (.lapAlarm a)
theorem Length.ttStart : ∀ a b c d, Length.Statement (.ttStart a b c d) := fun a b c d => Length.of_wellFormed (.ttStart a b c d)
theorem Length.ttStop : ∀ a b, Length.Statement (.ttStop a b) := fun a b => Length.of_wellFormed (.ttStop a b)
theorem Length.testRegionDone : ∀ a b, Length.Statement (.testRegionDone a b) := fun a b => Length.of_wellFormed (.testRegionDone a b)
theorem Length.spWclr : ∀ a b c, Length.Statement (.spWclr a b c) := fun a b c => Length.of_wellFormed (.spWclr a b c)
theorem Length.wordClearDone : Length.Statement .wordClearDone := Length.of_wellFormed .wordClearDone
theorem Length.retire : ∀ a b c d, Length.Statement (.retire a b c d) := fun a b c d => Length.of_wellFormed (.retire a b c d)
theorem Length.retireCopyDone : ∀ a, Length.Statement (.retireCopyDone a) := fun a => Length.of_wellFormed (.retireCopyDone a)
theorem Length.padClampPulse : ∀ a, Length.Statement (.padClampPulse a) := fun a => Length.of_wellFormed (.padClampPulse a)
theorem Length.surgeEnd : ∀ a b, Length.Statement (.surgeEnd a b) := fun a b => Length.of_wellFormed (.surgeEnd a b)
theorem Length.pgnOutWrite : ∀ a b c, Length.Statement (.pgnOutWrite a b c) := fun a b c => Length.of_wellFormed (.pgnOutWrite a b c)
theorem Length.governorWindowStart : Length.Statement .governorWindowStart := Length.of_wellFormed .governorWindowStart
theorem Length.laneRecordApply : ∀ a, Length.Statement (.laneRecordApply a) := fun a => Length.of_wellFormed (.laneRecordApply a)
theorem Length.serviceInit : ∀ a, Length.Statement (.serviceInit a) := fun a => Length.of_wellFormed (.serviceInit a)
theorem Length.uartSend : ∀ a, Length.Statement (.uartSend a) := fun a => Length.of_wellFormed (.uartSend a)
theorem Length.uartData : ∀ a b c d e f, Length.Statement (.uartData a b c d e f) := fun a b c d e f => Length.of_wellFormed (.uartData a b c d e f)
theorem Length.uartIdleFlush : ∀ a, Length.Statement (.uartIdleFlush a) := fun a => Length.of_wellFormed (.uartIdleFlush a)
theorem Length.modbusFrame : ∀ a b c, Length.Statement (.modbusFrame a b c) := fun a b c => Length.of_wellFormed (.modbusFrame a b c)
theorem Length.dnp3LinkFrame : ∀ a b c, Length.Statement (.dnp3LinkFrame a b c) := fun a b c => Length.of_wellFormed (.dnp3LinkFrame a b c)
theorem Length.dnp3Control : ∀ a, Length.Statement (.dnp3Control a) := fun a => Length.of_wellFormed (.dnp3Control a)
theorem Length.dnp3ControlReply : ∀ a, Length.Statement (.dnp3ControlReply a) := fun a => Length.of_wellFormed (.dnp3ControlReply a)
theorem Length.dnp3ApprspTimeout : ∀ a, Length.Statement (.dnp3ApprspTimeout a) := fun a => Length.of_wellFormed (.dnp3ApprspTimeout a)
theorem Length.dnp3Event : ∀ a, Length.Statement (.dnp3Event a) := fun a => Length.of_wellFormed (.dnp3Event a)
theorem Length.dnp3UnsolHold : ∀ a, Length.Statement (.dnp3UnsolHold a) := fun a => Length.of_wellFormed (.dnp3UnsolHold a)
theorem Length.dnp3ConfirmTimeout : ∀ a, Length.Statement (.dnp3ConfirmTimeout a) := fun a => Length.of_wellFormed (.dnp3ConfirmTimeout a)
theorem Length.dnp3SessionKeyExpiry : ∀ a, Length.Statement (.dnp3SessionKeyExpiry a) := fun a => Length.of_wellFormed (.dnp3SessionKeyExpiry a)
theorem Length.dnp3LinkConfirmTimeout : ∀ a, Length.Statement (.dnp3LinkConfirmTimeout a) := fun a => Length.of_wellFormed (.dnp3LinkConfirmTimeout a)
theorem Length.sdi12Raw : ∀ a b, Length.Statement (.sdi12Raw a b) := fun a b => Length.of_wellFormed (.sdi12Raw a b)
theorem Length.sdi12Measure : ∀ a b, Length.Statement (.sdi12Measure a b) := fun a b => Length.of_wellFormed (.sdi12Measure a b)
theorem Length.sdi12ResponseTimeout : ∀ a, Length.Statement (.sdi12ResponseTimeout a) := fun a => Length.of_wellFormed (.sdi12ResponseTimeout a)
theorem Length.spiXfer : ∀ a b, Length.Statement (.spiXfer a b) := fun a b => Length.of_wellFormed (.spiXfer a b)
theorem Length.i2cXfer : ∀ a b c d, Length.Statement (.i2cXfer a b c d) := fun a b c d => Length.of_wellFormed (.i2cXfer a b c d)
theorem Length.i2cStretchTimeout : ∀ a, Length.Statement (.i2cStretchTimeout a) := fun a => Length.of_wellFormed (.i2cStretchTimeout a)
theorem Length.pulseReport : ∀ a b c, Length.Statement (.pulseReport a b c) := fun a b c => Length.of_wellFormed (.pulseReport a b c)
theorem Length.bridgeRead : ∀ a, Length.Statement (.bridgeRead a) := fun a => Length.of_wellFormed (.bridgeRead a)
theorem Length.bridgeWrite : ∀ a, Length.Statement (.bridgeWrite a) := fun a => Length.of_wellFormed (.bridgeWrite a)
theorem Length.bridgePing : ∀ a, Length.Statement (.bridgePing a) := fun a => Length.of_wellFormed (.bridgePing a)
theorem Length.helloFrame : ∀ a b, Length.Statement (.helloFrame a b) := fun a b => Length.of_wellFormed (.helloFrame a b)
theorem Length.ackFrame : ∀ a b, Length.Statement (.ackFrame a b) := fun a b => Length.of_wellFormed (.ackFrame a b)
theorem Length.cdataFrame : ∀ a b, Length.Statement (.cdataFrame a b) := fun a b => Length.of_wellFormed (.cdataFrame a b)
theorem Length.creditFrame : ∀ a b, Length.Statement (.creditFrame a b) := fun a b => Length.of_wellFormed (.creditFrame a b)
theorem Length.syncFrame : ∀ a b, Length.Statement (.syncFrame a b) := fun a b => Length.of_wellFormed (.syncFrame a b)
theorem Length.grantFrame : ∀ a b, Length.Statement (.grantFrame a b) := fun a b => Length.of_wellFormed (.grantFrame a b)
theorem Length.bdataFrame : ∀ a b, Length.Statement (.bdataFrame a b) := fun a b => Length.of_wellFormed (.bdataFrame a b)
theorem Length.freezeFrame : ∀ a b, Length.Statement (.freezeFrame a b) := fun a b => Length.of_wellFormed (.freezeFrame a b)
theorem Length.timeFrame : ∀ a b, Length.Statement (.timeFrame a b) := fun a b => Length.of_wellFormed (.timeFrame a b)
theorem Length.recovRead : ∀ a b, Length.Statement (.recovRead a b) := fun a b => Length.of_wellFormed (.recovRead a b)
theorem Length.recovWrite : ∀ a b, Length.Statement (.recovWrite a b) := fun a b => Length.of_wellFormed (.recovWrite a b)
theorem Length.recovStream : ∀ a b, Length.Statement (.recovStream a b) := fun a b => Length.of_wellFormed (.recovStream a b)
theorem Length.recovImage : ∀ a b, Length.Statement (.recovImage a b) := fun a b => Length.of_wellFormed (.recovImage a b)
theorem Length.recovAbort : ∀ a b, Length.Statement (.recovAbort a b) := fun a b => Length.of_wellFormed (.recovAbort a b)
theorem Length.recovResponse : ∀ a b, Length.Statement (.recovResponse a b) := fun a b => Length.of_wellFormed (.recovResponse a b)
theorem Length.helloPeriod : ∀ a, Length.Statement (.helloPeriod a) := fun a => Length.of_wellFormed (.helloPeriod a)
theorem Length.linkKeepalive : ∀ a, Length.Statement (.linkKeepalive a) := fun a => Length.of_wellFormed (.linkKeepalive a)
theorem Length.linkSilenceTimeout : ∀ a, Length.Statement (.linkSilenceTimeout a) := fun a => Length.of_wellFormed (.linkSilenceTimeout a)
theorem Length.retransmitTimeout : ∀ a, Length.Statement (.retransmitTimeout a) := fun a => Length.of_wellFormed (.retransmitTimeout a)
theorem Length.ackDelay : ∀ a, Length.Statement (.ackDelay a) := fun a => Length.of_wellFormed (.ackDelay a)
theorem Length.linkCreditReturn : ∀ a, Length.Statement (.linkCreditReturn a) := fun a => Length.of_wellFormed (.linkCreditReturn a)
theorem Length.creditTimeout : ∀ a, Length.Statement (.creditTimeout a) := fun a => Length.of_wellFormed (.creditTimeout a)
theorem Length.staleFrameDrop : ∀ a, Length.Statement (.staleFrameDrop a) := fun a => Length.of_wellFormed (.staleFrameDrop a)
theorem Length.syncWaitTimeout : ∀ a, Length.Statement (.syncWaitTimeout a) := fun a => Length.of_wellFormed (.syncWaitTimeout a)
theorem Length.timePeriod : ∀ a, Length.Statement (.timePeriod a) := fun a => Length.of_wellFormed (.timePeriod a)
theorem Length.freezeAckWait : Length.Statement .freezeAckWait := Length.of_wellFormed .freezeAckWait
theorem Length.sessionRenewal : ∀ a, Length.Statement (.sessionRenewal a) := fun a => Length.of_wellFormed (.sessionRenewal a)
theorem Length.lkFrzcmd : ∀ a b, Length.Statement (.lkFrzcmd a b) := fun a b => Length.of_wellFormed (.lkFrzcmd a b)
theorem Length.rtxSend : ∀ a b c, Length.Statement (.rtxSend a b c) := fun a b c => Length.of_wellFormed (.rtxSend a b c)
theorem Length.linkLockFall : ∀ a b, Length.Statement (.linkLockFall a b) := fun a b => Length.of_wellFormed (.linkLockFall a b)
theorem Length.recorderUpdateApply : ∀ a, Length.Statement (.recorderUpdateApply a) := fun a => Length.of_wellFormed (.recorderUpdateApply a)
theorem Length.erCursorLoad : ∀ a b, Length.Statement (.erCursorLoad a b) := fun a b => Length.of_wellFormed (.erCursorLoad a b)
theorem Length.erCursorNext : ∀ a b, Length.Statement (.erCursorNext a b) := fun a b => Length.of_wellFormed (.erCursorNext a b)
theorem Length.erClrctl : ∀ a, Length.Statement (.erClrctl a) := fun a => Length.of_wellFormed (.erClrctl a)
theorem Length.recorderClearPass : Length.Statement .recorderClearPass := Length.of_wellFormed .recorderClearPass
theorem Length.erCmctl : ∀ a b, Length.Statement (.erCmctl a b) := fun a b => Length.of_wellFormed (.erCmctl a b)
theorem Length.periodicCommit : Length.Statement .periodicCommit := Length.of_wellFormed .periodicCommit
theorem Length.commit : Length.Statement .commit := Length.of_wellFormed .commit
theorem Length.operatingSecond : Length.Statement .operatingSecond := Length.of_wellFormed .operatingSecond
theorem Length.recorderRestore : ∀ a, Length.Statement (.recorderRestore a) := fun a => Length.of_wellFormed (.recorderRestore a)
theorem Length.flashReadResponse : ∀ a b, Length.Statement (.flashReadResponse a b) := fun a b => Length.of_wellFormed (.flashReadResponse a b)
theorem Length.flashIndetRetry : Length.Statement .flashIndetRetry := Length.of_wellFormed .flashIndetRetry
theorem Length.flashProgramErase : Length.Statement .flashProgramErase := Length.of_wellFormed .flashProgramErase
theorem Length.flashStatusPoll : ∀ a, Length.Statement (.flashStatusPoll a) := fun a => Length.of_wellFormed (.flashStatusPoll a)
theorem Length.flashPeTimeout : ∀ a, Length.Statement (.flashPeTimeout a) := fun a => Length.of_wellFormed (.flashPeTimeout a)
theorem Length.coldReset : Length.Statement .coldReset := Length.of_wellFormed .coldReset
theorem Length.pwrOkFall : Length.Statement .pwrOkFall := Length.of_wellFormed .pwrOkFall
theorem Length.aonOkFall : Length.Statement .aonOkFall := Length.of_wellFormed .aonOkFall
theorem Length.warmReset : Length.Statement .warmReset := Length.of_wellFormed .warmReset
theorem Length.fuseLoad : ∀ a, Length.Statement (.fuseLoad a) := fun a => Length.of_wellFormed (.fuseLoad a)
theorem Length.memoryFill : ∀ a, Length.Statement (.memoryFill a) := fun a => Length.of_wellFormed (.memoryFill a)
theorem Length.imageLoad : ∀ a, Length.Statement (.imageLoad a) := fun a => Length.of_wellFormed (.imageLoad a)
theorem Length.imageCommit : Length.Statement .imageCommit := Length.of_wellFormed .imageCommit
theorem Length.delayLineLock : Length.Statement .delayLineLock := Length.of_wellFormed .delayLineLock
theorem Length.dlockTimeout : Length.Statement .dlockTimeout := Length.of_wellFormed .dlockTimeout
theorem Length.release : ∀ a b, Length.Statement (.release a b) := fun a b => Length.of_wellFormed (.release a b)
theorem Length.testEntry : Length.Statement .testEntry := Length.of_wellFormed .testEntry
theorem Length.burngen : ∀ a b, Length.Statement (.burngen a b) := fun a b => Length.of_wellFormed (.burngen a b)
theorem Length.arbraise : ∀ a b, Length.Statement (.arbraise a b) := fun a b => Length.of_wellFormed (.arbraise a b)
theorem Length.lock1 : ∀ a b, Length.Statement (.lock1 a b) := fun a b => Length.of_wellFormed (.lock1 a b)
theorem Length.lock2 : ∀ a b, Length.Statement (.lock2 a b) := fun a b => Length.of_wellFormed (.lock2 a b)
theorem Length.zoneburn : ∀ a b c, Length.Statement (.zoneburn a b c) := fun a b c => Length.of_wellFormed (.zoneburn a b c)
theorem Length.testdis : ∀ a b, Length.Statement (.testdis a b) := fun a b => Length.of_wellFormed (.testdis a b)
theorem Length.otpBurnStepDone : ∀ a, Length.Statement (.otpBurnStepDone a) := fun a => Length.of_wellFormed (.otpBurnStepDone a)
theorem Length.reload : ∀ a b c, Length.Statement (.reload a b c) := fun a b c => Length.of_wellFormed (.reload a b c)
theorem Length.srcload : ∀ a b, Length.Statement (.srcload a b) := fun a b => Length.of_wellFormed (.srcload a b)
theorem Length.stream : ∀ a b, Length.Statement (.stream a b) := fun a b => Length.of_wellFormed (.stream a b)
theorem Length.imgAbort : ∀ a b, Length.Statement (.imgAbort a b) := fun a b => Length.of_wellFormed (.imgAbort a b)
theorem Length.bcImginWrite : ∀ a b, Length.Statement (.bcImginWrite a b) := fun a b => Length.of_wellFormed (.bcImginWrite a b)
theorem Length.streamIdleTimeout : Length.Statement .streamIdleTimeout := Length.of_wellFormed .streamIdleTimeout
theorem Length.imageAccept : Length.Statement .imageAccept := Length.of_wellFormed .imageAccept
theorem Length.threadRestart : ∀ a, Length.Statement (.threadRestart a) := fun a => Length.of_wellFormed (.threadRestart a)
theorem Length.standRestart : ∀ a, Length.Statement (.standRestart a) := fun a => Length.of_wellFormed (.standRestart a)
theorem Length.standRestore : ∀ a, Length.Statement (.standRestore a) := fun a => Length.of_wellFormed (.standRestore a)
theorem Length.standRelease : ∀ a b, Length.Statement (.standRelease a b) := fun a b => Length.of_wellFormed (.standRelease a b)
theorem Length.restart : ∀ a b c, Length.Statement (.restart a b c) := fun a b c => Length.of_wellFormed (.restart a b c)
theorem Length.unpark : ∀ a b c, Length.Statement (.unpark a b c) := fun a b c => Length.of_wellFormed (.unpark a b c)
theorem Length.wdkick : ∀ a b c, Length.Statement (.wdkick a b c) := fun a b c => Length.of_wellFormed (.wdkick a b c)
theorem Length.watchdogExpiry : ∀ a, Length.Statement (.watchdogExpiry a) := fun a => Length.of_wellFormed (.watchdogExpiry a)
theorem Length.stormDecay : ∀ a, Length.Statement (.stormDecay a) := fun a => Length.of_wellFormed (.stormDecay a)
theorem Length.alarmInput : ∀ a b, Length.Statement (.alarmInput a b) := fun a b => Length.of_wellFormed (.alarmInput a b)
theorem Length.alarmRearm : ∀ a, Length.Statement (.alarmRearm a) := fun a => Length.of_wellFormed (.alarmRearm a)
theorem Length.shadowMismatch : ∀ a b c, Length.Statement (.shadowMismatch a b c) := fun a b c => Length.of_wellFormed (.shadowMismatch a b c)
theorem Length.alarmResponse : Length.Statement .alarmResponse := Length.of_wellFormed .alarmResponse
theorem Length.zeroise : Length.Statement .zeroise := Length.of_wellFormed .zeroise
theorem Length.zeroiseClear : Length.Statement .zeroiseClear := Length.of_wellFormed .zeroiseClear
theorem Length.zeroiseRestore : ∀ a, Length.Statement (.zeroiseRestore a) := fun a => Length.of_wellFormed (.zeroiseRestore a)
theorem Length.lk2FreezeReset : Length.Statement .lk2FreezeReset := Length.of_wellFormed .lk2FreezeReset
theorem Length.newch : ∀ a, Length.Statement (.newch a) := fun a => Length.of_wellFormed (.newch a)
theorem Length.unlock : ∀ a, Length.Statement (.unlock a) := fun a => Length.of_wellFormed (.unlock a)
theorem Length.relock : ∀ a, Length.Statement (.relock a) := fun a => Length.of_wellFormed (.relock a)
theorem Length.debugLockoutEnd : Length.Statement .debugLockoutEnd := Length.of_wellFormed .debugLockoutEnd
theorem Length.secAlstatClear : ∀ a b, Length.Statement (.secAlstatClear a b) := fun a b => Length.of_wellFormed (.secAlstatClear a b)
theorem Length.bypass : Length.Statement .bypass := Length.of_wellFormed .bypass
theorem Length.idcode : Length.Statement .idcode := Length.of_wellFormed .idcode
theorem Length.dbgacc : ∀ a b c, Length.Statement (.dbgacc a b c) := fun a b c => Length.of_wellFormed (.dbgacc a b c)
theorem Length.frread : Length.Statement .frread := Length.of_wellFormed .frread
theorem Length.tapReset : Length.Statement .tapReset := Length.of_wellFormed .tapReset
theorem Length.haltt : ∀ a, Length.Statement (.haltt a) := fun a => Length.of_wellFormed (.haltt a)
theorem Length.resumet : ∀ a, Length.Statement (.resumet a) := fun a => Length.of_wellFormed (.resumet a)
theorem Length.stept : ∀ a, Length.Statement (.stept a) := fun a => Length.of_wellFormed (.stept a)
theorem Length.treset : ∀ a, Length.Statement (.treset a) := fun a => Length.of_wellFormed (.treset a)
theorem Length.halts : ∀ a, Length.Statement (.halts a) := fun a => Length.of_wellFormed (.halts a)
theorem Length.resumes : ∀ a, Length.Statement (.resumes a) := fun a => Length.of_wellFormed (.resumes a)
theorem Length.dbgAbort : ∀ a b, Length.Statement (.dbgAbort a b) := fun a b => Length.of_wellFormed (.dbgAbort a b)
theorem Length.dbgFreeze : Length.Statement .dbgFreeze := Length.of_wellFormed .dbgFreeze
theorem Length.resume : ∀ a, Length.Statement (.resume a) := fun a => Length.of_wellFormed (.resume a)
theorem Length.dbgTregAccess : ∀ a b c, Length.Statement (.dbgTregAccess a b c) := fun a b c => Length.of_wellFormed (.dbgTregAccess a b c)
theorem Length.dbgSholdWrite : ∀ a, Length.Statement (.dbgSholdWrite a) := fun a => Length.of_wellFormed (.dbgSholdWrite a)
theorem Length.freezeRequest : Length.Statement .freezeRequest := Length.of_wellFormed .freezeRequest
theorem Length.freezeComplete : ∀ a, Length.Statement (.freezeComplete a) := fun a => Length.of_wellFormed (.freezeComplete a)
theorem Length.freezeAckTimeout : ∀ a, Length.Statement (.freezeAckTimeout a) := fun a => Length.of_wellFormed (.freezeAckTimeout a)
theorem Length.freezeAlarm : Length.Statement .freezeAlarm := Length.of_wellFormed .freezeAlarm
theorem Length.dbgFrselWrite : ∀ a, Length.Statement (.dbgFrselWrite a) := fun a => Length.of_wellFormed (.dbgFrselWrite a)
theorem Length.dbgFrdataRead : Length.Statement .dbgFrdataRead := Length.of_wellFormed .dbgFrdataRead
theorem Length.registerWrite : ∀ a b c, Length.Statement (.registerWrite a b c) := fun a b c => Length.of_wellFormed (.registerWrite a b c)
theorem Length.freezeNLow : Length.Statement .freezeNLow := Length.of_wellFormed .freezeNLow
theorem Length.stoppedClockStart : ∀ a, Length.Statement (.stoppedClockStart a) := fun a => Length.of_wellFormed (.stoppedClockStart a)
theorem Length.hostRequest : ∀ a b c d e f, Length.Statement (.hostRequest a b c d e f) := fun a b c d e f => Length.of_wellFormed (.hostRequest a b c d e f)
theorem Length.hostResponse : Length.Statement .hostResponse := Length.of_wellFormed .hostResponse
theorem Length.cipherRequest : Length.Statement .cipherRequest := Length.of_wellFormed .cipherRequest
theorem Length.cipherResult : ∀ a, Length.Statement (.cipherResult a) := fun a => Length.of_wellFormed (.cipherResult a)
theorem Length.cipherTimeout : Length.Statement .cipherTimeout := Length.of_wellFormed .cipherTimeout
theorem Length.cipherResumeReissue : Length.Statement .cipherResumeReissue := Length.of_wellFormed .cipherResumeReissue
theorem Length.trngWord : ∀ a, Length.Statement (.trngWord a) := fun a => Length.of_wellFormed (.trngWord a)
theorem Length.trngWaitTimeout : Length.Statement .trngWaitTimeout := Length.of_wellFormed .trngWaitTimeout
theorem Length.trHealthFail : Length.Statement .trHealthFail := Length.of_wellFormed .trHealthFail

end Laws
end Sys2Proof
end

