-- ==== Sys2Proof/Tests/Slice0.lean ====
section
/-! SUPPORT. The model's own tests: ill-formed commands refused, encodings of the spec read, one step of commands on small states, and
for every statement of Certificates/Slice0/Obligations.lean states that meet its hypotheses, clause by clause. -/
namespace Sys2Proof
namespace Tests
set_option Elab.async false
open Sys2Proof.Machine

/-! ### Small states -/

/-- Registers by address from a list in any order. -/
def regsOf (l : List (Nat × Word)) : List (Nat × Word) := l.foldl (fun b p => Bank.put regReset b p.1 p.2) []
/-- A state with registers written. -/
def wr (s : State) (l : List (Nat × Word)) : State := l.foldl (fun s p => s.setReg p.1 p.2) s
/-- A released strict thread of stand 0 in engine 0's program memory. -/
def thr0 : Thread := { pc := 0x400010#24, tst := 0x100#32, released := true, tvec := 0x400100#24, g := [(1, 5#32), (2, 7#32)] }
/-- A running block with stand 0 running and one thread. -/
def run0 : State := { mode := .run, phase := 5, regs := regsOf [(rStcStat 0, 1#32)], threads := [(0, thr0)] }
/-- The same with its thread changed. -/
def runT (f : Thread → Thread) : State := run0.modThr 0 f
/-- An instruction of 3 bytes of thread 0. -/
def iss0 : Iss := { t := 0, len := 3, chk := false, donated := false }
/-- Equality of outcomes is decided through the state they hold. -/
def after (c : Instr) (s : State) : State :=
  match exec c s with
  | .next t => t
  | _ => s


/-! ### Ill-formed commands: each check refuses -/

/-- An instruction of 0 bytes. -/
def iss00 : Iss := { iss0 with len := 0 }
/-- A frame with nothing wrong. -/
def frm : LinkFrame := { dst := 1#32, src := 2#32 }
theorem test_wellFormed : (Instr.add iss0 .wide 2 4 6).wellFormed = true ∧ (Instr.nop iss0).wellFormed = true ∧
    (Instr.helloFrame 0 frm).wellFormed = true := by decide
theorem test_refuses_length : (Instr.nop iss00).wellFormed = false := by decide
theorem test_refuses_pairs : (Instr.add iss0 .wide 1 2 4).wellFormed = false ∧ (Instr.and iss0 true 2 3 4).wellFormed = false ∧
    (Instr.mov iss0 true 2 5).wellFormed = false ∧ (Instr.mull iss0 3 1 2).wellFormed = false ∧
    (Instr.st iss0 .b64 false 1 (.disp 2 0)).wellFormed = false ∧ (Instr.put iss0 true 0 1 3 0).wellFormed = false := by decide
theorem test_refuses_loads : (Instr.ld iss0 .b32 true 1 (.disp 2 0)).wellFormed = false ∧
    (Instr.ldpc iss0 .b64 false 1 0).wellFormed = false := by decide
theorem test_refuses_constants : (Instr.shri iss0 1 2 32).wellFormed = false ∧ (Instr.waitt iss0 1 64).wellFormed = false ∧
    (Instr.waitev iss0 1 0).wellFormed = false ∧ (Instr.xget iss0 0 5 1).wellFormed = false ∧ (Instr.crcb iss0 1 2 4).wellFormed = false ∧
    (Instr.seWait 0 true true 16 0 0).wellFormed = false := by decide
theorem test_refuses_fields : (Instr.ext iss0 1 2 0x400#16).wellFormed = false ∧ (Instr.ext iss0 1 2 0x3E1#16).wellFormed = false := by decide
theorem test_refuses_word_errors : (Instr.scrubGrant 0 0 [(3, 0#8)]).wellFormed = false ∧
    (Instr.scrubGrant 0 0 [(3, 1#8), (3, 2#8)]).wellFormed = false ∧
    (Instr.retireCopyDone [(0, [(3, 0#8)])]).wellFormed = false := by decide
theorem test_refuses_frames : (Instr.ackFrame 0 { frm with ttl := 256 }).wellFormed = false ∧
    (Instr.ackFrame 0 { frm with seq := 65536 }).wellFormed = false ∧ (Instr.ackFrame 0 { frm with rwin := 65 }).wellFormed = false ∧
    (Instr.ackFrame 0 { frm with credit := some (4096, 0, 0) }).wellFormed = false := by decide
theorem test_refuses_sectors : (Instr.recorderRestore []).wellFormed = false := by decide

/-! ### Words of the spec's encodings, written out -/

/-- The issue operands of an instruction of thread 5 with a length. -/
def at5 (n : Fin 13) : Iss := { t := 5, len := n, chk := false, donated := false }
-- 06_instruction_encoding.md's opcode map and formats: YIELD is D2; MOV is 16, format R; SEL is 15, format R3.
theorem test_decode_misc : decodeThread 5 false [0xD2#8] = .yield (at5 1) ∧ decodeThread 5 false [0x16#8, 0x73#8] = .mov (at5 2) false 7 3 ∧
    decodeThread 5 false [0x15#8, 0x45#8, 0x69#8] = .sel (at5 3) 4 5 6 9 := by decide
-- W64 before ADD; IMX lengthens the immediate of ADDI to two bytes, low byte first and sign-extended.
theorem test_decode_alu : decodeThread 5 false [0xF2#8, 0x01#8, 0x24#8, 0x60#8] = .add (at5 4) .wide 2 4 6 ∧
    decodeThread 5 false [0xF4#8, 0x21#8, 0x12#8, 0xFE#8, 0xFF#8] = .addi (at5 5) .wrap 1 2 0xFFFFFFFE#32 ∧
    decodeThread 5 false [0x43#8, 0x12#8, 0x30#8] = .slt (at5 3) false 1 2 3 := by decide
theorem test_decode_memory : decodeThread 5 false [0xF1#8, 0xF3#8, 0x66#8, 0x40#8] = .ld (at5 4) .b16 true 4 (.idxPost 2) ∧
    decodeThread 5 false [0xF2#8, 0x6C#8, 0x26#8, 0x10#8] = .ld (at5 4) .b64 false 2 (.disp 6 16#32) ∧
    decodeThread 5 false [0xF8#8, 0x7C#8, 0x12#8, 0x37#8, 0x04#8] = .atomCas (at5 5) 1 3 (.disp 2 4#32) := by decide
theorem test_decode_branch_channel : decodeThread 5 false [0x80#8, 0x03#8, 0xFE#8] = .bz (at5 3) 3 0xFFFFFFFE#32 ∧
    decodeThread 5 false [0xA0#8, 0x12#8, 0x34#8] = .put (at5 3) false 2 1 3 4 ∧
    decodeThread 5 false [0xFF#8, 0x01#8, 0x24#8, 0x60#8] = .mull (at5 4) 2 4 6 ∧
    decodeThread 5 false [0xE0#8, 0x12#8, 0xE0#8, 0x03#8] = .ext (at5 4) 1 2 0x03E0#16 := by decide
-- R201, R208: unassigned opcodes, 00 among them, a second size prefix, and SX with no size are illegal.
theorem test_decode_illegal : decodeThread 5 false [0x00#8] = .illegalInstruction (at5 1) ∧
    decodeThread 5 false [0xF1#8, 0xF2#8, 0x6C#8, 0x26#8, 0x10#8] = .illegalInstruction (at5 1) ∧
    decodeThread 5 false [0xF3#8, 0x6C#8, 0x26#8, 0x10#8] = .illegalInstruction (at5 1) := by decide
-- R284, R286: OP [15:12], then its operands, TIMING [3:0].
theorem test_decode_shift_engine : seCommand 7 0x1605 0#32 = .seBr 7 3 0 5 0#32 ∧ seCommand 7 0x1015 0#32 = .seBr 7 0 1 5 0#32 ∧
    seCommand 7 0x5800 0#32 = .sePull 7 true 0 ∧ seCommand 7 0xB0F1 0#32 = .seIdle 7 15 1 ∧ seCommand 7 0xF000 0#32 = .seIllegal 7 := by decide
/-- The table's rows give no bits: no word spells a command. -/
theorem test_tableWord : decodeTableWord 8 0xD2 = none := rfl

/-! ### Single steps, results from the spec's rules -/

/-- Thread 0 after a command. -/
def h0 (c : Instr) (s : State) : Thread := (after c s).thr 0
/-- Thread 0 with two values in g1 and g2. -/
def g12 (a b : Word) : State := runT (fun h => { h with g := [(1, a), (2, b)] })
-- R210: the sum modulo 2^32; R216: SAT clamps.
theorem test_add_wraps : (h0 (.add iss0 .wrap 3 1 2) (g12 0x7FFFFFFF#32 1#32)).rg 3 = 0x80000000#32 := by decide
theorem test_add_saturates : (h0 (.add iss0 .sat 3 1 2) (g12 0x7FFFFFFF#32 1#32)).rg 3 = 0x7FFFFFFF#32 := by decide
theorem test_sub_same_register : (h0 (.sub iss0 .wrap 1 1 1) (g12 9#32 1#32)).rg 1 = 0#32 := by decide
theorem test_g0_discards : (h0 (.add iss0 .wrap 0 1 2) (g12 9#32 1#32)).rg 0 = 0#32 := by decide
-- R207: a target is the address of the branch's first byte plus the offset.
theorem test_branch_taken : (h0 (.bz iss0 1 0xFFFFFFFE#32) (g12 0#32 1#32)).pc = 0x40000E#24 := by decide
-- R246: the check values of the two CRCs over the characters 1 to 9.
theorem test_crc16_modbus : crcOf 0 0xFFFF#32 ((List.range 9).map (fun k => BitVec.ofNat 8 (0x31 + k))) = 0x4B37#32 := by decide +kernel
theorem test_crc32 : ~~~ crcOf 2 0xFFFFFFFF#32 ((List.range 9).map (fun k => BitVec.ofNat 8 (0x31 + k))) = 0xCBF43926#32 := by decide +kernel
-- R182, R183: a trap saves the pc and goes to tvec.
theorem test_deftrap : (h0 (.deftrap iss0) run0).pc = 0x400100#24 ∧ (h0 (.deftrap iss0) run0).tpc = 0x400010#24 := by decide
theorem test_step_ends_at_a_trap : (h0 (.deftrap iss0) (runT (fun h => { h with step := true }))).halted = true := by decide
-- R163, R164: a load waits in its lane until its bank is granted; the word is little-endian.
theorem test_load_grant_return :
    let s := ((runT (fun h => h.wg 1 8#32)).setByte 8 0x34#8).setByte 9 0x12#8
    let t := after (.loadDataReturn 0) (after (.spAccessGrant 0 [] 0) (after (.ld iss0 .b16 false 3 (.disp 1 0)) s))
    (t.thr 0).defer.map (·.st) = [.ready 0x1234#64] := by decide
-- R368: a corrected word reads back right.
theorem test_code_corrects : decode [(19, 0x80#8)] = (.corr, [(19, 0x80#8)]) := by decide +kernel
-- R328: a cycle of TCLK advances BT by 1 + ADJ / 2^32.
theorem test_tick : (match step { run0 with bt := { on := true } } with
    | .next t => t.bt.bt
    | _ => 0#64) = 1#64 := by decide
/-! ### States that meet the hypotheses of the statements: threads and memory -/

theorem witness_issues : run0.issues iss0 true ∧ run0.issues iss0 false := by
  unfold State.issues; decide
theorem witness_AluRegisterForms : run0.issues iss0 false := witness_issues.2
theorem witness_SaturatingForms : run0.issues iss0 false ∧ (31#8).toNat < 32 ∧
    (runT (fun h => h.wg 3 0x80000000#32)).issues iss0 false ∧ ((runT (fun h => h.wg 3 0x80000000#32)).thr 0).rg 3 = 0x80000000#32 := by
  unfold State.issues; decide
theorem witness_WideForms : run0.issues iss0 false ∧ (14 : Fin 16).val % 2 = 0 := by unfold State.issues; decide
theorem witness_AluImmediateForms : run0.issues iss0 false ∧ (31#8).toNat < 32 := by unfold State.issues; decide
theorem witness_ProductForms : run0.issues iss0 false ∧ (14 : Fin 16).val % 2 = 0 := by unfold State.issues; decide
/-- Three instructions in a row. -/
def prod1 : State := after (.mul iss0 false 3 1 2) run0
/-- See `prod1`. -/
def prod2 : State := after (.nop { iss0 with len := 1 }) prod1
theorem witness_ProductIsRead : run0.issues iss0 false ∧ (run0.thr 0).defer = [] ∧ prod1.issues iss0 false ∧ prod2.issues iss0 false := by
  unfold State.issues; decide
theorem witness_BitField : run0.issues iss0 false ∧ (3#8).toNat < 4 ∧ (0x3E0#16).toNat < 1024 ∧
    (0x3E0#16).toNat % 32 + ((0x3E0#16).toNat / 32 % 32 + 1) ≤ 32 := by unfold State.issues; decide
theorem witness_BranchForms : run0.issues iss0 false := witness_issues.2
theorem witness_IndexUnitForms :
    (runT (fun h => h.wx 3 { mode := 1#2 })).issues iss0 false ∧ ((runT (fun h => h.wx 3 { mode := 1#2 })).thr 0 |>.rx 3).mode = 1#2 ∧
    (runT (fun h => h.wx 3 { mode := 2#2 })).issues iss0 false ∧ ((runT (fun h => h.wx 3 { mode := 2#2 })).thr 0 |>.rx 3).mode = 2#2 ∧
    run0.issues iss0 false ∧ ((run0.thr 0).rx 0).mode = 0#2 ∧ (2 ^ 3 ≤ (12#24 : Addr).toNat ∧ (12#24 : Addr).toNat < 2 ^ (3 + 1)) := by unfold State.issues; decide
theorem witness_WaitForms : run0.issues iss0 false ∧ (1#8) ≠ 0#8 ∧ (63#8).toNat < 64 ∧ (0x8001#16).getLsbD 15 = true ∧
    (0x0000#16).getLsbD 15 = false ∧ (0x0000#16).toNat % 2 ^ 15 = (run0.thr 0).sigr.toNat % 2 ^ 15 := by unfold State.issues; decide
/-- A thread whose pc stands a byte below program memory. -/
def edgeS : State := runT (fun h => { h with pc := 0x3FFFFF#24 })
theorem witness_TrapInstructions : run0.issues iss0 false ∧ (run0.thr 0).inTrap = false := by unfold State.issues; decide
theorem witness_FetchFails : (Instr.nop iss0).iss? = some iss0 ∧ edgeS.canIssue 0 true = true ∧ edgeS.slotOk iss0 = true ∧
    edgeS.bpHits 0 (edgeS.thr 0).pc = [] ∧ (edgeS.meetUpset iss0).fetchFails iss0 (edgeS.thr 0) = true ∧ (edgeS.thr 0).romBad = none ∧
    (edgeS.thr 0).inTrap = false := by decide
theorem witness_IllegalOperands : (Instr.add iss0 .wide 1 2 4).iss? = some iss0 ∧ (Instr.add iss0 .wide 1 2 4).operandsOk = false ∧
    run0.issues iss0 true := by unfold State.issues; decide
/-- A thread with a pending BUSERR behind a TWIN. -/
def impS : State := runT (fun h => { h with imp := { twin := true, buserr := [4#24] } })
theorem witness_TrapsOfAccesses : run0.issues iss0 true ∧ (run0.thr 0).inTrap = false ∧ loadOk .b64 false 2 = true ∧
    (formAddr (.disp 1 0) (run0.thr 0)).toNat % sizeBytes .b64 ≠ 0 ∧ (formAddr (.disp 1 0) (run0.thr 0)).toNat % 4 ≠ 0 ∧
    ((run0.thr 0).pc + (1#32).setWidth 24).toNat % sizeBytes .b64 ≠ 0 ∧
    (runT (fun h => { h with tst := 0x110#32 })).issues iss0 false ∧ ((runT (fun h => { h with tst := 0x110#32 })).thr 0).inTrap = true ∧
    (impS.thr 0).imp ≠ {} ∧ (impS.setThr 0 { impS.thr 0 with imp := {} }).canIssue 0 false = true ∧ (impS.thr 0).inTrap = false := by
  unfold State.issues; decide
/-- A store of the word at 8 waits in the buffer. -/
def stE : StoreEntry := { addr := 8#24, size := .b32, data := 9#64 }
/-- A thread whose buffer holds that store; g1 is its address. -/
def bufS : State := runT (fun h => { h.wg 1 8#32 with sbuf := [stE] })
/-- A thread whose g1 is the last word of the scratchpad. -/
def topS : State := runT (fun h => h.wg 1 0x3FFFF8#32)
theorem witness_Loads : topS.issues iss0 false ∧ loadOk .b64 false 2 = true ∧ (topS.thr 0).twin = false ∧ (topS.thr 0).sbuf = [] ∧ (topS.thr 0).held = [] ∧
    topS.xqueue 0 = [] ∧ (formAddr (.disp 1 0) (topS.thr 0)).toNat < topS.spLimit ∧ (formAddr (.disp 1 0) (topS.thr 0)).toNat % sizeBytes .b64 = 0 ∧
    topS.wpHits 0 (formAddr (.disp 1 0) (topS.thr 0)) 8 true false = [] ∧
    ((topS.thr 0).pc + (0xBFFFF0#32).setWidth 24).toNat < topS.spLimit ∧
    ((topS.thr 0).pc + (0xBFFFF0#32).setWidth 24).toNat % sizeBytes .b64 = 0 := by unfold State.issues; decide
theorem witness_LoadTakesStore : bufS.issues iss0 true ∧ (bufS.thr 0).sbuf = [] ++ [stE] ∧ (bufS.thr 0).held = [] ∧ stE.addr = formAddr (.disp 1 0) (bufS.thr 0) ∧
    bufS.wpHits 0 stE.addr 4 true false = [] := by unfold State.issues; decide
theorem witness_StoresAndAtoms : topS.issues iss0 true ∧ pairsOk true [2] = true ∧ (topS.thr 0).sbuf.length < 4 ∧ (topS.thr 0).held = [] ∧
    topS.xqueue 0 = [] ∧ (topS.lane ((formAddr (.disp 1 0) (topS.thr 0)).toNat / 16 % 32) 0).length < 4 ∧ (topS.thr 0).sbuf = [] ∧
    topS.wpHits 0 (formAddr (.disp 1 0) (topS.thr 0)) 8 false true = [] ∧ topS.wpHits 0 (formAddr (.disp 1 0) (topS.thr 0)) 4 true true = [] ∧
    bufS.issues iss0 true ∧ (bufS.thr 0).sbuf ≠ [] := by unfold State.issues; decide
/-- One request waits at bank 0, lane 0. -/
def laneS (r : SpReq) (d : Thread → Thread) : State := (runT d).setLane 0 0 [r]
/-- A deferred result that waits for the word at 8. -/
def def8 (at_ : Option (AtomOp × Word × Word)) : Deferred := { dests := [(3, false)], wait := 1, st := .waiting, addr := 8#24, atom := at_ }
theorem witness_BankGrant :
    let s := laneS (.load 0 8#24 .b32) (fun h => { h with defer := [def8 none] })
    s.mode = .run ∧ (∀ k < 18, k ≠ 0 → s.lane 0 k = []) ∧ s.xqueue 0 = [] ∧ s.spPoisoned 0 = false ∧ s.sp.under = none ∧ (s.thr 0).twin = false ∧
    s.lane 0 0 = [.load 0 8#24 .b32] ∧ (s.thr 0).defer = [def8 none] := by decide
theorem witness_BankGrantRom :
    let s := (runT (fun h => { h with defer := [{ def8 none with addr := 0x500008#24 }] })).setLane 34 0 [.load 0 0x500008#24 .b32]
    s.mode = .run ∧ (∀ k < 18, k ≠ 0 → s.lane 34 k = []) ∧ s.lane 34 0 = [.load 0 0x500008#24 .b32] ∧
    (s.thr 0).defer = [{ def8 none with addr := 0x500008#24 }] ∧ 0x500000 ≤ (0x500008#24 : Addr).toNat ∧
    (0x500008#24 : Addr).toNat < 0x540000 := by decide
theorem witness_BankGrantStore :
    let s := laneS (.store 0 stE false) (fun h => { h with sbuf := [stE] })
    s.lane 0 0 = [.store 0 stE false] ∧ (s.thr 0).sbuf = [stE] ∧ stE.grant = .pending ∧ (∀ k < 18, k ≠ 0 → s.lane 0 k = []) := by decide
theorem witness_BankGrantAtom :
    let s := laneS (.atom 0 8#24 .cas 1#32 0#32) (fun h => { h with defer := [def8 (some (.cas, 1#32, 0#32))] })
    s.lane 0 0 = [.atom 0 8#24 .cas 1#32 0#32] ∧ (s.thr 0).defer = [def8 (some (.cas, 1#32, 0#32))] ∧
    (def8 (some (.cas, 1#32, 0#32))).size = .b32 := by decide
theorem witness_Answers :
    let d (w : Nat) (st : DefState) : State := runT (fun h => { h with defer := [{ dests := [(3, false)], wait := w, st := st }] })
    (d 0 (.flight 1#64)).mode ≠ .halted ∧ ((d 0 (.flight 1#64)).thr 0).stall = .none ∧ ((d 0 (.flight 1#64)).thr 0).defer.length = 1 ∧
    ((d 1 (.flight 1#64)).thr 0).defer.length = 1 ∧ ((d 1 .failed).thr 0).stall = .none ∧ ((d 1 .waiting).thr 0).stall = .none ∧
    ((runT (fun h => { h with sbuf := [{ stE with grant := .granted }] })).thr 0).held = [] ∧
    ((runT (fun h => { h with held := [{ op := .fence, pc := 4#24 }] })).thr 0).held ≠ [] ∧
    ((runT (fun h => { h with held := [{ op := .fence, pc := 4#24 }] })).thr 0).stall = .none ∧
    0x500000 ≤ ((runT (fun h => { h with pc := 0x53FFFF#24, stall := .late })).thr 0).pc.toNat ∧
    ((runT (fun h => { h with pc := 0x53FFFF#24, stall := .late })).thr 0).pc.toNat < 0x540000 ∧
    ((runT (fun h => { h with stall := .yield })).thr 0).stall = .yield ∧ ((runT (fun h => { h with stall := .waitd 3 9#32 })).thr 0).stall = .waitd 3 9#32 ∧
    (run0.thr 0).twin = false ∧
    ((runT (fun h => { h with stall := .waitev 0x81#8 3, evp := 0x80#8 })).thr 0).evp &&& 0x81#8 ≠ 0#8 ∧
    (((runT (fun h => { h with stall := .waitt 63 3 })).setReg (rTmStat 63) 1#32).reg (rTmStat 63)).getLsbD 0 = true ∧
    ((runT (fun h => { h with stall := .sleep 1#32, evp := 1#8 })).thr 0).evp &&& (1#32).setWidth 8 ≠ 0#8 := by decide
/-- A pair of twins with compare records. -/
def twinS (x y : List TwinRec) : State :=
  { run0 with threads := [(63, { thr0 with tst := 0x500#32, recs := x }), (127, { thr0 with tst := 0xD00#32, recs := y })] }
theorem witness_TwinRecords : run0.issues iss0 true ∧ (run0.thr 0).twin = false ∧ ((twinS [.chk 0 0] [.chk 0 0]).thr 63).twin = true ∧
    ((twinS [.chk 0 0] [.chk 0 0]).thr 63).recs = [.chk 0 0] ∧ ((twinS [.chk 0 0] [.chk 0 0]).thr (63 + 64)).recs = [.chk 0 0] ∧
    TwinRec.chk 0 0 ≠ TwinRec.blockTime ∧ ((twinS [.blockTime] []).thr (63 + 64)).recs = [] ∧
    ((twinS [.blockTime] []).thr (63 + 64)).longStall = false ∧ (TwinRec.chk 0 0).waits = false ∧ TwinRec.blockTime.waits = false ∧
    (twinS [.chk 0 0] [.blockTime]).recWaits (.chk 0 0) = false := by unfold State.issues; decide
theorem witness_TwinRecordsDiffer : TwinRec.chk 0 0 ≠ TwinRec.blockTime ∧
    ∀ a b sz v, ¬ (TwinRec.chk 0 0 = TwinRec.store a sz v ∧ TwinRec.blockTime = TwinRec.store b sz v ∧ 0x400000 ≤ a.toNat ∧ 0x400000 ≤ b.toNat) :=
  ⟨by decide, fun _ _ _ _ h => nomatch h.1⟩


/-! ### States that meet the hypotheses of the statements: channels, timers, routes -/

/-- Channel 3 of eight words; thread 0 sends on it over port 0 and receives from it over port 1. -/
def chS (c : Chan) (f : Thread → Thread) : State :=
  (wr (runT (fun h => f { h with ports := [(0, { bound := true, ch := 3 }), (1, { bound := true, recv := true, ch := 3 })] }))
    [(rMcCfg 3, 0x80000#32)]).setChan 3 c
/-- A word of data. -/
def w9 : PWord := { v := 9#32 }
/-- A message of words. -/
def msg (l : List PWord) : Msg := { words := l, total := l.length }
theorem witness_SendForms :
    let s := chS { staged := List.replicate 7 w9 } id
    let u := chS { staged := List.replicate 6 w9 } id
    s.issues iss0 true ∧ (s.thr 0).twin = false ∧ (s.thr 0).copyB = false ∧ (s.thr 0).sbuf = [] ∧ (s.thr 0).held = [] ∧
    ((s.thr 0).port 0).bound = true ∧ ((s.thr 0).port 0).recv = false ∧ ((s.thr 0).port 0).abortp = false ∧ ((s.thr 0).port 0).ch = 3 ∧ 7 + 1 ≤ s.msgMax 3 ∧
    1 ≤ s.freeWords 3 ∧ (s.chan 3).msgs.length < 8 ∧ (s.chan 3).staged ≠ [] ∧ u.issues iss0 true ∧ 6 + 2 ≤ u.msgMax 3 ∧
    2 ≤ u.freeWords 3 ∧ ((14 : Fin 16) : Nat) % 2 = 0 := by unfold State.issues; decide
theorem witness_ReceiveForms :
    let s (l : List PWord) := chS { msgs := [msg l] } id
    (s [w9]).issues iss0 true ∧ (s [w9, w9]).issues iss0 true ∧ (((s [w9]).thr 0).port 1).bound = true ∧
    ((s [w9]).thr 0).twin = false ∧ ((s [w9]).thr 0).copyB = false ∧ ((s [w9]).thr 0).sbuf = [] ∧ ((s [w9]).thr 0).held = [] ∧
    (((s [w9]).thr 0).port 1).recv = true ∧ ((s [w9]).chan 3).msgs = msg [w9] :: [] ∧ (msg [w9]).words = w9 :: [] ∧ w9.bad = false ∧
    (msg [w9, w9]).words = w9 :: w9 :: [] ∧ ((14 : Fin 16) : Nat) % 2 = 0 := by unfold State.issues; decide
theorem witness_BlockedForms : (chS {} id).issues iss0 true ∧ ((chS {} id).thr 0).held = [] ∧ ((chS {} id).thr 0).sbuf = [] ∧
    (((chS {} id).thr 0).port 1).bound = true ∧ ((2 : Fin 16) : Nat) ≠ 0 ∧ ((0 : Fin 16) : Nat) = 0 ∧ (((chS {} id).thr 0).port 1).recv = true ∧ ((chS {} id).chan 3).msgs = [] ∧
    (((chS {} id).thr 0).rg ((4 : Fin 16) : Nat)) = 0#32 := by unfold State.issues; decide
/-- A plain GET over port 1, data to g3, status to g4. -/
def op0 : ChanOp :=
  { form := .get, try_ := false, wide := false, port := 1, dataReg := 3, statReg := 4, data := 0#64, timeout := some 9, pc := 0x400010#24 }
theorem witness_ChannelAnswers :
    let s (a : Option (ChanOp × ChanAns)) (p : Option Parked) (l : List Msg) := chS { msgs := l } (fun h => { h with resp := a, park := p })
    (s none none []).mode ≠ .halted ∧ op0.statReg ≠ 0 ∧ op0.dataReg ≠ 0 ∧ op0.statReg ≠ op0.dataReg ∧ op0.wide = false ∧
    ((s (some (op0, .status 2 false 0 none)) none []).thr 0).resp = some (op0, .status 2 false 0 none) ∧
    ((s (some (op0, .status 0 true 0 (some 5#64))) none []).thr 0).resp = some (op0, .status 0 true 0 (some 5#64)) ∧
    ((s (some (op0, .error 7 4095)) none []).thr 0).resp = some (op0, .error 7 4095) ∧ (run0.thr 0).inTrap = false ∧
    op0.form = .get ∧ (run0.thr 0).copyB = false ∧ ({ op := op0, stamp := 1 } : Parked).svc = none ∧ w9.bad = false ∧
    ((s none (some { op := op0, stamp := 1, aborted := true }) []).thr 0).park = some { op := op0, stamp := 1, aborted := true } ∧
    ((s none (some { op := op0, stamp := 1, broken := true }) []).chan 3).msgs = [] ∧
    ((s none (some { op := op0, stamp := 1 }) [msg [w9]]).chan 3).msgs = msg [w9] :: [] ∧ op0.timeout ≠ none ∧
    (((s none (some { op := op0, stamp := 1 }) []).thr 0).port op0.port).bound = true ∧
    (((s none (some { op := op0, stamp := 1 }) []).thr 0).port op0.port).recv = true := by decide
/-- Timer 63 in a running block, with registers of its own. -/
def tmS (n : Nat) (l : List (Nat × Word)) (f : Tmr → Tmr) : State := (wr run0 l).modTmr n (fun t => f { t with hasRec := true })
theorem witness_TimerEvents :
    let m := tmS 63 [(rTmCtl 63, 1#32), (rTmCnt 63, 7#32), (rTmCmp 63, 7#32)] id
    let c := tmS 63 [(rTmCtl 63, 3#32)] (fun t => { t with held := 4 })
    let k := (tmS 63 [] (fun t => { t with armed := true })).setChan 5 { recvEp := epWord 3 63 1, msgs := [msg [w9]] }
    m.mode ≠ .halted ∧ (m.tmr 63).hasRec = true ∧ m.tmOdd 63 = false ∧ m.tmLinked 63 = false ∧ m.tmRuns 63 = true ∧
    m.reg (rTmCnt 63) = m.reg (rTmCmp 63) ∧ (m.tmr 63).lastE = false ∧ (m.reg (rTmCtl 63)).getLsbD 1 = false ∧
    (tmS 63 [(rTmCtl 63, 1#32), (rTmCmp 63, 7#32)] id).tmRuns 63 = true ∧
    (let u := tmS 63 [(rTmCtl 63, 1#32), (rTmCmp 63, 7#32)] id
    (u.reg (rTmCnt 63)).toNat < (u.reg (rTmCmp 63)).toNat) ∧
    (let u := tmS 63 [(rTmCtl 63, 1#32), (rTmCnt 63, 0xFFFFFFFF#32), (rTmCmp 63, 7#32)] id
    (u.reg (rTmCmp 63)).toNat < (u.reg (rTmCnt 63)).toNat ∧ u.tmRuns 63 = true) ∧
    m.reg (rTmCmp 63) ≠ 0#32 ∧ ((tmS 63 [] (fun t => { t with capIn := true })).tmr 63).capIn = true ∧
    m.chanOf false (epWord 3 63 0) = none ∧ 0 < ((tmS 63 [] (fun t => { t with held := 1 })).tmr 63).held ∧ 0 < (c.tmr 63).held ∧
    (c.reg (rTmCtl 63)).getLsbD 1 = true ∧ c.tmRuns 63 = true ∧ (c.tmr 63).p = (c.reg (rTmCtl 63)).toNat / 2 ^ 16 ∧
    (k.tmr 63).armed = true ∧ k.chanOf true (epWord 3 63 1) = some 5 ∧ (k.chan 5).msgs = msg [w9] :: [] ∧ k.tmRuns 63 = false := by decide
theorem witness_TimerAccesses :
    let s := tmS 62 [(rTmGsel 1, 0x40000000#32), (rTmCmp 62, 1#32)] id
    s.mode ≠ .halted ∧ s.mode = .run ∧ (s.tmr 62).hasRec = true ∧ s.tmOdd 62 = false ∧ s.tmLinked 62 = false ∧ s.tmRuns 62 = false ∧
    s.gsel = [62] ∧ s.reg (rTmCnt 62) ≠ s.reg (rTmCmp 62) ∧ s.reg (rTmCmp 62) ≠ s.reg (rTmPhase 62) ∧ (0x6A52#16) ≠ 0x6A51#16 ∧
    (∀ x y, Master.debugger ≠ .host x y) ∧ s.pairLatch = none ∧
    ({ s with pairLatch := some (rTmCap 63, 5#32) } : State).pairLatch = some (rTmCap 63, 5#32) ∧ s.managed 0 (s.tmr 62).stand = true ∧
    (tmS 63 [] id).mode ≠ .halted ∧ ((tmS 63 [] id).tmr 63).hasRec = true ∧ (tmS 63 [] id).tmOdd 63 = false ∧ (tmS 63 [] id).tmLinked 63 = false := by
  decide
/-- A group start that the host may give or not: stand 0 admits secure accesses alone. -/
theorem witness_TimerGroupStart :
    let s := tmS 62 [(rTmGsel 1, 0x40000000#32), (rTmCmp 62, 1#32), (rStcCfg 0, 8#32)] id
    s.gsel = [62] ∧ s.standAdmits (s.tmr 62).stand true true = true ∧ s.standAdmits (s.tmr 62).stand false false = false := by decide
theorem witness_BlockTime :
    let s (m n : Word) (b : BlockTime) : State := { wr run0 [(rBtDisc, m), (rBtNom, n)] with bt := b }
    let md (s : State) : Nat := (s.reg rBtDisc).toNat % 4
    (s 0#32 0#32 {}).mode ≠ .halted ∧ md (s 0#32 0#32 {}) = 0 ∧ md (s 1#32 1#32 {}) = 1 ∧
    0 < ((s 1#32 1#32 {}).reg rBtNom).toNat % 2 ^ 28 ∧ (s 1#32 1#32 {}).bt.prev = none ∧ md (s 2#32 1#32 {}) = 2 ∧
    (s 2#32 1#32 {}).bt.hold = false ∧ md (s 2#32 1#32 {}) ≠ 0 ∧ md (s 2#32 1#32 {}) ≠ 1 := by decide
theorem witness_Routes :
    let s (l : List (Nat × Word)) (f : List (Nat × Nat)) (d : List Nat) (v : List (Nat × Nat)) (m : Mode) : State :=
      { wr run0 l with fires := f, delivs := d, busyV := v, mode := m }
    let cfg := [(rEvCfg 255, 0x00100801#32)]
    let a := s cfg [(255, 271)] [1023] [] .run
    let b := s cfg [(255, 271)] [] [(255, 1)] .run
    a.mode ≠ .halted ∧ (255, 271) ∈ a.fires ∧ a.routeRec 255 = true ∧ a.consumer 255 = some 1020 ∧ a.routeOpen 255 = true ∧
    a.consumerBusy 1020 = false ∧ (s cfg [(255, 271)] [] [(1020, 1)] .run).consumerBusy 1020 = true ∧ 8 * 127 + 7 ∈ a.delivs ∧
    (a.thr 127).twin = false ∧ b.consumerHolds 255 = 0 ∧ 255 ∉ b.delivs ∧ (s cfg [] [] [] .recovery).mode = .recovery ∧
    (s cfg [] [] [] .recovery).routeOpen 255 = true ∧ (s cfg [] [] [] .recovery).consumerBusy 1020 = false ∧
    a.routeWriter .debugger 255 = true ∧ a.attnWriter .debugger = true ∧ a.routeRec 0 = false := by decide
theorem witness_Mailbox :
    let s (c : Chan) : State := (wr run0 [(rMcCfg 3, 0x80000#32)]).setChan 3 c
    let t : Chan := { sendEp := epWord 6 0 15, staged := List.replicate 7 w9 }
    let r : Chan := { recvEp := epWord 6 0 15, msgs := [msg [w9]] }
    (s t).mode ≠ .halted ∧ (s t).mailbox 15 = some (3, false) ∧ 7 + 1 ≤ (s t).msgMax 3 ∧ 1 ≤ (s t).freeWords 3 ∧
    ((s t).chan 3).msgs.length < 8 ∧ ((s t).chan 3).staged ≠ [] ∧ (s r).mailbox 15 = some (3, true) ∧
    (s t).mailboxAdmits .debugger 15 = true ∧ (s r).mailboxAdmits (.host true true) 15 = true ∧
    ((s r).chan 3).msgs = msg [w9] :: [] ∧ epKind ((s r).chan 3).sendEp ≠ 4 := by decide
theorem witness_PoolScrubAndUnits :
    let s (c : Chan) (e : SeUnit → SeUnit) : State := ((wr run0 [(rMcCfg 4095, 0x80000#32)]).setChan 4095 c).modSe 31 e
    let a := s { hasRec := true, recvEp := epWord 2 31 0, msgs := [msg [w9]] } (fun e => { e with txq := [1#32, 2#32, 3#32] })
    let b := s { hasRec := true, sendEp := epWord 2 31 1, staged := List.replicate 7 w9 } (fun e => { e with rxq := [1#32] })
    let d := s { hasRec := true, sendEp := epWord 2 31 9 } (fun e => { e with rxq := [1#32] })
    let soft (j : Nat) := a.setPool j { v := 1#32, soft := true }
    a.mode = .run ∧ (a.chan 4095).hasRec = true ∧ epKind (a.chan 4095).recvEp = 2 ∧ (a.chan 4095).msgs = msg [w9] :: [] ∧
    epUnit (a.chan 4095).recvEp = 31 ∧ (a.se 31).txq.length < a.txCap 31 ∧ epKind (b.chan 4095).sendEp = 2 ∧ epUnit (b.chan 4095).sendEp = 31 ∧
    (b.se 31).rxq = 1#32 :: [] ∧ 1 ≤ b.freeWords 4095 ∧ (b.chan 4095).msgs.length < 8 ∧
    epSub (b.chan 4095).sendEp / 8 + 1 ≤ (b.chan 4095).staged.length + 1 ∧
    (d.chan 4095).staged.length + 1 < epSub (d.chan 4095).sendEp / 8 + 1 ∧
    (∀ j < 4, (a.poolWord (4 * 4095 + j)).soft = false) ∧ ¬ ((soft (4 * 4095)).poolWord (4 * 4095)).soft = false ∧
    (∀ j < 4, j = 0 ∨ ((soft (4 * 4095)).poolWord (4 * 4095 + j)).soft = false) ∧ a.liveAddr 4095 0 / 4 = 1 := by decide
theorem witness_Detector :
    let s (m : Mode) : State := { (wr run0 [(rStcCfg 0, 1#32)]).setThr 127 { thr0 with park := some { op := op0, stamp := 6 } } with mode := m }
    let n : WNode := { t := 127, held := false, tag := 6, stamp := 6, partners := [.never] }
    (s .run).mode ≠ .halted ∧ n.held = false ∧ n.partners = [.never] ∧ n.t < 128 ∧
    ((s .run).thr n.t).park = some { op := op0, stamp := 6 } ∧ ({ op := op0, stamp := 6 } : Parked).marked = false ∧ ((s .run).thr n.t).stand < 16 ∧ (s .test).mode ≠ .run ∧ (s .test).mode ≠ .halted ∧
    ((s .run).reg (rStcCfg ((s .run).thr n.t).stand)).getLsbD 9 = false ∧
    ((s .run).reg (rStcCfg ((s .run).thr n.t).stand)).toNat % 4 = 1 := by decide

/-! ### States that meet the hypotheses of the statements: shift engines, scratchpad, pins -/

/-- Shift engine 31, assigned to stand 0 with 32 pins and running, OUTB 25; further CTL bits and its unit state given. -/
def seS (ctl : Word) (l : List (Nat × Word)) (f : SeUnit → SeUnit) : State :=
  (wr run0 ([(rSeGrp 31, 0x00102000#32), (rSeCtl 31, 0x641#32 ||| ctl)] ++ l)).modSe 31 f
theorem witness_ShiftEngineOperations :
    let a := seS 0x40000000#32 [(rSeL 31 0, 1#32)] (fun e => { e with txq := [1#32], rxq := [1#32, 2#32, 3#32], lane := [{}, {}, {}] })
    a.seRuns 31 = true ∧ (a.se 31).latch = none ∧ (a.se 31).lane.length < 4 ∧ a.reg (rSeL 31 0) ≠ 0#32 ∧
    (seS 0#32 [] id).reg (rSeL 31 0) = 0#32 ∧ (seS 0#32 [] id).seRuns 31 = true ∧ ((31 : Fin 32) : Nat) < a.sePins 31 ∧
    (a.reg (rSeCtl 31)).getLsbD 29 = false ∧ (a.reg (rSeCtl 31)).getLsbD 30 = true ∧ (a.se 31).txq = 1#32 :: [] ∧
    (a.se 31).rxq.length < a.rxCap 31 ∧ 32 ≤ a.sePins 31 ∧ fld (a.reg (rSeCtl 31)) 6 5 ≤ 25 := by decide
theorem witness_ShiftEngineEvents :
    let a (x : Option SeLatch) (q : List Word) := seS 0#32 [] (fun e => { e with latch := x, txq := q })
    let w (k : Nat) : SeLatch := { op := .pull false, tm := 15, stall := k, begun := true }
    (a none []).mode ≠ .halted ∧ (a none []).seAssigned 31 = true ∧ (a none []).seLive 31 = true ∧ (a none []).seRuns 31 = true ∧
    ((a none []).se 31).txq = [] ∧ ((a none []).se 31).latch = none ∧ ((a (some (w 3)) [5#32]).se 31).latch = some (w 3) ∧
    ((a (some (w 3)) [5#32]).se 31).txq = 5#32 :: [] ∧ (a (some (w 3)) [5#32]).seRuns 31 = true ∧
    (seS 0x40000000#32 [(rSeCtl 31, 0#32)] id).seRuns 31 = false ∧ (w 3).stall ≠ 0 ∧ (w 3).op = .pull false ∧ (w 3).begun = true ∧
    ((a none []).se 31).lane.length < 4 := by decide
theorem witness_Calibration :
    let s : State := { wr run0 [(rSeTap 31 31, 0x40000000#32)] with cals := [(1023, { n := 254, move := some 63 })] }
    let m := { seS 0#32 [] id with cals := [(1023, { n := 254, move := some 63 })] }
    s.mode ≠ .halted ∧ (s.reg (rSeTap 31 31)).getLsbD 30 = true ∧ (s.cal 31 31).n < 255 ∧ (s.cal 31 31).move = some 63 ∧ s.seLive 31 = true ∧
    0 ≤ (fld (s.reg (rSeTap 31 31)) 0 6 : Int) + 31 ∧ (fld (s.reg (rSeTap 31 31)) 0 6 : Int) + 31 ≤ 63 ∧ s.padOe (s.seBase 31 + 31) = false ∧
    (m.cal 31 31).move = some 63 ∧ m.seAssigned 31 = true ∧ ((31 : Fin 32) : Nat) < m.sePins 31 ∧ (∀ k : Fin 32, m.sePins k ≤ 32) := by decide +kernel
theorem witness_CodeCorrects : (0xFF#8 : Byte) ≠ 0#8 := by decide
/-- Errors at four symbols whose syndromes are those of one wrong symbol at position 23, which no word has: uncorrectable (R360). -/
def bad4 : WordErr := [(0, 108#8), (1, 170#8), (2, 147#8), (3, 84#8)]
/-- One wrong data symbol. -/
def bad1 : WordErr := [(19, 0x80#8)]
/-- The scrub pointer of bank 31 at the physical row of a logical row. -/
def scrS (l : List (Nat × Word)) (r : Nat) : State := let s := wr run0 l; { s with sp := { s.sp with scrub := [(31, s.physRow 31 r)] } }
/-- Scrub pointers of every bank at a row. -/
def ptrs (n : Nat) : List (Nat × Nat) := (List.range 32).map (fun b => (b, n))
theorem witness_Scrub :
    let s := scrS [] 8191
    s.mode = .run ∧ s.rbit rSpCfg 0 = true ∧ s.sp.under = none ∧ s.bankIdle 31 = true ∧ s.restoreIn 31 = false ∧ s.copyIn 31 = false ∧
    s.wclrIn 31 = false ∧ 8191 < s.rowsN ∧ s.scrubSkips (8191 / 8) = false := by decide +kernel
theorem witness_ScrubRow (l : List (Nat × Word)) (r : Nat) (h : 0 < (wr run0 l).rowsN) :
    (scrS l r).physRow 31 r = (scrS l r).scrubPtr 31 ∧ (scrS l r).scrubPtr 31 < (scrS l r).rowsN :=
  ⟨rfl, Nat.mod_lt _ h⟩
theorem witness_ScrubErrors : (scrS [] 8191).underTest 31 ((scrS [] 8191).scrubPtr 31) = false ∧
    run0.readErr (8191 * 32 + 31) [] = [] ∧
    decode (run0.readErr (8191 * 32 + 31) bad1) = (.corr, run0.readErr (8191 * 32 + 31) bad1) := ⟨rfl, by decide +kernel⟩
/-- A row of a retired page, and a pointer at no row. -/
theorem witness_ScrubSkips : (scrS [(rSpCfg, 0x01010301#32), (rSpRet 0, 0x80000001#32)] 8).scrubSkips (8 / 8) = true := by decide +kernel
theorem witness_ScrubElsewhere :
    let s : State := { run0 with sp := { scrub := [(31, 8192)] } }
    s.scrubPtr 31 = 8192 ∧ s.rowsN = 8192 := by decide +kernel
theorem witness_ScrubUncorrectable : (decode (run0.readErr (8191 * 32 + 31) bad4)).1 = .uncorr := by decide +kernel
theorem witness_ScrubLap :
    let s : State := { (wr run0 [(rSpLapAlarm, 0xFFFFFFFE#32)]) with sp := { scrub := ptrs 8192 } }
    (∀ q, q < 32 → s.rowsN ≤ s.scrubPtr q) ∧ s.reg rSpLapAlarm ≠ 0#32 ∧ (s.reg rSpLapAlarm).toNat < (0xFFFFFFFF#32).toNat ∧
    s.sp.lapAlarmed = false ∧ s.mode = .run ∧ s.rbit rSpCfg 0 = true := by decide
/-- One spare page. -/
def spare1 : State := wr run0 [(rSpCfg, 0x01010301#32)]
theorem witness_Maintenance :
    let s (f : SpUnit → SpUnit) : State := { spare1 with sp := f run0.sp }
    (s id).mode ≠ .halted ∧ (s id).maint (.thread 0) = false ∧ (s id).maint .debugger = true ∧ (0x7E58#16) ≠ 0x7E57#16 ∧
    (s id).sp.ttStep = 0 ∧ (s id).copyInRegion 31 127 = false ∧ (0xC8#8 : Byte) ≠ 0xC7#8 ∧ (s id).sp.wclr = none ∧
    127 < (s id).rowsN / 64 ∧ (s (fun p => { p with ttStep := 2 })).sp.ttStep ≠ 0 ∧ (s (fun p => { p with wclr := some 5 })).sp.wclr ≠ none ∧
    (s id).spLimit ≤ 16 * 0x3FFFF ∧ ({ s id with kind := .pole } : State).kind ≠ .veteran ∧ (s id).kind = .veteran ∧
    16 * 0x3FEFF < (s id).spLimit ∧ (0x9E70#16) ≠ 0x9E71#16 ∧ (s id).poolPage ≤ 1023 ∧ 1022 < (s id).poolPage ∧
    (s (fun p => { p with copy := some 63 })).sp.copy.isSome = true ∧ (s id).sp.copy = none := by decide
theorem witness_Retire :
    (spare1.retEntries.find? (fun e => decide (spare1.rfld (rSpRet e) 0 10 = 1022)) = none) ∧
    (List.range 64).find? (fun i => !spare1.rbit (rSpRet i) 31) = some 0 ∧ spare1.freeSpares = 0 :: [] ∧
    run0.freeSpares = [] ∧ 5 < run0.poolPage := by decide
theorem witness_RetireAgain :
    let s := wr run0 [(rSpCfg, 0x01020301#32), (rSpRet 1, 0x80000001#32)]
    let full := wr spare1 ((List.range 64).map (fun k => (rSpRet k, 0x80000002#32)))
    s.retEntries.find? (fun e => decide (s.rfld (rSpRet e) 0 10 = 1)) = some 1 ∧ s.freeSpares = 1 :: [] ∧
    full.retEntries.find? (fun e => decide (full.rfld (rSpRet e) 0 10 = 1)) = none ∧
    (List.range 64).find? (fun i => !full.rbit (rSpRet i) 31) = none := by decide +kernel
theorem witness_MaintenanceDone :
    let s (f : SpUnit → SpUnit) : State := { run0 with sp := f run0.sp }
    (s id).mode = .run ∧ 2 ≤ (s (fun p => { p with ttStep := 2 })).sp.ttStep ∧ (s (fun p => { p with ttStep := 2 })).sp.walk = false ∧
    (s (fun p => { p with wclr := some 5 })).sp.wclr = some 5 ∧ (s (fun p => { p with wclr := some 5 })).bankIdle (wordBank 5) = true ∧
    (s (fun p => { p with wclr := some 5 })).restoreIn (wordBank 5) = false ∧ (s (fun p => { p with wclr := some 5 })).copyIn (wordBank 5) = false ∧
    (let t := s (fun p => { p with ttStep := 2 })
    t.bankIdle (t.rfld rSpTtStat 3 5) = true ∧ t.copyIn (t.rfld rSpTtStat 3 5) = false ∧ t.wclrIn (t.rfld rSpTtStat 3 5) = false ∧
    t.ttPoisoned [] = []) := by decide +kernel
/-- The region of bank 31 that holds the physical row of logical row `r` is under test. -/
def testS (r : Nat) : State :=
  { run0.setReg rSpTtStat (BitVec.ofNat 32 (31 * 8 + run0.physRow 31 r / 64 * 256)) with sp := { run0.sp with ttStep := 2 } }
theorem fld_of_row (p : Nat) (h : p < 8192) : fld (BitVec.ofNat 32 (31 * 8 + p / 64 * 256)) 3 5 = 31 ∧
    fld (BitVec.ofNat 32 (31 * 8 + p / 64 * 256)) 8 7 = p / 64 := by
  have h1 : 31 * 8 + p / 64 * 256 < 2 ^ 32 := by omega
  simp only [fld, BitVec.toNat_ofNat, Nat.mod_eq_of_lt h1]
  omega
theorem witness_TestRow (r : Fin 8192) : ∃ off, (testS r).ttRow off r = true := by
  have h : run0.physRow 31 r < 8192 := Nat.mod_lt _ (by decide)
  refine ⟨⟨run0.physRow 31 r % 64, Nat.mod_lt _ (by decide)⟩, ?_⟩
  have e : (testS r).reg rSpTtStat = BitVec.ofNat 32 (31 * 8 + run0.physRow 31 r / 64 * 256) := by
    show (run0.setReg _ _).reg _ = _
    simp
  have f := fld_of_row _ h
  have k : (testS r).physRow 31 r = run0.physRow 31 r := rfl
  have z : (testS r).rowsN = 8192 := rfl
  simp only [State.ttRow, State.rfld, e, f, k, z]
  simp only [Bool.and_eq_true, decide_eq_true_eq]
  omega
/-- A copy of which the last word is left. -/
def copyS : State := let s := wr run0 [(rSpCfg, 0x01010301#32), (rSpRet 63, 0x80000001#32)]
  { s with sp := { s.sp with copy := some 63, copyFrom := 1, copied := 255 } }
theorem witness_RetireCopy : copyS.mode = .run ∧ copyS.sp.under = none ∧ copyS.sp.copy = some 63 ∧ copyS.sp.copied ≤ 256 ∧
    copyS.retDst 63 ≠ copyS.sp.copyFrom ∧ copyS.copyCan 63 255 = true ∧ copyS.badAt (copyS.copySrc 255) = false := by decide +kernel
/-- Pin 191 in zone 7, owned by stand 0: CLOAD 2, VZONE 500, so that a transition costs 1000 fC; MAXDRV 2, MAXSIM 255; a budget in pC. -/
def pinS (budget : Word) (p : Pin) (z : Zone) : State :=
  { wr run0 [(rPgCfg 191, 0x00021007#32), (rPgZVzone 7, 500#32), (rPgZLim 7, 0xFF08#32), (rPgZQbudget 7, budget)] with
    pins := [(191, p)], zones := [(7, z)] }
theorem witness_PinWriters :
    let s := pinS 1#32 {} {}
    s.mode ≠ .halted ∧ run0.pinWriter .debugger 191 = false ∧ s.pinWriter (.thread 0) 191 = true ∧ (s.pin 191).fs = true := by decide
theorem witness_PinWrites :
    let s := pinS 1#32 { fs := false } {}
    let h := pinS 1#32 { fs := false, pend := some 1#32 } {}
    let d := pinS 1#32 { fs := false } { qacc := 1 }
    (s.pin 191).fs = false ∧ s.zoneHeld (s.pinZone 191) = false ∧ s.shBad 5 (s.pinZone 191) = false ∧ h.zoneHeld (h.pinZone 191) = true ∧
    s.rfld (rPgZLim 7) 2 2 < fld (0xD#32) 2 2 ∧ fld (0x9#32) 2 2 ≤ s.rfld (rPgZLim 7) 2 2 ∧ s.ndrv 7 + 1 ≤ s.rfld (rPgZLim 7) 8 8 ∧
    (s.zone 7).qacc + s.pinCharge 191 ≤ s.budget 7 ∧ d.budget 7 < (d.zone 7).qacc + d.pinCharge 191 ∧ d.pinCharge 191 ≤ d.budget 7 ∧
    0 < d.pinCharge 191 ∧ (pinS 0#32 { fs := false } {}).budget 7 < s.pinCharge 191 := by decide
theorem witness_Governor :
    let s (x : State) (r : LaneRec) : State :=
      (wr x [(rSeGrp 31, 0x001001BF#32)]).modSe 31 (fun e => { e with lane := [r] })
    let a := s (pinS 1#32 { fs := false, applied := 1#32 } {}) { lvMask := 1#32, lv := b2w true }
    let d := s (pinS 1#32 { fs := false, applied := 1#32 } { qacc := 1 }) { lvMask := 1#32, lv := b2w true }
    a.mode = .run ∧ (∀ k, k < 192 → (a.pin k).pend = none) ∧ ((s run0 { ev := 15#4 }).se 31).lane = { ev := 15#4 } :: [] ∧
    (a.se 31).lane = { lvMask := 1#32, lv := b2w true } :: [] ∧ 1 ≤ a.sePins 31 ∧ a.seBase 31 = 191 ∧ (a.pin 191).fs = false ∧
    a.shBad 5 (a.pinZone 191) = false ∧ (a.zone 7).qacc + a.pinCharge 191 ≤ a.budget 7 ∧ 0 < d.pinCharge 191 ∧
    d.budget 7 < (d.zone 7).qacc + d.pinCharge 191 ∧ d.pinCharge 191 ≤ d.budget 7 ∧
    ((pinS 1#32 {} { surge := [191] }).zone 7).surge ≠ [] ∧ (pinS 1#32 {} { surge := [191] }).recd.queue = [] := by decide +kernel

/-! ### States that meet the hypotheses of the statements: services -/

/-- A parameter block from its bytes other than 0. -/
def parOf (l : List (Nat × Byte)) : List Byte := (List.range 48).map (fun k => Bank.get (fun _ => 0#8) l k)
/-- Instance 63 of a type on threads 0 and 1. -/
def svR (type : Nat) (l : List (Nat × Byte)) : SvcRec := { n := 63, type := type, stand := 0, thr := [0, 1], se := [0], ch := [], params := parOf l }
/-- That instance running: port 0 receives from channel 5, ports 1 and 2 send on channels 6 and 7, thread 1 sends on channel 6 over port 0 and
receives from channel 5 over ports 1 and 2; channel 5 holds the given messages. -/
def svS (r : SvcRec) (m : List Msg) (v : Svc) (l : List (Nat × Word)) : State :=
  let b (p c : Nat) (recv : Bool) : Nat × PortBind := (p, { bound := true, recv := recv, ch := c })
  { wr run0 ([(rSvStat 63, 2#32), (rMcCfg 5, 0x200000#32), (rMcCfg 6, 0x200000#32), (rMcCfg 7, 0x200000#32)] ++ l) with
    image := some { svcs := [r] }, svcs := [(63, v)], chans := if m = [] then [] else [(5, { msgs := m })],
    threads := [(0, { thr0 with ports := [b 0 5 true, b 1 6 false, b 2 7 false] }),
                (1, { thr0 with ports := [b 0 6 false, b 1 5 true, b 2 5 true] })] }
/-- The same with one request, brought by a secure frame or not. -/
def svQ (r : SvcRec) (v : Svc) (ws : List Word) (sec : Bool) : State := svS r [{ msg (goodWords ws) with sec := sec }] v []
/-- What `svQ` needs to be a state in which the request is asked. -/
abbrev asks (s : State) (type : Nat) (r : SvcRec) : Prop :=
  s.svOn 63 type = some r ∧ (s.svc 63).out = [] ∧ s.svChan r 0 0 = some 5 ∧ s.svChan r 0 1 = some 6 ∧
  32 ≤ s.freeWords 6 ∧ (s.chan 6).msgs.length < 8 ∧ (s.chan 6).staged = [] ∧
  (s.thr (epUnit (s.chan 6).sendEp)).park.any (·.svc.isSome) = false
theorem asked_of_asks (r : SvcRec) (v : Svc) (ws : List Word) (sec : Bool) (type : Nat) (h : asks (svQ r v ws sec) type r) :
    (svQ r v ws sec).asked 63 type r 5 6 ws sec :=
  ⟨h.1, h.2.1, h.2.2.1, h.2.2.2.1, by decide, ⟨_, _, rfl, rfl, rfl⟩, (by decide : epKind 0#32 ≠ 4), h.2.2.2.2⟩
/-- A request of one command and its data. -/
def req (opc : Nat) (d : List Byte) : List Word := svMsg opc 7 0 false [] d
theorem witness_ServicesUart : asks (svQ (svR 1 []) {} (req 0x11 [0x55#8]) false) 1 (svR 1 []) ∧ mOpc (req 0x11 [0x55#8]) = 0x11 ∧
    1 ≤ mLen (req 0x11 [0x55#8]) ∧ mSized (req 0x11 [0x55#8]) 0 = true ∧ mOpc (req 0x12 []) = 0x12 ∧
    asks (svQ (svR 1 []) {} (req 0x12 []) false) 1 (svR 1 []) := by decide +kernel
/-- A request with a fixed word. -/
def reqF (opc : Nat) (f : Word) (d : List Byte) : List Word := svMsg opc 7 0 false [f] d
theorem witness_ServicesSpi :
    let r := svR 5 [(5, 3#8)]
    let q (f : Word) := reqF 0x51 f (List.replicate 120 1#8)
    asks (svQ r {} (q 2#32) false) 5 r ∧ asks (svQ r {} (q 3#32) false) 5 r ∧ mOpc (q 2#32) = 0x51 ∧ mSized (q 2#32) 1 = true ∧
    mSized (q 3#32) 1 = true ∧ 1 ≤ mLen (q 2#32) ∧ mLen (q 2#32) ≤ 120 ∧ fld (mWord (q 2#32) 1) 0 2 < r.par 5 1 ∧
    r.par 5 1 ≤ fld (mWord (q 3#32) 1) 0 2 := by decide +kernel
theorem witness_ServicesI2c :
    let q := reqF 0x61 0x7850#32 (List.replicate 116 1#8)
    asks (svQ (svR 6 []) {} q false) 6 (svR 6 []) ∧ i2cOk q = true := by decide +kernel
theorem witness_ServicesSdi :
    let a := req 0x41 [ch '0', ch 'I', ch '!']
    let b := req 0x42 [ch '0', ch 'M', ch '!']
    asks (svQ (svR 4 []) {} a false) 4 (svR 4 []) ∧ asks (svQ (svR 4 []) {} b false) 4 (svR 4 []) ∧ mSized a 0 = true ∧ mSized b 0 = true ∧
    mOpc a = 0x41 ∧ (mData a 0).length ≤ 36 ∧ 2 ≤ (mData a 0).length ∧ sdiKind (mData a 0) ≠ none ∧ sdiCrcCmd (mData a 0) = false ∧
    (mData a 0).getD 0 0#8 = ch '0' ∧ mOpc b = 0x42 ∧ mData b 0 = [ch '0', ch 'M', ch '!'] ∧
    (List.replicate 100 (ch '1')).length ≤ 100 ∧ (∀ x, x ∈ List.replicate 100 (ch '1') → x ≠ ch '+' ∧ x ≠ ch '-') ∧
    asks (svQ (svR 4 []) { tries := 2 } a false) 4 (svR 4 []) ∧ ((svQ (svR 4 []) { tries := 2 } a false).svc 63).tries + 1 = sdiMax (svR 4 []) := by
  decide +kernel
theorem witness_Bridge :
    let p := req 0x0B []
    let a := svMsg 0x09 7 0 false [BitVec.ofNat 32 rBcId, 1#32] []
    let w := svMsg 0x0A 7 0 false [BitVec.ofNat 32 rSpLapAlarm] (leBytes 4 0xFFFFFFFF)
    asks (svQ (svR 8 []) {} p false) 8 (svR 8 []) ∧ asks (svQ (svR 8 []) {} a false) 8 (svR 8 []) ∧
    asks (svQ (svR 8 []) {} w true) 8 (svR 8 []) ∧ asks (svQ (svR 8 []) {} w false) 8 (svR 8 []) ∧
    (svQ (svR 8 []) {} w true).sec.zero ≠ .drained ∧ mOpc p = 0x0B ∧ mLen p = 0 ∧ mSized p 0 = true ∧ mOpc a = 0x09 ∧ mLen a = 0 ∧
    mSized a 2 = true ∧ mWord a 1 = BitVec.ofNat 32 rBcId ∧ mWord a 2 = 1#32 ∧ mOpc w = 0x0A ∧ mLen w = 4 ∧
    w.drop 1 = [BitVec.ofNat 32 rSpLapAlarm, 0xFFFFFFFF#32] := by decide +kernel
theorem witness_ServiceInit :
    let s := svS (svR 1 []) [] {} [(rSvStat 63, 1#32)]
    s.svRec 63 = some (svR 1 []) ∧ (svR 1 []).type = 1 ∧ s.mode = .run ∧ fld (s.svStat 63) 0 2 = 1 := by decide +kernel
theorem witness_ServicesLineUart :
    let r := svR 1 [(13, 125#8)]
    let s (rx : List Byte) := svS r [] { rx := rx } []
    let long := List.replicate 123 1#8
    (s long).svOn 63 1 = some r ∧ ((s long).svc 63).out = [] ∧ ((s long).svc 63).rx.length + [1#8].length < r.par 13 1 ∧
    (s []).svOn 63 1 = some r ∧ (s []).svChan r 0 2 = some 7 ∧ ((s []).chan 7).staged = [] ∧ 32 ≤ (s []).freeWords 7 ∧
    ((s []).chan 7).msgs.length < 8 ∧ ((s []).svc 63).rx = [] ∧ ((s long).svc 63).rx ≠ [] ∧ ((s long).svc 63).rx.length ≤ 124 := by decide +kernel
/-- A Modbus device 1 with 65536 holding registers from 0x100 on; no channel 5 bound where port 0 sends. -/
def mbR : SvcRec := svR 2 [(12, 1#8), (29, 1#8), (32, 0xFF#8), (33, 0xFF#8)]
/-- CRC octets after a frame. -/
def mbCrc (b : List Byte) : List Byte := leBytes 2 (crcOf 0 0xFFFF#32 b).toNat
/-- A frame with its CRC has a CRC of zero. -/
abbrev mbGood (b : List Byte) : Prop := crcOf 0 0xFFFF#32 (b ++ mbCrc b) = 0#32 ∧ (mbCrc b).length = 2
theorem witness_ServicesLineModbus :
    let s := (svS mbR [] {} []).modThr 0 (fun h => { h with ports := [(0, { bound := true, ch := 6 })] })
    s.svOn 63 2 = some mbR ∧ (s.svc 63).out = [] ∧ (1#8 : Byte) ≠ 0#8 ∧ (1#8 : Byte).toNat = mbR.par 12 1 ∧ mbR.par 28 4 = 0x100 ∧
    mbR.par 28 4 % 4 = 0 ∧ 0x100 + 4 * (256 * 255 + 254) < s.spLimit ∧ s.spPoisoned (wordOf (0x100 + 4 * (256 * 255 + 254))) = false ∧
    256 * 255 + 254 < mbR.par 32 2 ∧ mbGood [1#8, 3#8, 0xFF#8, 0xFE#8, 0#8, 1#8] ∧ s.svChan mbR 0 0 = some 6 ∧
    (s.chan 6).staged = [] ∧ 32 ≤ s.freeWords 6 ∧ (s.chan 6).msgs.length < 8 ∧ mbGood [1#8, 6#8, 0xFF#8, 0xFE#8, 0x80#8, 1#8] ∧
    mbGood [1#8, 3#8, 0xFF#8, 0xFF#8, 0#8, 1#8] := by decide +kernel
theorem witness_ServicesLinePulse :
    let r := svR 7 [(1, 1#8), (8, 1#8), (4, 16#8)]
    let s := (svS r [] { pulse := { a := some false, b := some false } } []).modThr 0 (fun h => { h with ports := [] })
    s.svOn 63 7 = some r ∧ s.svChan r 0 0 = none ∧ s.svChan r 0 5 = none ∧ r.par 8 4 = 1 ∧ r.par 4 1 = 16 ∧ r.par 5 1 = 0 ∧
    (s.svc 63).pulse = { a := some false, b := some false } ∧ r.ws % 64 = 0 ∧ r.ws + 64 ≤ s.spLimit ∧
    (∀ k, k < 4 → s.spPoisoned (wordOf r.ws + k) = false) := by decide +kernel
/-- A DNP3 outstation of address 1 under master 2: unsolicited responses allowed with 3 tries, 3 link tries, tables at 0x100, room for 2
events. -/
def dnR (unsol : Byte) : SvcRec :=
  svR 3 [(12, 1#8), (14, 2#8), (17, 3#8), (22, unsol), (23, 3#8), (42, 2#8), (45, 1#8)]
/-- The outstation with its inner state. -/
def dnS (unsol : Byte) (d : Dnp) (m : List Msg) : State := svS (dnR unsol) m { dnp := d } []
/-- A frame from the master. -/
def dlFrom (ctrl : Nat) (d : List Byte) : DlFrame := { ctrl := ctrl, dst := 1, src := 2, data := d }
theorem witness_DnpLink :
    let s := dnS 0#8 {} []
    s.svOn 63 3 = some (dnR 0#8) ∧ (s.svc 63).out = [] ∧ dlParse [] = none ∧
    dlParse (dlFrame 0xC0 1 2 []) = some (dlFrom 0xC0 []) ∧ (dlFrom 0xC0 []).src = (dnR 0#8).par 14 2 ∧
    (dlFrom 0xC0 []).dst = (dnR 0#8).par 12 2 ∧ (dlFrom 0xC0 []).dst < 0xFFFD ∧
    dlParse (dlFrame 0xC4 1 2 [0xC0#8, 0xC5#8, 23#8]) = some (dlFrom 0xC4 [0xC0#8, 0xC5#8, 23#8]) ∧
    (dnR 0#8).parBit 32 0 = false := by decide +kernel
theorem witness_DnpControl :
    let w := List.replicate 4 0xFFFFFFFF#32
    let s := dnS 0#8 { todo := [(w, true)] } []
    let h := svHead 0xB1 (511 % 256) 0 false 127
    let t := dnS 0#8 { ctlTag := some (511 % 256), req := some (15, true) } [msg (goodWords [h])]
    (s.dnp 63).todo = (w, true) :: [] ∧ (s.dnp 63).ctlTag = none ∧ s.svChan (dnR 0#8) 1 0 = some 6 ∧ w.length ≤ 4 ∧
    (s.chan 6).staged = [] ∧ 32 ≤ s.freeWords 6 ∧ (s.chan 6).msgs.length < 8 ∧ s.svOn 63 3 = some (dnR 0#8) ∧
    t.svChan (dnR 0#8) 1 1 = some 5 ∧ (t.chan 5).msgs = msg (goodWords [h]) :: [] ∧ epKind (t.chan 5).sendEp ≠ 4 ∧
    (t.dnp 63).ctlTag = some (511 % 256) ∧ (t.dnp 63).todo = [] ∧ (t.dnp 63).req = some (15, true) ∧ t.svOn 63 3 = some (dnR 0#8) := by decide +kernel
theorem witness_DnpEvents :
    let ev : DnpEvent := { cls := 1, point := 0#32, value := 0#32, ms := 0 }
    let m := msg (goodWords [svHead 0x32 0 0 false 0, 0x10000000#32, 5#32])
    let s := dnS 0#8 { events := [ev] } [m]
    let u (w : Option Nat) := dnS 1#8 { events := [ev], classes := 2, unsolWait := w, dlTries := some 3 } []
    s.svChan (dnR 0#8) 1 2 = some 5 ∧ (s.chan 5).msgs = m :: [] ∧ epKind (s.chan 5).sendEp ≠ 4 ∧ fld 0x10000000#32 24 3 = 0 ∧
    fld 0x10000000#32 28 2 ≠ 0 ∧ (dnR 0#8).par 44 4 % 16 = 0 ∧ (dnR 0#8).par 44 4 + 4 < s.spLimit ∧
    s.spPoisoned (wordOf ((dnR 0#8).par 44 4)) = false ∧ (dnR 0#8).parBit 22 0 = false ∧ (s.dnp 63).events.length < (dnR 0#8).par 42 2 ∧
    (dnR 1#8).parBit 22 0 = true ∧ ((u none).dnp 63).unsolWait = none ∧ 0 < ((u none).dnp 63).pendingEvents ∧
    (u none).svOn 63 3 = some (dnR 1#8) ∧ ((u (some 2)).dnp 63).unsolWait = some 2 ∧ ((u (some 2)).dnp 63).null = false ∧
    (dnR 1#8).par 23 1 ≠ 255 ∧ 2 < (dnR 1#8).par 23 1 ∧ (dnR 1#8).par 23 1 ≤ 3 ∧ ((u (some 3)).dnp 63).unsolWait = some 3 ∧
    ((u none).dnp 63).dlTries = some 3 := by decide +kernel

/-! ### States that meet the hypotheses of the statements: links and recorder -/

/-- Node 5 whose link 3 runs in FAST mode; node 9 and the broadcast route leave on it. -/
def lkS (m : Mode) (l : List (Nat × Word)) (k : Link) (c : Chan) : State :=
  { wr run0 ([(rLkCfg 3, 1#32), (rLkNodeId, 5#32), (rMcCfg 8, 0x200000#32)] ++ l) with
    mode := m, links := [(3, k)], chans := if c = {} then [] else [(8, c)],
    image := some { nodes := [(9#32, 3), (0xFFFFFFFF#32, 3)] } }
/-- A link that is UP with nothing under way. -/
def lk0 : Link := { up := true, seq := 65535, next := 65535, peerAck := 65535, peerRwin := 1 }
/-- A receiving half, and a sending half, of node 9, and a broadcast receiving half. -/
def half (ep : Nat) (out : Bool) (m : List Msg) : Chan :=
  if out then { hasRec := true, recvEp := epWord 4 77 ep, msgs := m } else { hasRec := true, sendEp := epWord 4 77 ep, msgs := m }
theorem witness_LinkHello :
    let s := lkS .run [] { session := 7#32, seq := 65535 } {}
    s.lkOn 3 = true ∧ s.lkGcm 3 = false ∧ (s.lk 3).up = false ∧ (s.lk 3).store = [] ∧ (s.lk 3).wait = [] ∧ s.linkChans = [] ∧
    s.frzWait = false ∧ s.recovQ = [] ∧ isNode 9#32 = true ∧ (9#32) ≠ s.nodeId ∧ (s.lk 3).session = 7#32 ∧ (7#32 : Word) ≠ 0#32 ∧
    (s.lk 3).peerSes = 0#32 ∧ (s.lk 3).seq < 65536 ∧ s.mode = .run := by decide +kernel
/-- Seven messages of no words. -/
def seven : List Msg := List.replicate 7 (msg [])
/-- Link 3 UP and idle, with a channel. -/
def lfS (c : Chan) : State := lkS .run [] lk0 c
theorem witness_LinkIdle : (lfS {}).linkIdle 3 ∧ (lfS (half 0 false seven)).linkIdle 3 ∧ (lfS (half 0 true [])).linkIdle 3 ∧
    (lfS (half 1 false seven)).linkIdle 3 := by unfold State.linkIdle; decide +kernel
theorem witness_LinkFrames :
    let s := lfS
    (s (half 0 false seven)).lkAdmits 8 (epWord 4 77 0) 9#32 false = true ∧
    (s (half 0 false seven)).freeWords 8 = 32 ∧ ((s (half 0 false seven)).chan 8).msgs.length < 8 ∧ ((s (half 0 false seven)).chan 8).staged = [] ∧
    (s (half 1 false seven)).lkAdmits 8 (epWord 4 77 1) 0xFFFFFFFF#32 false = true ∧ (s (half 1 false seven)).castLinks 3 = [] ∧
    (s {}).nodeId ≠ 0xFFFFFFFF#32 ∧ (s (half 0 true [])).lkAdmits 8 (epWord 4 77 0) 9#32 false = true ∧
    (s {}).routeTo 9#32 = some 3 ∧ (9#32 : Word) ≠ 0xFFFFFFFF#32 ∧
    ((s (half 0 false seven)).chan 8).owedM = 0 ∧ (s (half 0 false seven)).owedTo 9#32 = none ∧ 2 ^ 28 - 1 ≠ (s {}).rfld rBtNom 0 28 := by
  decide +kernel
/-- A frame of this node that waits. -/
def ent (src tries : Nat) : LkEnt := { ty := .cdata, f := { dst := 9#32, src := 5#32 }, src := src, tries := tries }
/-- Link 3 with TIME frames on. -/
def ltS (k : Link) (c : Chan) : State := lkS .run [(rLkCtl 3, 0x03E80201#32)] k c
theorem witness_LinkTimers :
    let s := ltS
    (s { session := 1#32 } {}).lkOn 3 = true ∧ ((s { session := 1#32 } {}).lk 3).up = false ∧ (s lk0 {}).linkIdle 3 ∧ (s lk0 {}).lkMode 3 = 1 ∧
    (s { lk0 with ackDue := true } {}).linkIdle 3 ∧ ((s { lk0 with ackDue := true } {}).lk 3).ackDue = true ∧
    (s lk0 { half 0 false [] with owedM := 8, owedW := 1 }).linkIdle 3 ∧ 0 < ((s lk0 { half 0 false [] with owedM := 8, owedW := 1 }).chan 8).owedM ∧
    epKind ((s lk0 { half 0 false [] with owedM := 8 }).chan 8).sendEp = 4 ∧ (s lk0 {}).mode = .run ∧
    (s lk0 (half 0 false [])).epNode (epWord 4 77 0) = 9#32 ∧ (s lk0 {}).routeTo 9#32 = some 3 ∧ 1 ≤ lk0.peerRwin ∧ lk0.peerAck = lk0.seq := by
  unfold State.linkIdle; decide +kernel
theorem witness_LinkCommands :
    let s := ltS
    (s lk0 (half 0 true [msg [w9]])).linkIdle 3 ∧ epKind ((s lk0 (half 0 true [msg [w9]])).chan 8).recvEp = 4 ∧
    (((s lk0 (half 0 true [msg [w9]])).chan 8).msgs.any (fun m => !m.sent)) = true ∧ (s lk0 {}).rbit (rLkCtl 3) 0 = true ∧
    (s lk0 {}).maint .debugger = true ∧ (s lk0 {}).castLinks 4 = [] ∧ ((s lk0 {}).lk 3).busy = false ∧
    ((s { lk0 with busy := true } {}).lk 3).busy = true ∧ (s { lk0 with busy := true } {}).linkIdle 3 ∧ (s lk0 {}).maint (.thread 0) = false := by
  unfold State.linkIdle; decide +kernel
theorem witness_LinkRetries :
    let s := ltS
    let g := (wr (s { lk0 with store := [], txcnt := 0xFFFF0000 } {}) [(rLkCfg 3, 0x11#32)])
    ((s { lk0 with store := [ent 4 7] } {}).lk 3).store = ent 4 7 :: [] ∧ (ent 4 7).tries < 8 ∧ 8 ≤ (ent 4 8).tries ∧
    ((s { lk0 with wait := [ent 4 0] } {}).lk 3).wait = [ent 4 0] ∧ (ent 4 0).f.credit = none ∧ (ent 0 0).src = 0 ∧
    (∀ j, j < 3 → ((s { lk0 with wait := [ent 0 0] } {}).lk j).wait = []) ∧ ({ s lk0 {} with frzWait := true } : State).frzWait = true ∧
    g.lkGcm 3 = true ∧ g.lkOn 3 = true ∧ (g.lk 3).store = [] ∧ (g.lk 3).txcnt = 0xFFFF0000 ∧ lk0.txcnt < 0xFFFF0000 ∧ (g.ports.tr.any (fun r => decide (r.user = .session 3))) = false := by
  decide +kernel
/-- A reading of an image that wants more bytes. -/
def more (p : Parse Image) : Bool := match p with
  | .error none => true
  | _ => false
theorem more_iff {p : Parse Image} (h : more p = true) : p = .error none := by
  unfold more at h; split at h
  · rfl
  · cases h
/-- A reading of an image that gives `a`. -/
def gives {α : Type} [DecidableEq α] (p : Parse α) (a : α) : Bool := match p with
  | .ok b => decide (b = a)
  | _ => false
theorem gives_iff {α : Type} [DecidableEq α] {p : Parse α} {a : α} (h : gives p a = true) : p = .ok a := by
  unfold gives at h; split at h
  · rw [of_decide_eq_true h]
  · cases h
/-- The smallest image: a header of 64 bytes for a block of configuration mask 8, and a tag of 16. -/
def img0 : List Byte := leBytes 4 0x7E1A5128 ++ leBytes 2 1 ++ leBytes 2 64 ++ leBytes 4 80 ++ leBytes 4 3 ++ [0#8, 8#8] ++ List.replicate 62 0#8
theorem witness_Recov :
    let s (k : Nat) (ld : Option Load) : State :=
      { lkS .recovery [(rBcImgStat, BitVec.ofNat 32 k)] { lk0 with recov := true } {} with boot := { load := ld } }
    let r (v : Word) := lkS .run [(rLkRrxStat 3, v)] lk0 {}
    (s 0 none).linkIdle 3 ∧ (s 0 none).mode = .recovery ∧ (s 0 none).boot.otp = none ∧ (s 0 none).imgState = 0 ∧
    (s 2 (some { src := 3 })).linkIdle 3 ∧ (s 2 (some { src := 3 })).imgState = 2 ∧ (s 2 (some { src := 3 })).boot.load = some { src := 3 } ∧
    more ((s 2 (some { src := 3 })).parse ([] ++ img0.take 64)) = true ∧ (img0.take 64).length % 4 = 0 ∧ (img0.take 64).length ≤ 252 ∧
    (r 0#32).linkIdle 3 ∧ (r 0#32).rbit (rLkRrxStat 3) 0 = false ∧ (r 1#32).linkIdle 3 ∧ (r 1#32).rbit (rLkRrxStat 3) 0 = true := by
  unfold State.linkIdle; decide +kernel
/-- An object of a key and severity. -/
def obj (k sev : Nat) : RecObj := { valid := true, key := { unit := 1, index := k }, sev := sev }
/-- Objects in slots 0 to n − 1. -/
def pool (n sev : Nat) : List (Nat × RecObj) := (List.range n).map (fun i => (i, obj i sev))
theorem witness_Recorder :
    let u (k sev : Nat) : RecUpd := { key := { unit := 1, index := k }, sev := sev, dat := .bin 15 7 }
    let s (p : List (Nat × RecObj)) (c : ClearStep) (u : RecUpd) : State := { run0 with recd := { pool := p, queue := [u], clear := c } }
    let known (s : State) (u : RecUpd) := s.valid.find? (fun i => decide ((s.obj i).key = u.key))
    let free (s : State) := (List.range 256).find? (fun i => !(s.obj i).valid)
    let full := s (pool 256 2) .none
    (s [] .none (u 9 3)).mode ≠ .halted ∧ (s [] .none (u 9 3)).recd.queue = u 9 3 :: [] ∧ (s [] .none (u 9 3)).recd.clear = .none ∧
    known (s [(255, obj 255 2)] .none (u 255 2)) (u 255 2) = some 255 ∧ known (s (pool 3 2) .none (u 300 3)) (u 300 3) = none ∧
    free (s (pool 3 2) .none (u 300 3)) = some 3 ∧ known (full (u 300 3)) (u 300 3) = none ∧ free (full (u 300 3)) = none ∧
    (full (u 300 3)).victim 3 = some 0 ∧ (full (u 300 2)).victim 2 = none ∧
    (s [(255, obj 255 2)] .none (u 300 3)).valid.find? (fun j => decide ((254#8).toNat < j) &&
      decide (((2 : Fin 8) : Nat) ≤ ((s [(255, obj 255 2)] .none (u 300 3)).obj j).sev)) = some 255 ∧
    (s [(255, obj 255 2)] .none (u 300 3)).valid.find? (fun j => decide ((255#8).toNat < j) &&
      decide (((2 : Fin 8) : Nat) ≤ ((s [(255, obj 255 2)] .none (u 300 3)).obj j).sev)) = none ∧
    fld 0x000FE2C1#32 0 16 = 0xE2C1 ∧ fld 0x000FE2C0#32 0 16 ≠ 0xE2C1 ∧
    (s (pool 3 2) (.pass 0x000FE2C1#32) (u 9 3)).recd.clear = .pass 0x000FE2C1#32 ∧
    (s (pool 3 2) (.pass 0x000FE2C1#32) (u 9 3)).valid.length < 256 ∧ (0x000FE2C1#32).getLsbD 19 = true := by decide +kernel
/-- A commit of sector 7 in a step. -/
def cm0 (st : CmStep) : CommitRun := { target := 7, seq := 5#32, stamp := {}, slots := [], nobj := 0, crc := 0#32, step := st }
/-- A state with the flash port and the recorder given. -/
def flS (f : FlashOp) (r : Recorder) : State := { run0 with ports := { flash := f }, recd := r }
theorem witness_Commits :
    let a := flS .none { cmReq := true }
    let t := if a.rbit rErCmStat 3 then (a.rfld rErCmStat 0 3 + 1) % 8 else 0
    let f (o : FlashOp) (st : CmStep) := flS o { commit := some (cm0 st) }
    let ld (l : Load) : State := { flS (.read 0x40 7 false) {} with boot := { load := some l } }
    a.mode ≠ .halted ∧ 3 ≤ a.good ∧ a.recd.commit = none ∧ a.maint .debugger = true ∧ a.recd.cmReq = true ∧ a.mode = .run ∧
    a.target t = some 0 ∧ a.maint (.thread 0) = false ∧ (f .none (.erase 0)).recd.commit = some (cm0 (.erase 0)) ∧ (cm0 .unit).target < 8 ∧
    (f .none (.erase 0)).ports.flash = .none ∧ (f .retry (.head 0)).ports.flash = .retry ∧
    (f (.issued false 64 [] false) .unit).ports.flash = .issued false 64 [] false ∧ (cm0 .unit).step = .unit ∧ (cm0 .unit).step ≠ .bad ∧
    (1#32).getLsbD 0 = true ∧ (8#32).getLsbD 0 = false ∧ (8#32).getLsbD 3 = true ∧ (0#32).getLsbD 3 = false ∧ (0#32).getLsbD 1 = false ∧
    (ld { src := 2 }).boot.load = some { src := 2 } ∧ (ld { src := 2 }).ports.flash = .read 0x40 7 false ∧
    more ((ld { src := 2 }).parse ([] ++ padTo 32 (img0.take 32))) = true ∧ (flS (.read 0x40 7 true) {}).ports.flash = .read 0x40 7 true ∧
    ({ run0 with aon := { secs := 3599, hours := 5 } } : State).aon.secs = 3599 ∧ (run0.aon.secs < 3599) := by decide +kernel
/-- A commit of no objects as it stands in a sector, and a blank sector. -/
def sectC (s : State) : SectRead :=
  let h := s.cmHeader (cm0 .unit)
  .bytes h (List.replicate 32 0xFF#8 ++ leBytes 4 0x7E1AE8C1 ++ leBytes 4 5 ++ leBytes 4 (~~~ crcBytes 2 0xFFFFFFFF#32 h).toNat ++ List.replicate 20 0#8)
/-- See `sectC`. -/
def sectB : SectRead := .bytes (List.replicate 64 0xFF#8) (List.replicate 64 0xFF#8)
theorem witness_Restore :
    let s : State := { State.reset with phase := 4, recd := { restore := true } }
    let q := List.replicate 7 sectB ++ [sectC s]
    s.mode = .boot ∧ s.phase = 4 ∧ s.recd.restore = true ∧ q.length = 8 ∧ s.rbit rBcRstCause 3 = false ∧
    newest ((List.range 8).filterMap (fun k => (s.cmValid (q.getD k .flerr)).map (fun c => (k, c)))) =
      some (7, { seq := 5#32, head := s.cmHeader (cm0 .unit) }) ∧
    ((List.replicate 8 sectB).all (fun q => sectBlank q && !sectMarked q)) = true ∧ (List.replicate 8 sectB).length = 8 := by decide +kernel

/-! ### States that meet the hypotheses of the statements: start-up -/

/-- An OTP array with a right fuse CRC, one with generation 4 valid too, and one with a wrong fuse CRC. -/
def otpF : List (Nat × Word) := [(0x3F, crcWords (List.replicate 63 0#32))]
/-- See `otpF`. -/
def otpG : List (Nat × Word) :=
  otpF ++ [(0x11E, 0x5E4E0004#32), (0x11F, crcWords (List.replicate 30 0#32 ++ [0x5E4E0004#32]))]
/-- See `otpF`. -/
def otpB : List (Nat × Word) := [(0x3F, ~~~ crcWords (List.replicate 63 0#32))]
/-- In BOOT, at a phase. -/
def bootS (p : Nat) : State := { State.reset with phase := p }
/-- In P1 with an OTP array. -/
def fuseS (o : List (Nat × Word)) : State := { bootS 1 with otp := o }
theorem witness_StartUp : (fuseS otpG).mode = .boot ∧ (fuseS otpG).phase = 1 ∧ (fuseS otpG).sec.lockRead = false := by decide
theorem witness_StartUpFuses : (fuseS otpG).fuse 0x3F = crcWords ((List.range 63).map (fuseS otpG).fuse) ∧
    (fuseS otpF).fuse 0x3F = crcWords ((List.range 63).map (fuseS otpF).fuse) ∧
    ¬ (fuseS otpB).fuse 0x3F = crcWords ((List.range 63).map (fuseS otpB).fuse) := by
  have h (o : List (Nat × Word)) (k : (List.range 63).map (fuseS o).fuse = List.replicate 63 0#32) :
      crcWords ((List.range 63).map (fuseS o).fuse) = crcWords (List.replicate 63 0#32) := by rw [k]
  refine ⟨?_, ?_, ?_⟩
  · rw [h otpG rfl]; rfl
  · rw [h otpF rfl]; rfl
  · rw [h otpB rfl]
    show ¬ ~~~ crcWords (List.replicate 63 0#32) = crcWords (List.replicate 63 0#32)
    intro e
    have b := congrArg (fun w : Word => w.getLsbD 0) e
    simp at b
theorem witness_StartUpNoGeneration : (fuseS otpF).activeGen = none := by decide
theorem witness_StartUpGeneration : (fuseS otpG).activeGen = some 4 := by
  have h : (fuseS otpG).genWords 4 = List.replicate 30 0#32 ++ [0x5E4E0004#32] ++ [crcWords (List.replicate 30 0#32 ++ [0x5E4E0004#32])] := rfl
  have g : genValid 4 ((fuseS otpG).genWords 4) = true := by rw [h]; simp [genValid]
  simp [State.activeGen, g]
theorem witness_StartUpImage :
    let s (w : Word) (l : Option Load) (p : Nat) : State := { wr (bootS p) [(rOtpMirror 0x82, w)] with gen := some 0, boot := { load := l } }
    let nv : NvRead := { sfdp := true, q144 := true, q114 := true, qe := true, dummy := 0#8, bytes := img0 }
    let a := s 0#32 none 3
    let im : Image := { length := 80, version := 3#32, cfgMask := 8 }
    (wr (bootS 2) [(rBcMode, 0x200#32)]).rbit rBcMode 9 = true ∧ (bootS 2).shGroup 0 = false ∧ (bootS 2).phase = 2 ∧
    (s 1#32 none 3).loadSrcs.headD 1 = 2 ∧ (s 1#32 none 3).ports.flash = .none ∧ a.boot.load = none ∧ a.loadSrcs.headD 1 = 1 ∧ nv.sfdp = true ∧
    gives (parseHeader (padTo 64 nv.bytes) a.kind a.arbFloor (a.genWord 0)) (im, 0) = true ∧
    fld (a.genWord 3) 0 24 + leNat (((padTo 64 nv.bytes).drop 8).take 4) ≤ 2 ^ 24 ∧ gives (a.parse (padTo im.length nv.bytes)) im = true ∧
    (s 0#32 (some { src := 3, image := some im, ok := true }) 3).boot.load = some { src := 3, image := some im, ok := true } := by decide +kernel
theorem witness_StartUpRelease :
    let s (b : Boot) : State := { bootS 4 with boot := b, image := some {}, recd := { restore := false } }
    (s {}).mode = .boot ∧ (s {}).phase = 4 ∧ (s {}).boot.locked = false ∧ (s { locked := true }).image = some {} ∧
    (s { locked := true }).boot.locked = true ∧ (s { locked := true }).recd.restore = false ∧
    ({ bootS 3 with mode := .recovery, boot := { load := some { src := 3, ok := true } } } : State).boot.load = some { src := 3, ok := true } := by
  decide +kernel
/-- In RECOVERY with BC_IMGSTAT.STATE and the loader given. -/
def recS (k : Nat) (b : Boot) : State := { wr State.reset [(rBcImgStat, BitVec.ofNat 32 k)] with mode := .recovery, boot := b }
theorem witness_Loader :
    let h := Master.host true true
    run0.boot.otp = none ∧ run0.imgWriter h 1 = true ∧ run0.mode = .run ∧ run0.boot.reload = none ∧ (recS 0 {}).mode = .recovery ∧
    (recS 0 {}).imgWriter h 2 = true ∧ (recS 0 {}).imgState = 0 ∧ (recS 0 {}).imgWriter h 3 = true ∧ (recS 0 {}).imgWriter h 4 = true ∧
    (recS 1 { load := some { src := 3 } }).imgState = 1 ∧ (recS 1 { load := some { src := 3 } }).boot.load = some { src := 3 } ∧
    run0.imgWriter h 2 = true ∧ (0x1A6F#16) ≠ 0x1A6E#16 ∧ run0.mode ≠ .halted ∧
    more ((recS 1 { load := some { src := 3 } }).parse ([] ++ leBytes 4 (0x7E1A5128#32).toNat)) = true := by decide +kernel
theorem witness_Otp :
    let h := Master.host true true
    let s := recS 0 {}
    let o (st : List (Nat × Word)) : State := recS 0 { otp := some { ctl := 0x30000#32, check := false, steps := st, all := st } }
    let r : State := { run0 with image := some { epoch := 64 }, otp := [(0x121, 0x40000000#32)] }
    s.imgState = 0 ∧ s.boot.otp = none ∧ s.otpWriter h 1 = true ∧ s.blankGen = some 1 ∧ s.otpWriter h 3 = true ∧ s.lockWord.getLsbD 0 = false ∧
    s.otpWriter h 4 = true ∧ s.lockWord.getLsbD 1 = false ∧ s.otpWriter h 6 = true ∧ s.lockWord.getLsbD 2 = false ∧ s.otpWriter h 5 = true ∧
    (s.fuse (0x128 + 4 * 7 + 3)).getLsbD 0 = false ∧ (s.fuse (0x128 + 4 * 7 + 3)).getLsbD 1 = false ∧
    ({ s with otp := [(0x124, 1#32)] } : State).lockWord.getLsbD 0 = true ∧ r.mode = .run ∧ r.otpWriter h 2 = true ∧ r.image = some { epoch := 64 } ∧
    r.arbFloor + 1 = 64 ∧ r.imgState = 0 ∧ (o [(5, 1#32), (6, 2#32)]).boot.otp.isSome = true ∧ fld (0x30000#32) 16 4 = 3 := by decide +kernel

/-! ### States that meet the hypotheses of the statements: stands, alarms, debug, freezes, ports -/

/-- Stand 0 in a state of STCn_STAT with its inner state; thread 0 and the image's record of it. -/
def stS (v : Word) (d : Stand) (l : List (Nat × Word)) (f : Thread → Thread) : State :=
  { wr (runT f) ([(rStcStat 0, v)] ++ l) with
    stands := if d = {} then [] else [(0, d)]
    image := some { threads := [{ n := 0, cls := 1, twin := false, stand := 0, entry := 0x400000#24, tvec := 4#24, arg := 7#32 }] } }
theorem witness_ThreadRestart :
    let s := stS 1#32 {} [] (fun h => { h with restarting := true })
    s.mode = .run ∧ (s.image.bind (fun im => im.threadRec 0)).isSome = true ∧ (s.thr 0).sbuf = [] ∧ (s.thr 0).held = [] ∧ s.requestsOf 0 = [] ∧
    (s.thr 0).restarting = true ∧ (s.thr 0).twin = false ∧ s.standState (s.thr 0).stand = 1 ∧
    (s.image.map (fun im => im.svcs)) = some [] := by decide +kernel
theorem witness_StandRestart :
    let a := stS 1#32 { req := true, causes := 0xFF } [] id
    let r (d : Stand) (l : List (Nat × Word)) := stS 2#32 d l id
    (a.stand 0).req = true ∧ (a.stand 0).step = .none ∧ (∀ t ∈ a.standTids 0, (a.thr t).sbuf = [] ∧ (a.thr t).held = [] ∧ a.requestsOf t = []) ∧
    ((r { step := .drained } []).stand 0).step = .drained ∧ ((r { step := .drained } []).stand 0).zero = false ∧
    ((r { step := .drained } []).stand 0).parks = false ∧ 0 ∈ (r { step := .drained } []).standThreads 0 ∧
    ((r { step := .drained, parks := true } []).stand 0).parks = true ∧ ((r { step := .restored } []).stand 0).step = .restored ∧
    (r { step := .restored } []).standState 0 = 2 ∧ (r { step := .restored } []).rbit rDbgShold 0 = false ∧
    ((r { step := .restored } []).stand 0).unpark = false ∧ (r { step := .restored } [(rDbgShold, 1#32)]).rbit rDbgShold 0 = true := by decide +kernel
theorem witness_StandCommands :
    let s (v : Word) (d : Stand) := stS v d [] id
    (s 1#32 {}).mode ≠ .halted ∧ (s 1#32 {}).stcWriter (.thread 0) 0 = some 0 ∧ (s 1#32 {}).stcWriter (.host true true) 0 = some 2 ∧
    (s 1#32 {}).standState 0 = 1 ∧ (s 2#32 { step := .drained }).standState 0 = 2 ∧ ((s 2#32 { step := .drained }).stand 0).step ≠ .none ∧
    (s 4#32 { step := .restored }).standState 0 = 4 ∧ (s 3#32 { step := .restored, parks := true }).standState 0 = 3 ∧
    (s 3#32 { step := .restored, parks := true }).rbit rDbgShold 0 = false ∧ (0x5E7C#16) ≠ 0x5E7D#16 ∧
    ((s 1#32 {}).thr 0).stand = 0 ∧ ((s 1#32 {}).thr 0).cls ≠ .idle ∧ ((s 1#32 { wdOn := true }).stand 0).wdOn = true ∧
    (s 1#32 { wdOn := true }).rbit rDbgShalt 0 = false ∧ 0 < (s 0xF01#32 {}).rfld (rStcStat 0) 8 4 := by decide +kernel
theorem witness_Alarms :
    let s (src : Nat) (r : Word) (m : Mode) : State := { wr run0 [(rSecResp src, r)] with raised := [src], mode := m }
    (s 15 0#32 .run).raised = 15 :: [] ∧ fld ((s 15 0#32 .run).reg (rSecResp 15)) 0 4 = 0 ∧ (s 15 0#32 .run).mode ≠ .halted ∧
    ¬ ((s 15 0#32 .run).mode = .boot ∧ (s 15 0#32 .run).phase < 2) ∧ ((s 15 8#32 .run).reg (rSecResp 15)).getLsbD 3 = true ∧
    fld ((s 15 7#32 .run).reg (rSecResp 15)) 0 4 ≠ 0 ∧ ((s 15 7#32 .run).reg (rSecResp 15)).getLsbD 3 = false ∧
    ((s 15 5#32 .run).reg (rSecResp 15)).getLsbD 1 = false ∧ (s 15 0x10004#32 .run).standState 0 = 1 ∧ run0.rbit rSecAlStat 23 = true ∧
    (wr run0 [(rSecAlStat, 0#32)]).rbit rSecAlStat 23 = false ∧ (State.reset.mode = .boot ∧ State.reset.phase < 2) ∧ (1#32) ≠ 0#32 := by
  decide +kernel
theorem witness_Zeroise :
    let s (z : ZStep) (m : Mode) : State := { run0 with sec := { zero := z }, mode := m }
    (s .asked .run).sec.zero = .asked ∧ (∀ t : Tid, ((s .asked .run).thr t).sbuf = [] ∧ ((s .asked .run).thr t).held = [] ∧
      (s .asked .run).requestsOf t = []) ∧ (s .drained .recovery).sec.zero = .drained ∧ (s .drained .recovery).mode ≠ .halted ∧
    (s .cleared .run).sec.zero = .cleared ∧ (s .cleared .run).frzTrig = [] := by decide +kernel
/-- HALTED with a complete freeze, at lock level 2, for source 15. -/
def lk2S : State := { wr run0 [(rDbgFrzStat, 2#32), (rBcMode, 0x800#32)] with mode := .halted, sec := { frzSrc := some 15 } }
theorem witness_DebugChallenge :
    let s (x : Sec) (l : List (Nat × Word)) : State := { wr run0 l with sec := { x with lockRead := true } }
    lk2S.mode = .halted ∧ lk2S.rfld rDbgFrzStat 0 2 = 2 ∧ lk2S.rfld rBcMode 10 3 = 2 ∧ lk2S.sec.frzSrc = some 15 ∧ (s {} []).dbgSec = true ∧
    (s {} []).sec.lockout = 0 ∧ 0 < (s { lockout := 1024 } []).sec.lockout ∧ (s { lockout := 1024 } []).dbgSec = true ∧
    (s {} []).sec.unlockCtl = none ∧ ((s {} []).reg (rSecDbgCh 0) = 0#32 ∧ (s {} []).reg (rSecDbgCh 1) = 0#32) ∧
    ¬ ((s {} [(rSecDbgCh 1, 1#32)]).reg (rSecDbgCh 0) = 0#32 ∧ (s {} [(rSecDbgCh 1, 1#32)]).reg (rSecDbgCh 1) = 0#32) := by decide +kernel
/-- A debugger admitted, in a mode, with registers. -/
def dbS (m : Mode) (l : List (Nat × Word)) (f : Thread → Thread) : State := { wr (runT f) l with sec := { lockRead := true }, mode := m }
theorem witness_DebugPort :
    let halted := dbS .halted [(rDbgFrzStat, 2#32), (rDbgFrPtr, 2#32)] id
    let sp : State := { dbS .halted [(rDbgFrzStat, 2#32), (rDbgFrSel, 5#32)] id with sp := { ttStep := 4 } }
    run0.dbgSec = false ∧ (wr (dbS .run [] id) [(rBcMode, 0x400#32)]).dbgSec = true ∧ (wr (dbS .run [] id) [(rBcMode, 0x400#32)]).dbgOpen = false ∧
    secDbgKind (0x600000#24).toNat = none ∧ (dbS .run [] id).dbgOpen = true ∧ halted.dbgOpen = true ∧ halted.mode = .halted ∧
    (0x69FFFF#24).toNat < 0x6A0000 ∧ 0x6C0000 ≤ (0x6C0000#24).toNat ∧ (dbS .run [] id).frzTrig = [] ∧ halted.rfld rDbgFrzStat 0 2 = 2 ∧
    halted.rfld rDbgFrSel 0 16 = 0 ∧ halted.rfld rDbgFrPtr 0 24 = 2 ∧ (dbS .run [] id).rfld rDbgFrzStat 0 2 ≠ 2 ∧
    sp.rfld rDbgFrSel 0 8 = 5 ∧ sp.sp.ttStep = 4 ∧ run0.dbgOpen = false ∧ fld (0x3FF#32 ^^^ run0.reg rStcTick) 0 10 ≠ 0 ∧
    run0.reg rBcRwlRef = 0#32 := by decide +kernel
/-- Thread 0 bound to send on channel 3 over port 0. -/
def sendP (h : Thread) : Thread := { h with halted := true, ports := [(0, { bound := true, ch := 3 })] }
theorem witness_DebuggerHalts :
    let s := dbS .run [] id
    let h := dbS .run [] sendP
    let a := h.setChan 3 { staged := [w9] }
    let p := (dbS .run [] (fun k => { sendP k with park := some { op := { op0 with port := 0 }, stamp := 1 } })).setChan 3 { staged := [w9] }
    s.dbgOpen = true ∧ (dbS .test [] id).mode ≠ .run ∧ (s.thr 1).cls = .idle ∧ (s.thr 0).cls ≠ .idle ∧ (s.thr 0).halted = false ∧
    (h.thr 0).halted = true ∧ ((h.thr (h.copyA 0)).port 0).bound = true ∧ ((h.thr (h.copyA 0)).port 0).recv = false ∧ (h.chan 3).staged = [] ∧
    (a.chan 3).staged ≠ [] ∧ (∀ j ∈ a.copies 0, (a.thr j).park = none) ∧ (p.thr 0).park = some { op := { op0 with port := 0 }, stamp := 1 } ∧
    s.standState 15 ≠ 0 ∧ (dbS .run [(rStcStat 15, 0#32)] id).standState 15 = 0 ∧ s.standState 0 ≠ 0 ∧ s.standState 0 ≠ 5 ∧ s.rbit rDbgShalt 0 = false ∧
    (dbS .run [(rDbgShalt, 1#32)] id).rbit rDbgShalt 0 = true ∧
    (dbS .run [(rStcStat 0, 4#32)] id).standState 0 = 4 ∧ (0xFFFE#32).getLsbD 0 = false ∧ (∀ j, j < 16 → s.standState j ≠ 4) ∧
    s.rfld rDbgTsel 0 7 = 0 ∧ (s.thr 0).twin = false := by decide +kernel
theorem witness_DebuggerHolds :
    let s : State := { dbS .run [(rStcStat 0, 2#32), (rDbgShold, 1#32)] id with stands := [(0, { step := .restored })] }
    s.dbgOpen = true ∧ (s.stand 0).step = .restored ∧ s.standState 0 = 2 ∧ s.rbit rDbgShold 0 = true := by decide +kernel
theorem witness_Freezes :
    let s (m : Mode) (k : Word) (r : Word) (f : State → State) : State := f (dbS m [(rDbgFrzStat, k), (rSecResp 15, r)] id)
    let a (r : Word) := s .halted 2#32 r (fun s => { s with raised := [15] })
    (s .run 0#32 0#32 id).dbgOpen = true ∧ run0.dbgOpen = false ∧ (s .run 0#32 0#32 (fun s => { s with frzTrig := [0, 6] })).frzTrig ≠ [] ∧
    (s .halted 1#32 0#32 id).rfld rDbgFrzStat 0 2 = 1 ∧ (a 2#32).raised = 15 :: [] ∧ ((a 2#32).reg (rSecResp 15)).getLsbD 1 = true ∧
    ((a 8#32).reg (rSecResp 15)).getLsbD 3 = true ∧ ((a 5#32).reg (rSecResp 15)).getLsbD 1 = false ∧
    ((a 5#32).reg (rSecResp 15)).getLsbD 3 = false ∧ (s .run 0#32 0#32 id).rfld rDbgFrzStat 0 2 = 0 ∧
    (s .halted 2#32 0#32 id).rfld rDbgFrzStat 0 2 ≠ 0 ∧ (s .halted 2#32 0#32 id).det.due = [] ∧
    15 ∈ (s .halted 2#32 0x10004#32 (fun s => { s with sec := { s.sec with held := [15] } })).sec.held ∧
    (s .halted 2#32 0#32 (fun s => { s with dbg := { notack := 2 ^ 59 } })).dbg.notack.testBit 59 = true ∧
    (s .halted 2#32 0#32 (fun s => { s with dbg := { notack := 2 ^ 59 } })).dbg.late.testBit 59 = false ∧ (s .halted 2#32 0#32 id).mode = .halted ∧
    (∀ j, j < 16 → (s .halted 2#32 0#32 id).standState j ≠ 4) ∧
    (let h := s .halted 2#32 0#32 (fun s => s.setReg (rStcStat 15) 4#32)
    h.standState 15 = 4 ∧ h.rbit rDbgShold 15 = false ∧ h.sec.held = [] ∧ h.det.due = [] ∧ h.rfld rDbgFrzStat 0 2 ≠ 0 ∧ h.dbgOpen = true) := by
  decide +kernel
/-- A host request that is outstanding. -/
def hq (ans : Option (Nat × Word)) : HostReq := { we := true, addr := 0x700000#24, size := 2, wdata := 1#32, sec := true, priv := true, ans := ans }
/-- The host port open, with requests. -/
def hpS (m : Mode) (l : List (Nat × Word)) (q : List HostReq) : State :=
  { wr run0 ([(rBcMode, 0x100#32)] ++ l) with mode := m, ports := { hostQ := q } }
theorem witness_HostRequests :
    let s := hpS .run [(rSpHwinLim 0, 0xFFF000#32), (rSpHwinAttr 0, 3#32)] []
    4 ≤ (hpS .run [] (List.replicate 4 (hq none))).ports.hostQ.length ∧ (State.reset.mode = .boot ∧ State.reset.phase = 0) ∧ s.ports.hostQ = [] ∧
    s.mode ≠ .halted ∧ (s.rbit rBcMode 8 = true ∧ s.shGroup 0 = false) ∧ ¬ (run0.rbit rBcMode 8 = true ∧ run0.shGroup 0 = false) ∧
    (hpS .boot [] []).mode = .boot ∧ ¬ ((hpS .boot [] []).mode = .boot ∧ (hpS .boot [] []).phase = 0) ∧ s.mode ≠ .boot ∧ s.sec.zero ≠ .drained ∧
    0x700000 ≤ (0x700000#24).toNat ∧ (0x3FFFFC#24).toNat < s.spLimit ∧ (0x3FFFFF#24).toNat < s.spLimit ∧ (0x3FFFFF#24).toNat % 2 ^ 2 ≠ 0 ∧
    (0x3FFFFC#24).toNat % 2 ^ 2 = 0 ∧ s.windowAdmits (0x3FFFFC#24).toNat true true true = true ∧
    (hpS .run [] []).windowAdmits (0x3FFFFC#24).toNat true true true = false := by decide +kernel
theorem witness_HostResponses :
    let s (l : List (Nat × Word)) (c : Nat) := hpS .run l [hq (some (c, 0#32)), hq (some (0, 1#32))]
    (s [] 7).ports.hostQ = hq (some (7, 0#32)) :: [hq (some (0, 1#32))] ∧ (hq (some (7, 0#32))).ans = some (7, 0#32) ∧
    (∀ q ∈ [hq (some (0, 1#32))], q.ans.isSome = true) ∧ (s [] 7).rbit rXpHpErr 31 = false ∧
    (s [(rXpHpErr, 0x80000000#32)] 7).rbit rXpHpErr 31 = true ∧ (hpS .run [] []).ports.hostQ = [] ∧
    ({ run0 with pairLatch := some (rBtCtHi, 1#32) } : State).pairLatch = some (rBtCtHi, 1#32) ∧ rBtCtHi ≠ rBtCntHi := by decide +kernel
/-- A debug-challenge check under way. -/
def cpS (cur : Option CpReq) (wait : List CpReq) (again : Bool) : State :=
  { run0 with ports := { cpCur := cur, cpWait := wait, cpAgain := again }, sec := { unlockCtl := some 1#32 } }
/-- See `cpS`. -/
def cpDebug : CpReq := { user := .debug, op := opCheck, slot := 0 }
theorem witness_CipherPort :
    (cpS none [cpDebug, { cpDebug with user := .image }] false).ports.cpCur = none ∧
    (cpS none [cpDebug, { cpDebug with user := .image }] false).ports.cpWait = cpDebug :: [{ cpDebug with user := .image }] ∧
    run0.shGroup 1 = false ∧ (cpS (some cpDebug) [] false).ports.cpCur = some cpDebug ∧ cpDebug.user = .debug ∧
    (cpS (some cpDebug) [] false).sec.unlockCtl = some 1#32 ∧ (cpS (some cpDebug) [] false).ports.cpDiscard = false ∧
    (cpS (some cpDebug) [] false).ports.cpAgain = false ∧ (cpS (some cpDebug) [] true).ports.cpAgain = true ∧
    (cpS (some { cpDebug with user := .gone }) [] true).ports.cpCur = some { cpDebug with user := .gone } ∧
    ((7 : Fin 8) : Nat) ≠ 0 ∧ ((7 : Fin 8) : Nat) ≠ 2 ∧ ((7 : Fin 8) : Nat) ≠ 3 := by decide +kernel
theorem witness_RandomPort :
    let s (s0 : State) (u : TrUser) (want : Nat) (got : List Word) : State := { s0 with ports := { tr := [{ user := u, want := want, got := got }] } }
    let p1 : State := { State.reset with phase := 1 }
    (s run0 .nonce 2 []).mode ≠ .halted ∧ (s run0 .nonce 2 []).ports.tr = { user := .nonce, want := 2, got := [] } :: [] ∧
    (s run0 .debug 2 [1#32]).ports.tr = { user := .debug, want := 2, got := [1#32] } :: [] ∧
    (s run0 .recNonce 2 [1#32]).ports.tr = { user := .recNonce, want := 2, got := [1#32] } :: [] ∧
    (s run0 .zero 4 [1#32, 2#32, 3#32]).ports.tr = { user := .zero, want := 4, got := [1#32, 2#32, 3#32] } :: [] ∧
    (s p1 .key 4 [1#32, 2#32, 3#32]).mode = .boot ∧ (s p1 .key 4 [1#32, 2#32, 3#32]).phase = 1 ∧ run0.ports.tr = [] ∧
    (s p1 .key 4 []).ports.tr ≠ [] ∧ (s run0 .nonce 2 []).mode = .run := by decide +kernel
theorem witness_StepAndTick :
    let s := tmS 63 [(rTmCtl 63, 0x00010001#32)] id
    ({ run0 with pending := [.warmReset] } : State).pending = .warmReset :: [] ∧ s.pending = [] ∧
    ({ s with bt := { on := true } } : State).bt.on = true ∧ s.bt.on = false ∧ s.tmrs.map Prod.fst = [63] ∧ s.tmRuns 63 = true ∧
    s.tmLinked 63 = false ∧ s.rbit (rTmCtl 63) 1 = false ∧ (s.tmr 63).p ≠ s.rfld (rTmCtl 63) 16 16 ∧
    ((s.modTmr 63 (fun t => { t with p := 1 })).tmr 63).p = s.rfld (rTmCtl 63) 16 16 ∧ State.reset.mode ≠ .halted ∧ lk2S.mode = .halted := by
  decide +kernel
theorem witness_Canonical : State.reset.canon ∧ run0.canon ∧ (bufS.setByte 4 1#8).canon := by unfold State.canon; decide +kernel
/-- An OTP command in the middle of its steps. -/
def burning : OtpOp := { ctl := 0x2A17C#32, check := false, steps := [(0x122, 1#32)], all := [(0x120, 1#32), (0x122, 1#32)] }
theorem witness_ResetCutsABurn :
    let s : State := { run0 with boot := { otp := some burning } }
    s.boot.otp = some burning ∧ burning.steps = (0x122, 1#32) :: [] ∧ run0.boot.otp = none ∧ s.burnCut.draws = s.draws + 1 := by decide

/-! ### States that meet the further hypotheses: services, links, resets, debug, freezes, ports -/

theorem witness_ServiceWorkspace : (svR 1 []).type ≠ 2 ∧ (svR 1 []).type ≠ 3 ∧ (svSize 1).isSome = true ∧ (svR 1 []).ws % 16 = 0 ∧
    (svS (svR 1 []) [] {} [(rSvStat 63, 1#32)]).sp.under = none := by decide +kernel
theorem witness_DnpTimers :
    let s (d : Dnp) := dnS 0#8 d []
    (s {}).sp.under = none ∧ ((s { ctlTag := some 255, req := some (15, true) }).dnp 63).ctlTag = some 255 ∧
    ((s { dlTries := some 3 }).dnp 63).dlTries = some 3 ∧ (s { dlTries := some 3 }).svOn 63 3 = some (dnR 0#8) := by decide +kernel
theorem witness_LinkCreditReturn :
    let s := ltS { lk0 with wait := [ent 4 0] } { half 0 false [] with owedM := 8, owedW := 1 }
    epKind (s.chan 8).sendEp = 4 ∧ 0 < (s.chan 8).owedM ∧ s.routeTo (s.epNode (s.chan 8).sendEp) = some 3 ∧ (s.lk 3).wait = [ent 4 0] ∧
    (ent 4 0).src = 4 ∧ (ent 4 0).f.dst = s.epNode (s.chan 8).sendEp ∧ (ent 4 0).f.credit = none := by decide +kernel
theorem witness_LinkSendings :
    let s := ltS lk0 (half 0 true [msg [w9]])
    (s.chan 8).msgs.any (fun m => !m.sent) = true ∧ s.epNode (s.chan 8).recvEp ≠ 0xFFFFFFFF#32 ∧ s.routeTo (s.epNode (s.chan 8).recvEp) = some 3 ∧
    1 ≤ lk0.peerRwin ∧ lk0.peerAck = lk0.seq ∧ (lfS (half 0 true [])).lkAdmits 8 (epWord 4 77 0) 9#32 false = true ∧
    ((lfS (half 0 true [])).chan 8).recvEp = epWord 4 77 0 := by decide +kernel
theorem witness_Power : ({ run0 with power := false } : State).power = false ∧ run0.power = true := by decide
theorem witness_Hours :
    let s (h : Nat) : State := { run0 with aon := { secs := 3599, hours := h } }
    3599 ≤ (s 5).aon.secs ∧ (s 5).aon.hours < 2 ^ 24 - 1 ∧ 2 ^ 24 - 1 ≤ (s (2 ^ 24 - 1)).aon.hours := by decide
theorem witness_OtpFrozen :
    let s : State := { recS 0 { otp := some { ctl := 0x30000#32, check := false, steps := [(5, 1#32)], all := [(5, 1#32)] } } with mode := .halted }
    s.mode = .halted ∧ s.boot.otp = some { ctl := 0x30000#32, check := false, steps := [(5, 1#32)], all := [(5, 1#32)] } ∧
    ({ ctl := 0x30000#32, check := false, steps := [(5, 1#32)], all := [(5, 1#32)] } : OtpOp).stepped = false := by decide +kernel
/-- A shift engine out of reset, assigned to stand 0, whose clock stands still. -/
def stoppedS : State := (dbS .run [(rSeGrp 31, 0x100000#32)] id).modSe 31 (fun e => { e with stopped := true })
theorem witness_DebugWaits : stoppedS.dbgOpen = true ∧ stoppedS.dbg.accPend = none ∧ stoppedS.mode = .run ∧ stoppedS.frzTrig = [] ∧
    stoppedS.regWaits 0x637C00 = true ∧ ({ stoppedS with dbg := { accPend := some (true, 0#24, 0#32) } } : State).dbg.accPend.isSome = true := by
  decide +kernel
theorem witness_ClockStarts : State.reset.mode ≠ .halted ∧ State.reset.dbg.accPend = none ∧ State.reset.ports.hostQ = [] ∧
    ∀ k, (State.reset.thr k).held = [] ∧ (State.reset.thr k).defer = [] := ⟨by decide, rfl, rfl, fun _ => ⟨rfl, rfl⟩⟩
theorem witness_FreezeCopy : ({ run0 with mode := .halted } : State).sp.copy = none ∧ (wr run0 [(rDbgFrzStat, 1#32)]).rfld rDbgFrzStat 0 2 = 1 := by
  decide +kernel
theorem witness_PairReads :
    let s (a : Nat) : State := { run0 with pairLatch := some (a, 1#32) }
    (s rBtCntHi).pairLatch = some (rBtCntHi, 1#32) ∧ (s rBtCtHi).pairLatch = some (rBtCtHi, 1#32) ∧ rBtCtHi ≠ rBtCntHi := by decide
theorem witness_RandomHealth :
    let s (h : Bool) : State := { run0 with ports := { health := h, tr := [{ user := .nonce, want := 2, got := [] }] } }
    (s true).ports.health = true ∧ (s false).ports.health = false ∧ (s true).ports.tr = [{ user := .nonce, want := 2, got := [] }] ∧
    0 + 1 < 2 := by decide
theorem witness_AlarmClear : (Master.debugger = .debugger ∨ run0.mode ≠ .halted) ∧ (1#32 : Word) ≠ 0#32 ∧
    ({ run0 with sec := { zero := .cleared } } : State).sec.zero = .cleared := by decide
theorem witness_PulseMerge :
    let s : State := { wr run0 [(rEvCfg 255, 0x00100801#32)] with fires := [(255, 271), (255, 3), (255, 271)] }
    (255, 3) ∈ s.fires ∧ s.routeRec 255 = true := by decide
theorem witness_UnitsOfAWaitingTimer :
    let s := (tmS 63 [(rTmCtl 63, 1#32), (rTmCnt 63, 7#32), (rTmCmp 63, 7#32)] id).modThr 0 (fun h => { h with stall := .waitt 63 3 })
    (s.thr 0).stall = .waitt 63 3 ∧ s.tmRuns 63 = true := by decide
end Tests
end Sys2Proof
end

section
/-! What completes a command; the registers that an operation leaves alone; folds that keep a part of the state. -/
namespace Sys2Proof
namespace Machine

/-! ### Commands of gated domains -/

/-- A command of a gated domain acts while the block is not HALTED (R530). -/
theorem answers_of_gated {c : Instr} {s t : State} {P : State → Prop} (hm : s.mode ≠ .halted) (hc : exec c s = .next (s.gated t))
    (ht : P t) : answers c s P :=
  ⟨t, by rw [hc, State.gated_running s t hm], ht⟩

/-! ### Registers left alone -/

theorem State.reg_eq_of_regs_eq {s t : State} (h : t.regs = s.regs) (a : Nat) : t.reg a = s.reg a := by simp only [State.reg, h]
theorem sameRegs_of_regs_eq {s t : State} (p : Nat → Prop) (h : t.regs = s.regs) : sameRegs s t p :=
  fun a _ => State.reg_eq_of_regs_eq h a
theorem sameRegs_setReg (s : State) (a : Nat) (v : Word) : sameRegs s (s.setReg a v) (fun k => k = a) := fun k hk => by
  rw [State.reg_setReg, if_neg hk]
theorem sameRegs.trans {s t u : State} {p q : Nat → Prop} (h : sameRegs s t p) (k : sameRegs t u q) :
    sameRegs s u (fun a => p a ∨ q a) := fun a ha => by
  rw [k a (fun hq => ha (.inr hq)), h a (fun hp => ha (.inl hp))]

/-! ### Folds over numbers -/

/-- A fold whose every step keeps a part of the state keeps it. -/
theorem State.each_keeps {β : Type} (g : State → β) (l : List Nat) (f : State → Nat → State) (hf : ∀ s n, g (f s n) = g s) :
    ∀ s : State, g (s.each l f) = g s := by
  induction l with
  | nil => intro s; rfl
  | cons n l ih => intro s; exact (ih (f s n)).trans (hf s n)

end Machine
end Sys2Proof
end

section
/-! What the state after a cold reset reads as (R14): the register at an address reads as `regReset`, so each kind of register needs its
value there, whatever its number. -/
namespace Sys2Proof
namespace Machine

@[simp] theorem State.reg_reset (a : Nat) : State.reset.reg a = regReset a := rfl
@[simp] theorem State.rg_thr_reset (t r : Nat) : (State.reset.thr t).rg r = 0#32 := ite_self _
theorem State.reset_canon : State.reset.canon := ⟨rfl, rfl⟩

/-! ### Runs of equal-stride registers -/

/-- Register `k` of a run lies in it. -/
theorem inRun_member {a base stride n k : Nat} (ha : a = base + k * stride) (hs : 0 < stride) (hk : k < n) :
    inRun a base stride n = true := by
  simp [inRun, ha, Nat.mul_div_cancel _ hs, hk]
/-- An address between the registers of a run lies outside it. -/
theorem inRun_between {a base stride n : Nat} (ha : (a - base) % stride ≠ 0) : inRun a base stride n = false := by
  simp [inRun, ha]

/-! ### Reset values by register -/

theorem regReset_rStcStat {n : Nat} (hn : n < 16) : regReset (rStcStat n) = 5#32 := by
  have hrun : inRun (rStcStat n) (rStcStat 0) 0x80 16 = true :=
    inRun_member (k := n) (by simp only [rStcStat, rStc]; omega) (by decide) hn
  have hlt : rStcStat n < 0x610000 := by simp only [rStcStat, rStc]; omega
  have hne : rStcStat n ≠ rBcId ∧ rStcStat n ≠ rBcCap := by simp only [rStcStat, rStc, rBcId, rBcCap]; omega
  simp [regReset, hrun, hlt, hne]
theorem regReset_rECfg {e : Nat} (he : e < 8) : regReset (rECfg e) = 0x00400009#32 := by
  have hrun : inRun (rECfg e) (rECfg 0) 0x1000 8 = true :=
    inRun_member (k := e) (by simp only [rECfg, rE]; omega) (by decide) he
  have hlt : ¬ rECfg e < 0x610000 ∧ rECfg e < 0x640000 := by simp only [rECfg, rE]; omega
  simp [regReset, hrun, hlt]
theorem regReset_rSeClk {n : Nat} (hn : n < 32) : regReset (rSeClk n) = 256#32 := by
  have hrun : inRun (rSeClk n) (rSeClk 0) 0x400 32 = true :=
    inRun_member (k := n) (by simp only [rSeClk, rSe]; omega) (by decide) hn
  have hcfg : inRun (rSeClk n) (rECfg 0) 0x1000 8 = false := inRun_between (by simp only [rSeClk, rSe, rECfg, rE]; omega)
  have hlt : ¬ rSeClk n < 0x610000 ∧ rSeClk n < 0x640000 := by simp only [rSeClk, rSe]; omega
  simp [regReset, hrun, hcfg, hlt]
theorem regReset_rSeThr {n : Nat} (hn : n < 32) : regReset (rSeThr n) = 0x00082020#32 := by
  have hrun : inRun (rSeThr n) (rSeThr 0) 0x400 32 = true :=
    inRun_member (k := n) (by simp only [rSeThr, rSe]; omega) (by decide) hn
  have hcfg : inRun (rSeThr n) (rECfg 0) 0x1000 8 = false := inRun_between (by simp only [rSeThr, rSe, rECfg, rE]; omega)
  have hclk : inRun (rSeThr n) (rSeClk 0) 0x400 32 = false := inRun_between (by simp only [rSeThr, rSe, rSeClk]; omega)
  have hlt : ¬ rSeThr n < 0x610000 ∧ rSeThr n < 0x640000 := by simp only [rSeThr, rSe]; omega
  simp [regReset, hrun, hcfg, hclk, hlt]
theorem regReset_rPgPinStat {n : Nat} (hn : n < 192) : regReset (rPgPinStat n) = 8#32 := by
  have hrun : inRun (rPgPinStat n) (rPgPinStat 0) 8 192 = true :=
    inRun_member (k := n) (by simp only [rPgPinStat]; omega) (by decide) hn
  have hlt : ¬ rPgPinStat n < 0x610000 ∧ ¬ rPgPinStat n < 0x640000 ∧ ¬ rPgPinStat n < 0x670000 ∧ rPgPinStat n < 0x690000 := by
    simp only [rPgPinStat]; omega
  simp [regReset, hrun, hlt]
theorem regReset_rLkCtl {n : Nat} (hn : n < 4) : regReset (rLkCtl n) = 0x03E80200#32 := by
  have hrun : inRun (rLkCtl n) (rLkCtl 0) 0x400 4 = true :=
    inRun_member (k := n) (by simp only [rLkCtl, rLk]; omega) (by decide) hn
  have hpin : inRun (rLkCtl n) (rPgPinStat 0) 8 192 = false := inRun_between (by simp only [rLkCtl, rLk, rPgPinStat]; omega)
  have hstat : rLkCtl n ≠ rPgStat := by simp only [rLkCtl, rLk, rPgStat]; omega
  have hlt : ¬ rLkCtl n < 0x610000 ∧ ¬ rLkCtl n < 0x640000 ∧ ¬ rLkCtl n < 0x670000 ∧ rLkCtl n < 0x690000 := by
    simp only [rLkCtl, rLk]; omega
  simp [regReset, hrun, hpin, hstat, hlt]
/-- The registers of the debug unit below DBG_FRZCFG reset to 0. -/
theorem regReset_debug {a : Nat} (hlo : 0x6B0000 ≤ a) (hhi : a < 0x6B0200) : regReset a = 0#32 := by
  have hne : a ≠ rErCfg ∧ a ≠ rErCmStat ∧ a ≠ rSecAlStat ∧ a ≠ rDbgFrzCfg ∧ a ≠ rDbgFrLen := by
    simp only [rErCfg, rErCmStat, rSecAlStat, rDbgFrzCfg, rDbgFrLen, rEr, rSec, rDbg]; omega
  have hlt : ¬ a < 0x610000 ∧ ¬ a < 0x640000 ∧ ¬ a < 0x670000 ∧ ¬ a < 0x690000 ∧ a < 0x6C0000 := by omega
  simp [regReset, hne, hlt]

/-! ### The reset state -/

theorem State.standState_reset {n : Nat} (hn : n < 16) : State.reset.standState n = 5 := by
  simp [State.standState, State.rfld, regReset_rStcStat hn, fld]
/-- SEC_ALSTAT resets with the eight bits from 16 on set. -/
theorem State.rbit_reset_rSecAlStat {k : Nat} (hk : k < 8) : State.reset.rbit rSecAlStat (16 + k) = true := by
  have h : regReset rSecAlStat = 0x00FF0000#32 := rfl
  have hall : ∀ k < 8, (0x00FF0000#32).getLsbD (16 + k) = true := by decide
  simpa [State.rbit, h] using hall k hk

/-- Settles O59: the reset state is the empty one, so every register reads as `regReset`. -/
theorem resetHoldsTheSpecsValues : Obligations.ResetHoldsTheSpecsValues := by
  unfold Obligations.ResetHoldsTheSpecsValues
  refine ⟨rfl, rfl, rfl, rfl, State.reset_canon, rfl, rfl, rfl, rfl, rfl, rfl, rfl, rfl, rfl, rfl, rfl, rfl, rfl, rfl, rfl,
    ?stands, ?engines, ?shiftEngines, ?pins, ?links, ?alarms, ?threads, ?debug⟩
  case stands => exact fun n hn => State.standState_reset hn
  case engines => exact fun e he => regReset_rECfg he
  case shiftEngines => exact fun n hn => ⟨regReset_rSeClk hn, regReset_rSeThr hn⟩
  case pins => intro n hn; simp [regReset_rPgPinStat hn]
  case links => exact fun n hn => regReset_rLkCtl hn
  case alarms => exact fun k hk => State.rbit_reset_rSecAlStat hk
  case threads => exact State.rg_thr_reset
  case debug => exact fun a => regReset_debug

end Machine
end Sys2Proof
end

section
/-! What the operations of timers do to registers and timers (R310–R325). -/
namespace Sys2Proof
namespace Machine

/-! ### Timers read after writes -/

@[simp] theorem State.tmr_modTmr (s : State) (n k : Nat) (f : Tmr → Tmr) :
    (s.modTmr n f).tmr k = if k = n then f (s.tmr n) else s.tmr k := by simp [State.tmr, State.modTmr, Bank.get_put]
@[simp] theorem State.reg_modTmr (s : State) (n a : Nat) (f : Tmr → Tmr) : (s.modTmr n f).reg a = s.reg a := rfl
@[simp] theorem State.modTmr_regs (s : State) (n : Nat) (f : Tmr → Tmr) : (s.modTmr n f).regs = s.regs := rfl
@[simp] theorem State.modTmr_fires (s : State) (n : Nat) (f : Tmr → Tmr) : (s.modTmr n f).fires = s.fires := rfl
@[simp] theorem State.tmr_setReg (s : State) (a k : Nat) (v : Word) : (s.setReg a v).tmr k = s.tmr k := rfl
@[simp] theorem State.tmr_rset (s : State) (a b k : Nat) : (s.rset a b).tmr k = s.tmr k := rfl
@[simp] theorem State.tmr_rput (s : State) (a b k : Nat) (x : Bool) : (s.rput a b x).tmr k = s.tmr k := rfl

/-! ### Addresses of timer registers -/

/-- The registers of the timers lie apart: timer and kind can be read off an address. -/
theorem rTmCap_inj {n m : Nat} : rTmCap n = rTmCap m ↔ n = m := by simp only [rTmCap, rTm]; omega
theorem rTmCap_ne_rTmStat (n m : Nat) : rTmCap n ≠ rTmStat m := by simp only [rTmCap, rTmStat, rTm]; omega
theorem rTmCmp_ne_rTmStat (n m : Nat) : rTmCmp n ≠ rTmStat m := by simp only [rTmCmp, rTmStat, rTm]; omega
theorem rTmCtl_ne_rTmStat (n m : Nat) : rTmCtl n ≠ rTmStat m := by simp only [rTmCtl, rTmStat, rTm]; omega
theorem rTmCnt_ne_rTmStat (n m : Nat) : rTmCnt n ≠ rTmStat m := by simp only [rTmCnt, rTmStat, rTm]; omega
theorem rTmCnt_ne_rTmCtl (n m : Nat) : rTmCnt n ≠ rTmCtl m := by simp only [rTmCnt, rTmCtl, rTm]; omega
theorem rTmCmp_ne_rTmCtl (n m : Nat) : rTmCmp n ≠ rTmCtl m := by simp only [rTmCmp, rTmCtl, rTm]; omega
/-- A compare register is no stand's status: the two differ in their lowest 7 bits. -/
theorem rTmCmp_ne_rStcStat (n m : Nat) : rTmCmp n ≠ rStcStat m := by simp only [rTmCmp, rTm, rStcStat, rStc]; omega
theorem rTmCmp_ne_rDbgShalt (n : Fin 64) : rTmCmp n ≠ rDbgShalt := by simp only [rTmCmp, rTm, rDbgShalt, rDbg]; omega

/-! ### Values of one word or of a pair -/

theorem State.tmVal_unlinked {s : State} {n : Nat} (h : s.tmLinked n = false) (reg : Nat → Nat) :
    s.tmVal n reg = (s.reg (reg n)).toNat := by simp [State.tmVal, h]
theorem State.tmSet_unlinked {s : State} {n : Nat} (h : s.tmLinked n = false) (reg : Nat → Nat) (v : Nat) :
    s.tmSet n reg v = s.setReg (reg n) (BitVec.ofNat 32 v) := by simp [State.tmSet, h]
/-- Values whose low words differ differ, linked or not. -/
theorem State.tmVal_ne {s : State} {n : Nat} {r q : Nat → Nat} (h : s.reg (r n) ≠ s.reg (q n)) : s.tmVal n r ≠ s.tmVal n q := by
  have hne : (s.reg (r n)).toNat ≠ (s.reg (q n)).toNat := fun e => h (BitVec.eq_of_toNat_eq e)
  have hr := (s.reg (r n)).isLt
  have hq := (s.reg (q n)).isLt
  unfold State.tmVal
  split <;> omega

/-! ### The comparator -/

@[simp] theorem State.tmRelease_regs (s : State) (n : Nat) (v : Word) : (s.tmRelease n v).regs = s.regs := by
  unfold State.tmRelease
  exact State.each_keeps (·.regs) _ _ (by exact fun _ _ => rfl) s
@[simp] theorem State.tmRelease_tmrs (s : State) (n : Nat) (v : Word) : (s.tmRelease n v).tmrs = s.tmrs := by
  unfold State.tmRelease
  exact State.each_keeps (·.tmrs) _ _ (by exact fun _ _ => rfl) s
/-- Of the registers a match changes the timer's status alone. -/
@[simp] theorem State.reg_tmFire (s : State) (n a : Nat) : (s.tmFire n).reg a = (s.rset (rTmStat n) 0).reg a :=
  State.reg_eq_of_regs_eq (by simp only [State.tmFire, State.tmRelease_regs]; rfl) a
/-- Of a timer a match changes the armed state of its compare input alone. -/
theorem State.tmFire_p (s : State) (n k : Nat) : ((s.tmFire n).tmr k).p = (s.tmr k).p := by
  have h : (s.tmFire n).tmrs = (s.modTmr n (fun t => { t with armed := true })).tmrs := by
    simp only [State.tmFire, State.tmRelease_tmrs]; rfl
  have hk : (s.tmFire n).tmr k = (s.modTmr n (fun t => { t with armed := true })).tmr k := by simp only [State.tmr, h]
  rw [hk, State.tmr_modTmr]
  split <;> simp_all

/-- The comparator acts only on a count that has come to meet CMP (R313). -/
theorem State.tmEval_quiet {s : State} {n : Nat} (h : s.reg (rTmCnt n) ≠ s.reg (rTmCmp n) ∨ (s.tmr n).lastE = true) :
    (s.tmEval n).regs = s.regs ∧ (s.tmEval n).fires = s.fires := by
  have hquiet : (decide (s.tmVal n rTmCnt = s.tmVal n rTmCmp) && !(s.tmr n).lastE) = false := by
    rcases h with h | h
    · simp [State.tmVal_ne h]
    · simp [h]
  simp [State.tmEval, hquiet]
theorem State.tmEval_sameRegs (s : State) (n : Nat) : sameRegs s (s.tmEval n) (fun a => a = rTmStat n) := by
  unfold State.tmEval
  dsimp only
  split
  · intro a ha
    rw [State.reg_tmFire, State.reg_rset, if_neg ha, State.reg_modTmr]
  · exact sameRegs_of_regs_eq _ rfl
theorem State.tmEval_p (s : State) (n k : Nat) : ((s.tmEval n).tmr k).p = (s.tmr k).p := by
  unfold State.tmEval
  dsimp only
  split
  · rw [State.tmFire_p, State.tmr_modTmr]; split <;> simp_all
  · rw [State.tmr_modTmr]; split <;> simp_all

theorem State.tmWake_sameRegs (s : State) (n : Nat) : sameRegs s (s.tmWake n) (fun a => a = rTmStat n) := by
  unfold State.tmWake; split
  · exact s.tmEval_sameRegs n
  · exact sameRegs_of_regs_eq _ rfl
theorem State.tmWake_p (s : State) (n k : Nat) : ((s.tmWake n).tmr k).p = (s.tmr k).p := by
  unfold State.tmWake; split
  · exact s.tmEval_p n k
  · rfl
theorem State.tmWake_stopped {s : State} {n : Nat} (h : s.tmRuns n = false) : s.tmWake n = s := by simp [State.tmWake, h]
/-- A timer runs in RUN alone, and with EN = 1 alone (R312). -/
theorem State.tmRuns_only {s : State} {n : Nat} (h : s.mode ≠ .run ∨ s.rbit (rTmCtl n) 0 = false) : s.tmRuns n = false := by
  rcases h with h | h <;> simp [State.tmRuns, h]
/-- A timer that may not run, or whose count has not come to meet CMP, fires nothing. -/
theorem State.tmWake_quiet {s : State} {n : Nat} (h : s.mode ≠ .run ∨ s.reg (rTmCnt n) ≠ s.reg (rTmCmp n) ∨
    (s.tmr n).lastE = true ∨ s.rbit (rTmCtl n) 0 = false) : (s.tmWake n).regs = s.regs ∧ (s.tmWake n).fires = s.fires := by
  by_cases hr : s.tmRuns n = true
  · have hq : s.reg (rTmCnt n) ≠ s.reg (rTmCmp n) ∨ (s.tmr n).lastE = true := by
      rcases h with h | h | h | h
      · simp [State.tmRuns_only (.inl h)] at hr
      · exact .inl h
      · exact .inr h
      · simp [State.tmRuns_only (.inr h)] at hr
    simpa [State.tmWake, hr] using State.tmEval_quiet hq
  · simp [State.tmWake, hr]

/-! ### Writes of CMP and CTL -/

/-- The compare register has no part in whether a timer runs (R312). -/
theorem State.tmRuns_setReg_rTmCmp (s : State) (n : Fin 64) (v : Word) : (s.setReg (rTmCmp n) v).tmRuns n = s.tmRuns n := by
  have hbit (a k : Nat) (ha : a ≠ rTmCmp n) : (s.setReg (rTmCmp n) v).rbit a k = s.rbit a k := by simp [State.rbit, ha]
  have hctl (m k : Nat) := hbit (rTmCtl m) k (rTmCmp_ne_rTmCtl n m).symm
  have hhalt (k : Nat) := hbit rDbgShalt k (rTmCmp_ne_rDbgShalt n).symm
  have hstand (m : Nat) : (s.setReg (rTmCmp n) v).standState m = s.standState m := by
    simp [State.standState, State.rfld, (rTmCmp_ne_rStcStat n m).symm]
  simp only [State.tmRuns, State.tmOdd, State.tmDfrz, State.setReg_mode, State.tmr_setReg, hctl, hhalt, hstand]
  rfl
/-- A write of CMP loads it, and beside it changes the timer's status at most. -/
theorem State.tmWriteCmp_running {s : State} {n : Nat} (v : Word) (hrec : (s.tmr n).hasRec = true) (hodd : s.tmOdd n = false) :
    s.tmWriteCmp n v = (s.setReg (rTmCmp n) v).tmWake n := by simp [State.tmWriteCmp, hrec, hodd]

/-- The word that a write leaves in TMn_CTL: the bits of `keep` written, LINK 0 in an odd timer (R312). -/
def ctlWritten (n : Nat) (old v keep : Word) : Word :=
  let w := (old &&& ~~~ keep) ||| (v &&& keep)
  if n % 2 = 1 then w &&& ~~~ 4#32 else w
theorem State.tmWriteCtl_eq {s : State} {n : Nat} (v : Word) (rwl : Bool) (hrec : (s.tmr n).hasRec = true) :
    s.tmWriteCtl n v rwl =
      (s.setReg (rTmCtl n) (ctlWritten n (s.reg (rTmCtl n)) v (if rwl then 0xFFFF000F#32 else 9#32))).tmWake n := by
  simp only [State.tmWriteCtl, hrec, if_true]; rfl
/-- Every write of CTL reaches EN. -/
theorem ctlWritten_en (n : Nat) (old v keep : Word) (hk : keep.getLsbD 0 = true) : (ctlWritten n old v keep).getLsbD 0 = v.getLsbD 0 := by
  have h4 : (4#32).getLsbD 0 = false := by decide
  unfold ctlWritten
  dsimp only
  split <;> simp_all
/-- The fields of access type RWL take writes in every mode but RUN, while the block is not HALTED (R12). -/
theorem State.rwlOpen_eq {s : State} (hm : s.mode ≠ .halted) : s.rwlOpen = !decide (s.mode = .run) := by
  unfold State.rwlOpen
  cases h : s.mode <;> simp_all

/-! ### Reads of CAP -/

theorem find?_rTmCap (n : Fin 64) : (List.range 64).find? (fun k => decide (rTmCap n = rTmCap k)) = some n.val := by
  rw [List.find?_range_eq_some]
  refine ⟨by simp, by simp, fun j hj => ?_⟩
  simp [rTmCap_inj]; omega
/-- CAP is neither a block-time register nor a status: a read gives the stored word. -/
theorem State.tmRead_rTmCap (s : State) (n : Nat) : s.tmRead (rTmCap n) = s.reg (rTmCap n) := by
  have hbt : rTmCap n ≠ rBtCntLo ∧ rTmCap n ≠ rBtCntHi ∧ rTmCap n ≠ rBtCtLo ∧ rTmCap n ≠ rBtCtHi ∧ rTmCap n ≠ rBtOfsLo ∧
      rTmCap n ≠ rBtOfsHi ∧ rTmCap n ≠ rBtStat := by
    simp only [rTmCap, rTm, rBtCntLo, rBtCntHi, rBtCtLo, rBtCtHi, rBtOfsLo, rBtOfsHi, rBtStat, rBt]; omega
  have hstat : (List.range 64).find? (fun k => decide (rTmCap n = rTmStat k)) = none := by simp [rTmCap_ne_rTmStat]
  simp only [State.tmRead, hbt, hstat, if_false]
theorem State.capReadAt_rTmCap (s : State) (n : Fin 64) (m : Master) (wide : Bool) :
    s.capReadAt (rTmCap n) m wide = s.tmReadCap n m wide := by simp only [State.capReadAt, find?_rTmCap]
/-- A narrow read of CAP by a thread, the host or a link clears CAPF. -/
theorem State.tmReadCap_narrow {s : State} {n : Nat} {m : Master} (hm : m ≠ .debugger) (hodd : s.tmOdd n = false) :
    s.tmReadCap n m false = s.rclr (rTmStat n) 1 := by
  cases m <;> simp_all [State.tmReadCap]

/-- The capture registers of an even timer and the odd one above it are taken as a pair (R323, notes/assumptions/60.md). -/
theorem pairHigh_rTmCap : ∀ n : Fin 64, n.val % 2 = 0 → pairHigh (rTmCap n) = some (rTmCap (n + 1)) := by decide
theorem isPairHigh_rTmCap {n : Fin 64} (h : n.val % 2 = 1) : isPairHigh (rTmCap n) = true := by
  have hp : n.val = 2 * (n.val / 2) + 1 := by omega
  have hany : (List.range 32).any (fun p => decide (rTmCap n = rTmCnt (2 * p + 1)) || decide (rTmCap n = rTmCap (2 * p + 1))) = true :=
    List.any_eq_true.2 ⟨n.val / 2, by simp; omega, by simp [← hp]⟩
  simp [isPairHigh, hany]

/-- A host read of an even timer's CAP loads the pair latch with the odd timer's (R324, notes/assumptions/60.md). -/
theorem State.hostPairLow_rTmCap {s : State} {n : Fin 64} (heven : n.val % 2 = 0) (hodd : s.tmOdd n = false) :
    s.hostPairLow (rTmCap n) = { s.rclr (rTmStat n) 1 with
      rdata := s.reg (rTmCap n), pairLatch := some (rTmCap (n + 1), s.reg (rTmCap (n + 1))) } := by
  simp only [State.hostPairLow, pairHigh_rTmCap n heven, State.capReadAt_rTmCap, State.tmRead_rTmCap,
    State.tmReadCap_narrow (m := .host true true) (by simp) hodd]
/-- A host read of an odd timer's CAP with no latch of it is a live read (R324). -/
theorem State.hostPairHigh_rTmCap_live {s : State} {n : Fin 64} (hn : n.val % 2 = 1) (hodd : s.tmOdd n = false)
    (hl : ∀ u, s.pairLatch ≠ some (rTmCap n, u)) :
    s.hostPairHigh (rTmCap n) = { s.rclr (rTmStat n) 1 with rdata := s.reg (rTmCap n) } := by
  have hlive : { s.capReadAt (rTmCap n) (.host true true) false with rdata := s.tmRead (rTmCap n) } =
      { s.rclr (rTmStat n) 1 with rdata := s.reg (rTmCap n) } := by
    rw [State.capReadAt_rTmCap, State.tmRead_rTmCap, State.tmReadCap_narrow (by simp) hodd]
  rw [← hlive, State.hostPairHigh, if_pos (isPairHigh_rTmCap hn)]
  split
  next a u h =>
    have ha : a ≠ rTmCap n := fun e => hl u (by rw [h, e])
    rw [if_neg ha]
  next => rfl
/-- A host read of an odd timer's CAP whose latch is loaded answers the latch and clears its tag (R324). -/
theorem State.hostPairHigh_rTmCap_latched {s : State} {n : Fin 64} {u : Word} (hn : n.val % 2 = 1)
    (hl : s.pairLatch = some (rTmCap n, u)) :
    (s.hostPairHigh (rTmCap n)).rdata = u ∧ (s.hostPairHigh (rTmCap n)).pairLatch = none := by
  simp [State.hostPairHigh, isPairHigh_rTmCap hn, hl]

/-- A read of TMn_CAP gave its word and cleared CAPF, and no other register changed. -/
def capTaken (s : State) (n : Nat) (t : State) : Prop :=
  t.rdata = s.reg (rTmCap n) ∧ t.reg (rTmStat n) = s.reg (rTmStat n) &&& ~~~ 2#32 ∧ sameRegs s t (fun a => a = rTmStat n)
theorem capTaken_of_regs {s t : State} {n : Nat} (hd : t.rdata = s.reg (rTmCap n)) (hr : t.regs = (s.rclr (rTmStat n) 1).regs) :
    capTaken s n t := by
  have hreg := State.reg_eq_of_regs_eq hr
  refine ⟨hd, ?_, fun a ha => ?_⟩
  · rw [hreg, State.reg_rclr, if_pos rfl]; rfl
  · rw [hreg, State.reg_rclr, if_neg ha]

/-! ### Group start -/

/-- No selected timer refuses the write, and the writer may start the one that is selected (R325). -/
theorem State.groupStart_one {s : State} {n : Nat} {m : Master} (hsel : s.gsel = [n]) (hodd : s.tmOdd n = false)
    (hmay : s.mayStart m n = true) (hadm : ∀ x y, m = .host x y ∨ m = .link x y → s.standAdmits (s.tmr n).stand x y = true) :
    s.groupStart m = ((s.tmStart n true).tmWake n).rset rTmGstat 1 := by
  cases m <;> simp_all [State.groupStart, State.each]
/-- A selected timer that refuses a host write refuses the whole of it (R325). -/
theorem State.groupStart_refused {s : State} {n : Nat} {x y : Bool} (hsel : s.gsel = [n]) (hodd : s.tmOdd n = false)
    (hrec : (s.tmr n).hasRec = true) (hadm : s.standAdmits (s.tmr n).stand x y = false) : s.groupStart (.host x y) = s := by
  simp [State.groupStart, hsel, hodd, hrec, hadm]

/-- The timer has started, and the group start has reported itself (R311, R325). -/
def startedFrom (s : State) (n : Nat) (t : State) : Prop :=
  t.reg (rTmCnt n) = s.reg (rTmPhase n) ∧ t.reg (rTmCtl n) = s.reg (rTmCtl n) ||| 1#32 ∧ (t.tmr n).p = 0 ∧
  (t.reg rTmGstat).getLsbD 1 = true
theorem startedFrom_tmStart {s : State} {n : Nat} (hl : s.tmLinked n = false) :
    startedFrom s n (((s.tmStart n true).tmWake n).rset rTmGstat 1) := by
  have hwake {a : Nat} (ha : a ≠ rTmStat n) : ((s.tmStart n true).tmWake n).reg a = (s.tmStart n true).reg a :=
    (s.tmStart n true).tmWake_sameRegs n a ha
  have hcnt : rTmCnt n ≠ rTmGstat := by simp only [rTmCnt, rTm, rTmGstat, rBt]; omega
  have hctl : rTmCtl n ≠ rTmGstat := by simp only [rTmCtl, rTm, rTmGstat, rBt]; omega
  refine ⟨?_, ?_, ?_, ?_⟩
  · rw [State.reg_rset, if_neg hcnt, hwake (rTmCnt_ne_rTmStat n n)]
    simp [State.tmStart, State.tmSet_unlinked hl, State.tmVal_unlinked hl, rTmCnt_ne_rTmCtl]
  · rw [State.reg_rset, if_neg hctl, hwake (rTmCtl_ne_rTmStat n n)]
    simp [State.tmStart, State.tmSet_unlinked hl, (rTmCnt_ne_rTmCtl n n).symm]; rfl
  · rw [State.tmr_rset, State.tmWake_p]
    simp [State.tmStart]
  · rw [State.reg_rset, if_pos rfl, getLsbD_setBit _ _ _ (by decide)]
    simp

end Machine
end Sys2Proof
end

section
/-! Accesses to the registers of an unlinked timer, command by command (R312–R325). -/
namespace Sys2Proof
namespace Machine

section
variable {s : State} {n : Fin 64} (hm : s.mode ≠ .halted) (hrec : (s.tmr n).hasRec = true) (hodd : s.tmOdd n = false)
  (hl : s.tmLinked n = false)

include hm hodd in
theorem tmnCapRead_answers {m : Master} (wide : Bool) (hh : ∀ x y, m ≠ .host x y) : answers (.tmnCapRead n m wide) s fun t =>
    t.rdata = s.reg (rTmCap n) ∧ (m = .debugger → t.regs = s.regs) ∧ (m ≠ .debugger → wide = false → capTaken s n t) := by
  have hc : exec (.tmnCapRead n m wide) s = .next (s.gated { s.tmReadCap n m wide with rdata := s.reg (rTmCap n) }) := by
    cases m with
    | host x y => exact absurd rfl (hh x y)
    | _ => rfl
  refine answers_of_gated hm hc ⟨rfl, ?_, ?_⟩
  · rintro rfl; rfl
  · rintro hd rfl
    exact capTaken_of_regs rfl (by rw [State.tmReadCap_narrow hd hodd])

include hm hodd in
theorem tmnCapRead_host_even (x y wide : Bool) (heven : n.val % 2 = 0) : answers (.tmnCapRead n (.host x y) wide) s fun t =>
    capTaken s n t ∧ t.pairLatch = some (rTmCap (n + 1), s.reg (rTmCap (n + 1))) := by
  refine answers_of_gated hm (t := s.hostPairLow (rTmCap n)) ?_ ?_
  · show execTmnCapRead n (.host x y) wide s = _
    simp only [execTmnCapRead, if_pos heven]
  · rw [State.hostPairLow_rTmCap heven hodd]
    exact ⟨capTaken_of_regs rfl rfl, rfl⟩

include hm in
theorem tmnCapRead_host_odd {P : State → Prop} (x y wide : Bool) (hn : n.val % 2 = 1) (hP : P (s.hostPairHigh (rTmCap n))) :
    answers (.tmnCapRead n (.host x y) wide) s P := by
  refine answers_of_gated hm ?_ hP
  show execTmnCapRead n (.host x y) wide s = _
  have h : ¬ n.val % 2 = 0 := by omega
  simp only [execTmnCapRead, if_neg h]

include hm hrec hodd in
theorem tmnCmpWrite_answers (v : Word) : answers (.tmnCmpWrite n v) s fun t =>
    t.reg (rTmCmp n) = v ∧ sameRegs s t (fun a => a = rTmCmp n ∨ a = rTmStat n) ∧
    (s.tmRuns n = false → sameRegs s t (fun a => a = rTmCmp n) ∧ t.fires = s.fires) := by
  refine answers_of_gated hm (t := s.tmWriteCmp n v) rfl ?_
  rw [State.tmWriteCmp_running v hrec hodd]
  have hset := sameRegs_setReg s (rTmCmp n) v
  have hwake := (s.setReg (rTmCmp n) v).tmWake_sameRegs n
  refine ⟨?_, hset.trans hwake, fun hr => ?_⟩
  · rw [hwake _ (rTmCmp_ne_rTmStat n n), State.reg_setReg, if_pos rfl]
  · rw [State.tmWake_stopped ((s.tmRuns_setReg_rTmCmp n v).trans hr)]
    exact ⟨hset, rfl⟩

include hm hrec in
theorem tmnCtlWrite_answers (v keep : Word) (hkeep : keep = if s.mode = .run then 9#32 else 0xFFFF000F#32) :
    answers (.tmnCtlWrite n v) s fun t =>
      t.reg (rTmCtl n) = ctlWritten n (s.reg (rTmCtl n)) v keep ∧ sameRegs s t (fun a => a = rTmCtl n ∨ a = rTmStat n) ∧
      (s.mode ≠ .run ∨ s.reg (rTmCnt n) ≠ s.reg (rTmCmp n) ∨ (s.tmr n).lastE = true ∨ v.getLsbD 0 = false →
        sameRegs s t (fun a => a = rTmCtl n) ∧ t.fires = s.fires) := by
  have hk : (if s.rwlOpen then 0xFFFF000F#32 else 9#32) = keep := by
    rw [hkeep, State.rwlOpen_eq hm]; by_cases h : s.mode = .run <;> simp [h]
  have hen : keep.getLsbD 0 = true := by rw [hkeep]; split <;> decide
  refine answers_of_gated hm (t := s.tmWriteCtl n v s.rwlOpen) rfl ?_
  rw [State.tmWriteCtl_eq v _ hrec, hk]
  generalize hw : ctlWritten n (s.reg (rTmCtl n)) v keep = w
  have hset := sameRegs_setReg s (rTmCtl n) w
  have hwake := (s.setReg (rTmCtl n) w).tmWake_sameRegs n
  refine ⟨?_, hset.trans hwake, fun h => ?_⟩
  · rw [hwake _ (rTmCtl_ne_rTmStat n n), State.reg_setReg, if_pos rfl]
  · rw [← ctlWritten_en n (s.reg (rTmCtl n)) v keep hen, hw] at h
    obtain ⟨hregs, hfires⟩ := State.tmWake_quiet (s := s.setReg (rTmCtl n) w) (n := n) (by
      simpa [State.rbit, rTmCnt_ne_rTmCtl, rTmCmp_ne_rTmCtl] using h)
    exact ⟨fun a ha => (State.reg_eq_of_regs_eq hregs a).trans (hset a ha), hfires⟩

include hm hodd hl in
theorem tmGstart_starts {m : Master} (hsel : s.gsel = [n.val]) (hmay : s.mayStart m n = true)
    (hadm : ∀ x y, m = .host x y ∨ m = .link x y → s.standAdmits (s.tmr n).stand x y = true) :
    answers (.tmGstart m 0x6A51#16) s (startedFrom s n) := by
  refine answers_of_gated hm (t := s.groupStart m) rfl ?_
  rw [State.groupStart_one hsel hodd hmay hadm]
  exact startedFrom_tmStart hl
end

/-- A group start without the key, while the block is not HALTED, does nothing. -/
theorem tmGstart_unkeyed {s : State} (hm : s.mode ≠ .halted) (m : Master) {key : BitVec 16} (hk : key ≠ 0x6A51#16) :
    answers (.tmGstart m key) s fun t => t = s := by
  refine answers_of_gated hm (t := s) ?_ rfl
  show execTmGstart m key s = _
  simp only [execTmGstart, if_neg hk]

/-- Settles O24, command by command. That the host's read of an unlinked timer's CAP loads the pair latch is the model's choice
(notes/assumptions/60.md); a group start reports itself whether or not PHASE meets CMP at once. -/
theorem timerRegisterAccesses : Obligations.TimerRegisterAccesses := by
  unfold Obligations.TimerRegisterAccesses
  intro s n v hm hrec hodd hl
  refine ⟨?capRead, ?hostEven, ?hostLive, ?hostLatched, ?cmp, ?ctl, ?start, ?unkeyed⟩
  case capRead => exact fun m wide hh => tmnCapRead_answers hm hodd wide hh
  case hostEven => exact fun x y wide hn => tmnCapRead_host_even hm hodd x y wide hn
  case hostLive =>
    intro x y wide hn hlatch
    refine tmnCapRead_host_odd hm x y wide hn ?_
    rw [State.hostPairHigh_rTmCap_live hn hodd hlatch]
    exact ⟨capTaken_of_regs rfl rfl, rfl⟩
  case hostLatched =>
    exact fun x y wide u hn hlatch => tmnCapRead_host_odd hm x y wide hn (State.hostPairHigh_rTmCap_latched hn hlatch)
  case cmp => exact tmnCmpWrite_answers hm hrec hodd v
  case ctl => exact tmnCtlWrite_answers hm hrec v _ rfl
  case start =>
    intro hsel _
    have hmay {m : Master} (h : ∀ t, m = .thread t → s.managed t (s.tmr n).stand = true) : s.mayStart m n = true := by
      cases m <;> simp_all [State.mayStart]
    refine ⟨?_, fun x hx => ?_, fun x y hxy => ?_, fun x y hxy => ?_⟩
    · exact tmGstart_starts hm hodd hl hsel (hmay (by simp)) (by simp)
    · exact tmGstart_starts hm hodd hl hsel (hmay (by simp [hx])) (by simp)
    · exact tmGstart_starts hm hodd hl hsel (hmay (by simp)) (by simp_all)
    · exact answers_of_gated hm (t := s.groupStart (.host x y)) rfl (State.groupStart_refused hsel hodd hrec hxy)
  case unkeyed => exact fun m key hk => tmGstart_unkeyed hm m hk

end Machine
end Sys2Proof
end

section
/-! What resets keep and clear (R79, R94, R130): the fuses under a burn step cut short, the state that every reset leaves, and the
registers of a warm reset. -/
namespace Sys2Proof
namespace Machine

/-! ### Fuses -/

/-- A reset leaves a fuse as it is, or ends the burn step that is in progress there (R130). -/
theorem State.fuse_burnCut (s : State) (x : Nat) : s.burnCut.fuse x = s.fuse x ∨
    ∃ o bits rest, s.boot.otp = some o ∧ o.steps = (x, bits) :: rest ∧ s.burnCut.fuse x = s.fuse x ||| (bits &&& s.free) := by
  unfold State.burnCut
  split
  case h_1 => exact .inl rfl
  case h_2 o ho =>
    split
    case h_1 => exact .inl rfl
    case h_2 w bits rest hsteps =>
      split
      case isTrue => exact .inl rfl
      case isFalse =>
        by_cases hx : x = w
        · subst hx
          exact .inr ⟨o, bits, rest, ho, hsteps, Bank.get_put_same _ _ _ _⟩
        · exact .inl (Bank.get_put_other _ _ _ hx)
theorem State.burnCut_idle {s : State} (h : s.boot.otp = none) : s.burnCut = s := by simp [State.burnCut, h]

/-- Bits burned stay burned, and a burn step in progress burns no bits but its own (R130). -/
def fusesKeptFrom (s t : State) : Prop :=
  (s.boot.otp = none → t.otp = s.otp) ∧ (∀ w, s.fuse w &&& ~~~ t.fuse w = 0#32) ∧
  ∀ o w bits rest, s.boot.otp = some o → o.steps = (w, bits) :: rest →
    (∀ x, x ≠ w → t.fuse x = s.fuse x) ∧ t.fuse w &&& ~~~ bits = s.fuse w &&& ~~~ bits
theorem State.burnCut_fusesKept (s : State) : fusesKeptFrom s s.burnCut := by
  refine ⟨fun h => by rw [State.burnCut_idle h], fun w => ?_, fun o w bits rest ho hsteps => ⟨fun x hx => ?_, ?_⟩⟩
  · obtain h | ⟨_, _, _, _, _, h⟩ := s.fuse_burnCut w <;> rw [h] <;> ext i hi <;> simp_all
  · obtain h | ⟨o', bits', rest', ho', hsteps', -⟩ := s.fuse_burnCut x
    · exact h
    · cases ho.symm.trans ho'
      cases hsteps.symm.trans hsteps'
      exact absurd rfl hx
  · obtain h | ⟨o', bits', rest', ho', hsteps', h⟩ := s.fuse_burnCut w
    · rw [h]
    · cases ho.symm.trans ho'
      cases hsteps.symm.trans hsteps'
      rw [h]; ext i hi
      simp only [BitVec.getElem_and, BitVec.getElem_or, BitVec.getElem_not]
      cases bits[i] <;> simp

/-! ### The state that every reset leaves -/

/-- Memory and the units are as after a cold reset and every pin is fail-safe; fuses and the commands waiting are kept (R79, R94). -/
def clearedFrom (s t : State) : Prop :=
  t.mode = .boot ∧ t.mem = [] ∧ t.threads = [] ∧ t.chans = [] ∧ t.image = none ∧ fusesKeptFrom s t ∧
  t.pending = s.pending ∧ t.pads = [] ∧ ∀ n, (t.pin n).fs = true
theorem State.outside_cleared (s : State) : clearedFrom s s.outside :=
  ⟨rfl, rfl, rfl, rfl, rfl, s.burnCut_fusesKept, rfl, rfl, fun _ => rfl⟩

/-! ### Registers of a warm reset (R94) -/

theorem Bank.get_clear {α : Type} (d : Nat → α) (p : Nat → Bool) (b : List (Nat × α)) (k : Nat) :
    Bank.get d (Bank.clear p b) k = if p k then d k else Bank.get d b k := by
  induction b with
  | nil => simp [Bank.clear, Bank.get]
  | cons q r ih =>
    obtain ⟨j, v⟩ := q
    by_cases hj : p j = true <;> by_cases hk : k = j <;> simp_all [Bank.clear, Bank.get]

/-- A fold of register writes changes registers alone, and of these only the ones it writes. -/
theorem State.foldl_setReg_frame (l : List Nat) (f : Nat → Nat) (v : Nat → Word) (s : State) :
    l.foldl (fun t n => t.setReg (f n) (v n)) s = { s with regs := (l.foldl (fun t n => t.setReg (f n) (v n)) s).regs } := by
  induction l generalizing s with
  | nil => rfl
  | cons n l ih => simp only [List.foldl_cons]; rw [ih]; rfl
theorem State.reg_foldl_setReg_other {l : List Nat} {f : Nat → Nat} {a : Nat} (v : Nat → Word) (h : ∀ n ∈ l, a ≠ f n) (s : State) :
    (l.foldl (fun t n => t.setReg (f n) (v n)) s).reg a = s.reg a := by
  induction l generalizing s with
  | nil => rfl
  | cons n l ih =>
    rw [List.foldl_cons, ih (fun k hk => h k (by simp [hk])), State.reg_setReg, if_neg (h n (by simp))]

/-- A warm reset leaves of the units what is outside, the recorder's pool and queue, and what R94 keeps of security and debug. -/
theorem State.warmScope_units (s : State) (cause : Nat) : ∃ r, s.warmScope cause = { s.outside with
    phase := 1
    regs := r
    recd := { pool := s.recd.pool, applied := s.recd.applied, queue := s.recd.queue, low2 := s.recd.low2, low1 := s.recd.low1,
              restore := s.recd.restore, counters := s.recd.counters, newest := s.recd.newest }
    sec := { lockout := s.sec.lockout, failRun := s.sec.failRun, aonLost := s.sec.aonLost }
    dbg := { ir := s.dbg.ir, dr := s.dbg.dr, accData := s.dbg.accData, accStat := s.dbg.accStat } } := by
  unfold State.warmScope
  dsimp only
  rw [State.foldl_setReg_frame, State.foldl_setReg_frame (List.range 8)]
  exact ⟨_, rfl⟩

/-- The registers beside ER_CMSTAT that a warm reset writes after it has cleared those that it does not keep: pins and zones, and
single registers. -/
abbrev warmWrites (a : Nat) : Prop :=
  (0x670000 ≤ a ∧ a < 0x680000) ∨ a = rSecAlStat ∨ a = rSecDbgStat ∨ a = rXpCpStat ∨ a = rDbgFrzCnt ∨ a = rBcRstCause

theorem State.warmScope_reg_rBcRstCause (s : State) (cause : Nat) :
    (s.warmScope cause).reg rBcRstCause = BitVec.ofNat 32 (cause + 8 * b2n (s.rbit rBcRstCause 3)) := by simp [State.warmScope]
theorem State.warmScope_reg_other (s : State) (cause : Nat) {a : Nat} (ha : ¬ warmWrites a) : (s.warmScope cause).reg a =
    let w := if warmKeeps a then s.reg a else regReset a
    if a = rErCmStat then w &&& 0xFFFFFFF0#32 else w := by
  obtain ⟨hpg, hal, hdbg, hcp, hfrz, hcause⟩ : ¬ (0x670000 ≤ a ∧ a < 0x680000) ∧ a ≠ rSecAlStat ∧ a ≠ rSecDbgStat ∧ a ≠ rXpCpStat ∧
      a ≠ rDbgFrzCnt ∧ a ≠ rBcRstCause := by simpa only [warmWrites, not_or] using ha
  have hlim : ∀ z ∈ List.range 8, a ≠ rPgZLim z := fun z hz => by
    have := List.mem_range.1 hz
    simp only [rPgZLim, rPgZ]; omega
  have hcfg : ∀ n ∈ List.range 192, a ≠ rPgCfg n := fun n hn => by
    have := List.mem_range.1 hn
    simp only [rPgCfg]; omega
  have hclear {t : State} (h : t.regs = Bank.clear (fun a => !warmKeeps a) s.regs) :
      t.reg a = if warmKeeps a then s.reg a else regReset a := by
    rw [State.reg, h, Bank.get_clear]
    cases warmKeeps a <;> rfl
  unfold State.warmScope
  dsimp only
  rw [State.reg_setReg, if_neg hcause, State.reg_modReg, if_neg hfrz, State.reg_modReg]
  by_cases h : a = rErCmStat
  case' pos => rw [if_pos h, if_pos h, ← h]
  case' neg => rw [if_neg h, if_neg h]
  all_goals rw [State.reg_foldl_setReg_other _ hcfg, State.reg_foldl_setReg_other _ hlim, State.reg_setReg, if_neg hcp, State.reg_setReg,
    if_neg hdbg, State.reg_setReg, if_neg hal, hclear rfl]
/-- A register that a warm reset keeps whole. -/
theorem State.warmScope_reg_kept (s : State) (cause : Nat) {a : Nat} (ha : ¬ warmWrites a) (hcm : a ≠ rErCmStat)
    (hk : warmKeeps a = true) : (s.warmScope cause).reg a = s.reg a := by
  simp [State.warmScope_reg_other s cause ha, hcm, hk]

theorem warmKeeps_rSecAcnt {k : Nat} (hk : k < 16) : warmKeeps (rSecAcnt k) = true := by
  have hrun : inRun (rSecAcnt k) (rSecAcnt 0) 4 16 = true :=
    inRun_member (k := k) (by simp only [rSecAcnt, rSec]; omega) (by decide) hk
  simp [warmKeeps, hrun]
theorem warmKeeps_rErDrop {k : Nat} (hk : k < 5) : warmKeeps (rErDrop k) = true := by
  have hany : (List.range 5).any (fun j => decide (rErDrop k = rErDrop j)) = true :=
    List.any_eq_true.2 ⟨k, List.mem_range.2 hk, decide_eq_true rfl⟩
  simp [warmKeeps, hany]
theorem not_warmWrites_rSecAcnt {k : Nat} (hk : k < 16) : ¬ warmWrites (rSecAcnt k) := by
  simp only [warmWrites, rSecAcnt, rSecAlStat, rSecDbgStat, rXpCpStat, rDbgFrzCnt, rBcRstCause, rSec, rDbg]; omega
theorem not_warmWrites_rErDrop {k : Nat} (hk : k < 5) : ¬ warmWrites (rErDrop k) := by
  simp only [warmWrites, rErDrop, rEr, rSecAlStat, rSecDbgStat, rXpCpStat, rDbgFrzCnt, rBcRstCause, rSec, rDbg]; omega

/-! ### The commands -/

/-- The state of a cold reset: registers and units at their reset values, the power cycle counted, the cause shown (R79, R94). -/
theorem coldReset_answers (s : State) : answers .coldReset s fun t => clearedFrom s t ∧ t.phase = 1 ∧
    t.aon = { s.aon with pcc := min (2 ^ 24 - 1) (s.aon.pcc + 1) } ∧ t.reg rBcRstCause = BitVec.ofNat 32 (1 + 8 * b2n s.sec.aonLost) ∧
    t.recd = { restore := true, counters := s.sec.aonLost } ∧ t.power = true ∧
    sameRegs State.reset t (fun a => a = rBcRstCause ∨ a = rSecAlStat) := by
  have hne : rBcRstCause ≠ rSecAlStat := by decide
  refine ⟨_, rfl, s.outside_cleared, rfl, rfl, ?_, rfl, rfl, fun a ha => ?_⟩
  · rw [State.reg_rsetFld, if_neg hne, State.reg_setReg, if_pos rfl]
  · obtain ⟨hcause, hal⟩ := not_or.1 ha
    rw [State.reg_rsetFld, if_neg hal, State.reg_setReg, if_neg hcause]
    rfl
theorem pwrOkFall_answers (s : State) : answers .pwrOkFall s fun t => clearedFrom s t ∧ t.phase = 0 ∧ t.power = false ∧ t.aon = s.aon ∧
    sameRegs State.reset t (fun a => a = rSecAlStat) := by
  refine ⟨_, rfl, s.outside_cleared, rfl, rfl, rfl, fun a hal => ?_⟩
  rw [State.reg_rsetFld, if_neg hal]
  rfl
theorem warmReset_answers {s : State} (hp : s.power = true) : answers .warmReset s fun t => clearedFrom s t ∧ t.phase = 1 ∧ t.aon = s.aon ∧
    t.reg rBcRstCause = BitVec.ofNat 32 (2 + 8 * b2n (s.rbit rBcRstCause 3)) ∧ t.recd.pool = s.recd.pool ∧
    t.recd.restore = s.recd.restore ∧ ticked (s.reg rBcWarmCnt) (t.reg rBcWarmCnt) 0 16 ∧
    t.reg rErCmStat = s.reg rErCmStat &&& 0xFFFFFFF0#32 ∧ t.reg rErCmSeq = 0#32 ∧ (∀ k, k < 16 → t.reg (rSecAcnt k) = s.reg (rSecAcnt k)) ∧
    (∀ k, k < 5 → t.reg (rErDrop k) = s.reg (rErDrop k)) ∧ t.sec.lockout = s.sec.lockout ∧ t.dbg.ir = s.dbg.ir := by
  obtain ⟨r, hunits⟩ := s.warmScope_units 2
  have hexec : exec .warmReset s = .next ((s.warmScope 2).rcount rBcWarmCnt 0 16 1) := by
    show execWarmReset s = _
    rw [execWarmReset, if_pos hp]
  have hclear : clearedFrom s ((s.warmScope 2).rcount rBcWarmCnt 0 16 1) := by rw [hunits]; exact s.outside_cleared
  have hcnt : (s.warmScope 2).reg rBcWarmCnt = s.reg rBcWarmCnt := s.warmScope_reg_kept 2 (by decide) (by decide) (by decide)
  -- counting the reset changes BC_WARMCNT alone
  have hreg {a : Nat} (ha : a ≠ rBcWarmCnt) : ((s.warmScope 2).rcount rBcWarmCnt 0 16 1).reg a = (s.warmScope 2).reg a := by
    rw [State.reg_rcount, if_neg ha]
  refine ⟨_, hexec, hclear, by rw [hunits]; rfl, by rw [hunits]; rfl, ?cause, by rw [hunits]; rfl, by rw [hunits]; rfl, ?count, ?commits, ?seq,
    fun k hk => ?alarms, fun k hk => ?drops, by rw [hunits]; rfl, by rw [hunits]; rfl⟩
  case cause => rw [hreg (by decide), State.warmScope_reg_rBcRstCause]
  case count => rw [← hcnt]; exact State.rcount_ticked _ _ _ _ (by decide)
  case commits => rw [hreg (by decide), State.warmScope_reg_other _ _ (by decide)]; rfl
  case seq => rw [hreg (by decide), State.warmScope_reg_other _ _ (by decide)]; rfl
  case alarms =>
    rw [hreg (by simp only [rSecAcnt, rSec, rBcWarmCnt]; omega),
      State.warmScope_reg_kept _ _ (not_warmWrites_rSecAcnt hk) (by simp only [rSecAcnt, rSec, rErCmStat, rEr]; omega) (warmKeeps_rSecAcnt hk)]
  case drops =>
    rw [hreg (by simp only [rErDrop, rEr, rBcWarmCnt]; omega),
      State.warmScope_reg_kept _ _ (not_warmWrites_rErDrop hk) (by simp only [rErDrop, rEr, rErCmStat]; omega) (warmKeeps_rErDrop hk)]

/-- Settles O46, command by command. That the block takes no warm reset while PWR_OK is low, and that one leaves a restore due, are the
model's choices (notes/assumptions/76.md and 73.md). -/
theorem resetsKeepWhatTheyMust : Obligations.ResetsKeepWhatTheyMust := by
  unfold Obligations.ResetsKeepWhatTheyMust
  intro s
  refine ⟨coldReset_answers s, pwrOkFall_answers s, ?aonFall, ?noPower, warmReset_answers⟩
  case aonFall => exact ⟨_, rfl, rfl, Nat.mod_lt _ (by decide), rfl, rfl, ⟨rfl, rfl, rfl⟩, rfl⟩
  case noPower =>
    intro hp
    exact ⟨s, by show execWarmReset s = _; simp [execWarmReset, hp], rfl⟩

end Machine
end Sys2Proof
end

section
/-! Start-up from a state that names a settings generation no block has (R119, R120). The statement bounds the generation in force
nowhere. Word 1 of "generation" 1008 lies, by the address arithmetic of OTP_MIRROR, at XP_NVSTAT: the register that the read of the
image itself writes before the image's tag is handed to the cipher port. -/
namespace Sys2Proof
namespace Machine

/-- In P3, reset but for the phase and for a generation in force that P1 never finds. -/
def strayGen : State := { State.reset with phase := 3, gen := some 0x3F0 }
theorem rOtpMirror_strayGen : rOtpMirror (0x80 + 32 * 0x3F0 + 1) = rXpNvStat := rfl
/-- What stands for IMGSLOT there is the status of the serial NVM, before the read. -/
theorem strayGen_imgSlot : fld (strayGen.genWord 1) 0 8 = 0 := by
  have hword : strayGen.genWord 1 = strayGen.reg rXpNvStat := by rw [← rOtpMirror_strayGen]; rfl
  rw [hword]; rfl

/-- The smallest image of the largest configuration: a header of 64 bytes and a tag of 16 (R138). -/
def leastImage : List Byte :=
  leBytes 4 0x7E1A5128 ++ leBytes 2 1 ++ leBytes 2 64 ++ leBytes 4 80 ++ leBytes 4 0 ++ [0#8, 8#8] ++ List.replicate 62 0#8
/-- A serial NVM with its SFDP signature that holds it. -/
def leastRead : NvRead := { sfdp := true, q144 := false, q114 := false, qe := false, dummy := 0#8, bytes := leastImage }
/-- The image as it is read. -/
def leastParsed : Image := { length := 80, cfgMask := 8 }
/-- A reading that gives a value as an option gives it. -/
theorem Parse.eq_ok_of_toOption {α : Type} {p : Parse α} {a : α} (h : p.toOption = some a) : p = .ok a := by
  cases p with
  | error e => cases h
  | ok b => cases h; rfl
theorem strayGen_header :
    parseHeader (padTo 64 leastRead.bytes) strayGen.kind strayGen.arbFloor (strayGen.genWord 0) = .ok (leastParsed, 0) :=
  Parse.eq_ok_of_toOption (by decide +kernel)
theorem strayGen_parse : strayGen.parse (padTo leastParsed.length leastRead.bytes) = .ok leastParsed :=
  Parse.eq_ok_of_toOption (by decide +kernel)

/-- The slots of the cipher requests that wait where a command completes. -/
def slotsAsked (o : Out) : List Nat := match o with
  | .next t => t.ports.cpWait.map CpReq.slot
  | _ => []
/-- The read reports mode 1-1-1 and SFDP in XP_NVSTAT, and the check is asked for under slot 5. -/
theorem strayGen_slotAsked : slotsAsked (exec (.imageLoad leastRead) strayGen) = [5] := by decide +kernel

/-- Refutes O47: its clause for an image read from the serial NVM puts the check under the IMGSLOT of the state before the read, and in
`strayGen` the read changes the word that stands for it. Generations are 0 to 4 (R119), and P1 finds no other (R120). -/
theorem not_startUpGoesPhaseByPhase : ¬ Obligations.StartUpGoesPhaseByPhase := by
  unfold Obligations.StartUpGoesPhaseByPhase
  intro h
  obtain ⟨-, -, -, hload, -⟩ := h strayGen 0 leastRead leastParsed leastParsed 0 { src := 1 } 0#32
  obtain ⟨t, ht, -, -, hasked⟩ := (hload rfl rfl rfl).2 (by decide) rfl strayGen_header (by decide) strayGen_parse
  have hmodel : slotsAsked (.next t) = [5] := ht ▸ strayGen_slotAsked
  have hstated : slotsAsked (.next t) = [0] := by
    rw [slotsAsked, hasked, ← strayGen_imgSlot]
    rfl
  exact absurd (hmodel.symm.trans hstated) (by decide)

end Machine
end Sys2Proof
end

section
/-! What the release of a stand leaves alone (R105): memory, and of the registers of BC and STC what is not its own; they lie below every
register that a released timer, pin, shift engine or service writes, whatever its number. -/
namespace Sys2Proof
namespace Machine

/-! ### Memory and the registers below 0x610000 kept -/

/-- Memory and the registers of BC and STC are as they were. -/
def stcKept (s t : State) : Prop := t.mem = s.mem ∧ sameRegs s t (fun a => 0x610000 ≤ a)

theorem stcKept.refl (s : State) : stcKept s s := ⟨rfl, fun _ _ => rfl⟩
theorem stcKept.trans {s t u : State} (h : stcKept s t) (k : stcKept t u) : stcKept s u := by
  obtain ⟨hmem, hregs⟩ := h
  obtain ⟨kmem, kregs⟩ := k
  exact ⟨kmem.trans hmem, fun a ha => (kregs a ha).trans (hregs a ha)⟩
theorem stcKept_foldl {α : Type} (l : List α) {f : State → α → State} (hf : ∀ s x, stcKept s (f s x)) (s : State) :
    stcKept s (l.foldl f s) :=
  List.foldlRecOn l f (.refl s) (fun t h x _ => h.trans (hf t x))
theorem State.each_stcKept (l : List Nat) {f : State → Nat → State} (hf : ∀ s k, stcKept s (f s k)) (s : State) :
    stcKept s (s.each l f) := stcKept_foldl l hf s
theorem stcKept_setReg (s : State) {a : Nat} (v : Word) (ha : 0x610000 ≤ a) : stcKept s (s.setReg a v) :=
  ⟨rfl, fun k hk => sameRegs_setReg s a v k (by omega)⟩
theorem stcKept_modReg (s : State) {a : Nat} (f : Word → Word) (ha : 0x610000 ≤ a) : stcKept s (s.modReg a f) :=
  stcKept_setReg s _ ha
theorem stcKept_of_eq {s t : State} (hmem : t.mem = s.mem) (hregs : t.regs = s.regs) : stcKept s t :=
  ⟨hmem, sameRegs_of_regs_eq _ hregs⟩

/-! ### The registers of the units lie above -/

theorem rTmCnt_ge (n : Nat) : 0x610000 ≤ rTmCnt n := by simp only [rTmCnt, rTm]; omega
theorem rTmCtl_ge (n : Nat) : 0x610000 ≤ rTmCtl n := by simp only [rTmCtl, rTm]; omega
theorem rTmStat_ge (n : Nat) : 0x610000 ≤ rTmStat n := by simp only [rTmStat, rTm]; omega
theorem rSeL_ge (n k : Nat) : 0x610000 ≤ rSeL n k := by simp only [rSeL, rSe]; omega
theorem rPgOut_ge (n : Nat) : 0x610000 ≤ rPgOut n := by simp only [rPgOut]; omega
theorem rPgZStat_ge (z : Nat) : 0x610000 ≤ rPgZStat z := by simp only [rPgZStat, rPgZ]; omega
theorem rSvStat_ge (i : Nat) : 0x610000 ≤ rSvStat i := by simp only [rSvStat, rSv]; omega

/-! ### Recorder updates, timers, pins, shift engines and services -/

theorem State.recBin_stcKept (s : State) (unit metric index bin sev : Nat) : stcKept s (s.recBin unit metric index bin sev) := by
  unfold State.recBin
  refine ⟨by rw [State.recPush_frame], fun a ha => State.recPush_regs _ _ a fun h => ha ?_⟩
  subst h; decide

theorem State.tmSet_stcKept (s : State) (n : Nat) {r : Nat → Nat} (v : Nat) (hr : ∀ k, 0x610000 ≤ r k) :
    stcKept s (s.tmSet n r v) := by
  unfold State.tmSet
  dsimp only
  split
  · exact (stcKept_setReg s _ (hr n)).trans (stcKept_setReg _ _ (hr _))
  · exact stcKept_setReg s _ (hr n)
theorem State.tmStart_stcKept (s : State) (n : Nat) (en : Bool) : stcKept s (s.tmStart n en) := by
  have hset := s.tmSet_stcKept n (s.tmVal n rTmPhase) rTmCnt_ge
  have hput : stcKept (s.tmSet n rTmCnt (s.tmVal n rTmPhase)) ((s.tmSet n rTmCnt (s.tmVal n rTmPhase)).rput (rTmCtl n) 0 en) :=
    stcKept_modReg _ _ (rTmCtl_ge n)
  exact hset.trans hput
theorem State.tmRelease_stcKept (s : State) (n : Nat) (v : Word) : stcKept s (s.tmRelease n v) := by
  unfold State.tmRelease
  exact State.each_stcKept _ (by exact fun _ _ => stcKept_of_eq rfl rfl) s
theorem State.tmWake_stcKept (s : State) (n : Nat) : stcKept s (s.tmWake n) := by
  unfold State.tmWake State.tmEval State.tmFire
  dsimp only
  split
  · split
    · have hflag := stcKept_modReg (s.modTmr n (fun t => { t with lastE := decide (s.tmVal n rTmCnt = s.tmVal n rTmCmp) }))
        (fun w => setBit w 0) (rTmStat_ge n)
      exact hflag.trans (State.tmRelease_stcKept _ n _)
    · exact .refl s
  · exact .refl s

theorem State.chargeExempt_stcKept (s : State) (z q : Nat) : stcKept s (s.chargeExempt z q) := by
  unfold State.chargeExempt
  dsimp only
  split
  · have hflag := stcKept_modReg (s.modZone z (fun k => { k with qacc := k.qacc + q })) (fun w => setBit w 4) (rPgZStat_ge z)
    split
    · exact hflag
    · exact hflag.trans (State.recBin_stcKept _ _ _ _ _ _)
  · exact .refl s
theorem State.exempt_stcKept (s : State) (n : Nat) (f : Pin → Pin) : stcKept s (s.exempt n f) := by
  unfold State.exempt
  dsimp only
  split
  · split
    · exact .refl s
    · exact State.chargeExempt_stcKept (s.modPin n f) _ _
  · exact .refl s
theorem State.pinRelease_stcKept (s : State) (n : Nat) : stcKept s (s.pinRelease n) :=
  (stcKept_setReg s _ (rPgOut_ge n)).trans (State.exempt_stcKept _ n _)
theorem State.seStart_stcKept (s : State) (n : Nat) : stcKept s (s.seStart n) := by
  unfold State.seStart
  exact ((stcKept_setReg s _ (rSeL_ge n 0)).trans (stcKept_setReg _ _ (rSeL_ge n 1))).trans (stcKept_of_eq rfl rfl)
theorem State.svBegin_stcKept (s : State) (n : Nat) : stcKept s (s.svBegin n) := by
  have hinit : stcKept s (s.rsetFld (rSvStat n) 0 2 1) := stcKept_modReg s _ (rSvStat_ge n)
  exact hinit.trans (stcKept_of_eq rfl rfl)
theorem State.svRestart_stcKept (s : State) (p : SvcRec → Bool) : stcKept s (s.svRestart p) := by
  unfold State.svRestart
  split
  · exact .refl s
  · exact stcKept_foldl _ (by exact fun s r => (stcKept_modReg s _ (rSvStat_ge r.n)).trans (State.svBegin_stcKept _ r.n)) s

theorem State.svRestart_stands (s : State) (p : SvcRec → Bool) : (s.svRestart p).stands = s.stands := by
  unfold State.svRestart
  split
  · rfl
  · exact List.foldlRecOn (motive := fun (t : State) => t.stands = s.stands) _ _ rfl (fun t h _ _ => h)

/-! ### The release -/

/-- What a release of stand `n` keeps once it has written STATE and BUCKET: memory, and of the registers of BC and STC all but
STCn_RCNT and the watchdog's count, the upper half of STCn_STAT. -/
def releaseKeeps (n : Nat) (s t : State) : Prop :=
  t.mem = s.mem ∧ sameRegs s t (fun a => 0x610000 ≤ a ∨ a = rStcStat n ∨ a = rStcRcnt n) ∧
  ∀ lo w, lo + w ≤ 16 → t.rfld (rStcStat n) lo w = s.rfld (rStcStat n) lo w

theorem rStcStat_lt (n : Fin 16) : rStcStat n < 0x610000 := by simp only [rStcStat, rStc]; omega
theorem rStcCause_ne_rStcStat (n k : Nat) : rStcCause n ≠ rStcStat k := by simp only [rStcCause, rStcStat, rStc]; omega
theorem rStcCause_ne_rStcRcnt (n k : Nat) : rStcCause n ≠ rStcRcnt k := by simp only [rStcCause, rStcRcnt, rStc]; omega
theorem rStcCause_lt (n : Fin 16) : rStcCause n < 0x610000 := by simp only [rStcCause, rStc]; omega
theorem rStcStat_ne_rStcRcnt (n k : Nat) : rStcStat n ≠ rStcRcnt k := by simp only [rStcStat, rStcRcnt, rStc]; omega
theorem stcKept.releaseKeeps {s t : State} (h : stcKept s t) (n : Fin 16) : releaseKeeps n s t := by
  obtain ⟨hmem, hregs⟩ := h
  have hstat := hregs (rStcStat n) (Nat.not_le.2 (rStcStat_lt n))
  exact ⟨hmem, fun a ha => hregs a fun h => ha (.inl h), fun lo w _ => by rw [State.rfld, State.rfld, hstat]⟩
theorem releaseKeeps.trans {n : Nat} {s t u : State} (h : releaseKeeps n s t) (k : releaseKeeps n t u) : releaseKeeps n s u := by
  obtain ⟨hmem, hregs, hfld⟩ := h
  obtain ⟨kmem, kregs, kfld⟩ := k
  exact ⟨kmem.trans hmem, fun a ha => (kregs a ha).trans (hregs a ha), fun lo w hw => (kfld lo w hw).trans (hfld lo w hw)⟩

/-- A write of the watchdog's count keeps the lower half of STCn_STAT. -/
theorem State.rfld_watchdogCount (s : State) (n v : Nat) {lo w : Nat} (h : lo + w ≤ 16) :
    (s.rsetFld (rStcStat n) 16 16 v).rfld (rStcStat n) lo w = s.rfld (rStcStat n) lo w := by
  rw [State.rfld, State.reg_rsetFld, if_pos rfl, fld_setFld_other _ _ _ _ _ _ (by omega) (.inl h)]
  rfl
theorem State.wdLoad_rfld (s : State) (n : Nat) {lo w : Nat} (h : lo + w ≤ 16) :
    (s.wdLoad n).rfld (rStcStat n) lo w = s.rfld (rStcStat n) lo w := s.rfld_watchdogCount n _ h
theorem State.wdLoad_sameRegs (s : State) (n : Nat) : sameRegs s (s.wdLoad n) (fun a => a = rStcStat n) :=
  sameRegs_setReg s _ _
theorem State.wdLoad_releaseKeeps (s : State) (n : Nat) : releaseKeeps n s (s.wdLoad n) :=
  ⟨rfl, fun a ha => s.wdLoad_sameRegs n a fun h => ha (.inr (.inl h)), fun _ _ => s.wdLoad_rfld n⟩
theorem State.rcount_rStcRcnt_releaseKeeps (s : State) (n lo w k : Nat) : releaseKeeps n s (s.rcount (rStcRcnt n) lo w k) :=
  ⟨rfl, fun a ha => sameRegs_setReg s _ _ a fun h => ha (.inr (.inr h)), fun lo w _ => by
    rw [State.rfld, State.reg_rcount, if_neg (rStcStat_ne_rStcRcnt n n)]; rfl⟩

theorem State.standStart_releaseKeeps (s : State) (n : Fin 16) : releaseKeeps n s (s.standStart n) := by
  have hwatch {t : State} (on : Bool) (h : stcKept s t) : releaseKeeps n s (if on then
      (t.wdLoad n).modStand n (fun d => { d with wdOn := true }) else t.modStand n (fun d => { d with wdOn := false })) := by
    split
    · have hload := (h.releaseKeeps n).trans (t.wdLoad_releaseKeeps n)
      exact hload.trans ((stcKept_of_eq rfl rfl).releaseKeeps n)
    · exact (h.trans (stcKept_of_eq rfl rfl)).releaseKeeps n
  unfold State.standStart
  split
  · exact (stcKept.refl s).releaseKeeps n
  · refine hwatch _ ?_
    refine .trans (.trans (.trans (State.each_stcKept _ ?thread _) (stcKept_foldl _ ?timer _)) (stcKept_foldl _ ?pin _)) (stcKept_foldl _ ?engine _)
    case thread => exact fun s t => stcKept_of_eq rfl rfl
    case timer =>
      intro s r
      split
      · exact .refl s
      · exact (s.tmStart_stcKept r.n _).trans (State.tmWake_stcKept _ r.n)
    case pin => exact fun s r => s.pinRelease_stcKept r.n
    case engine => exact fun s r => s.seStart_stcKept r.n

theorem State.standReleaseNow_releaseKeeps (s : State) (n : Fin 16) : releaseKeeps n
    ((s.rsetFld (rStcStat n) 0 3 1).rsetFld (rStcStat n) 8 4 (if (s.stand n).unpark then 0 else min 15 (s.rfld (rStcStat n) 8 4 + 1)))
    (s.standReleaseNow n) := by
  unfold State.standReleaseNow
  refine ((State.standStart_releaseKeeps _ n).trans (State.rcount_rStcRcnt_releaseKeeps _ n 0 16 1)).trans ?_
  have hpulse {u t : State} {f : Stand → Stand} (h : stcKept u t) : stcKept u ((t.pulse 268).modStand n f) :=
    h.trans (stcKept_of_eq rfl rfl)
  refine ((hpulse (State.each_stcKept _ ?bins _)).trans (State.svRestart_stcKept _ _)).releaseKeeps n
  case bins => exact fun t k => t.recBin_stcKept 0x02 0x01 n k 1
theorem State.standReleaseNow_parks (s : State) (n : Nat) : ((s.standReleaseNow n).stand n).parks = false := by
  unfold State.standReleaseNow
  dsimp only
  rw [State.stand, State.svRestart_stands]
  exact congrArg Stand.parks (State.stand_modStand _ _ _ _ |>.trans (if_pos rfl))

end Machine
end Sys2Proof
end

section
/-! The commands to a stand, its watchdog and its storm count (R102–R104, R108). -/
namespace Sys2Proof
namespace Machine

/-! ### Words of keyed commands -/

/-- The key of a command is the lower half of the word it stands for; RESTART is bit 16 of that word, UNPARK bit 17. -/
theorem fld_key (key : BitVec 16) {b : Nat} (hb : b = 16 ∨ b = 17) : fld (BitVec.ofNat 32 (key.toNat + 2 ^ b)) 0 16 = key.toNat := by
  have := key.isLt
  simp only [fld, BitVec.toNat_ofNat]
  rcases hb with rfl | rfl <;> omega

/-! ### RESTART and UNPARK (R102, R108) -/

section
variable {s : State} {m : Master} {n : Nat} {v : Word} {c : Nat}

theorem State.stcCtl_unwritten (h : fld v 0 16 ≠ 0x5E7D ∨ s.stcWriter m n = none) :
    (∀ x, m = .thread x → s.stcCtl m n v = s.rset (rStcStat n) 4) ∧ ((∀ x, m ≠ .thread x) → s.stcCtl m n v = s) := by
  have hnone : (if fld v 0 16 = 0x5E7D then s.stcWriter m n else none) = none := by
    rcases h with h | h <;> simp [h]
  unfold State.stcCtl
  rw [hnone]
  refine ⟨?_, fun h => ?_⟩
  · rintro x rfl; rfl
  · cases m with
    | thread x => exact absurd rfl (h x)
    | _ => rfl
theorem State.stcCtl_restart (hc : s.stcWriter m n = some c) (h0 : s.standState n ≠ 0) :
    s.stcCtl m n (BitVec.ofNat 32 ((0x5E7D#16).toNat + 2 ^ 16)) =
      if s.standState n = 3 then s.rset (rStcStat n) 4 else s.askStand n c 0 := by
  simp [State.stcCtl, hc, h0, fld]
theorem State.stcCtl_unpark (hc : s.stcWriter m n = some c) (h0 : s.standState n ≠ 0) :
    s.stcCtl m n (BitVec.ofNat 32 ((0x5E7D#16).toNat + 2 ^ 17)) = if s.standState n = 3 then
      ((s.latchCause n 7 0).modStand n (fun d => { d with parks := false, unpark := true, causes := 2 ^ 7 })).standGo n
      else s.rset (rStcStat n) 4 := by
  simp [State.stcCtl, hc, h0, fld]
end

/-- A restart asked of a stand in which none runs waits to be accepted (R105). -/
theorem State.askStand_waits {s : State} {n : Nat} (bit : Nat) (h0 : s.standState n ≠ 0) (h5 : s.standState n ≠ 5)
    (hstep : (s.stand n).step = .none) : s.askStand n bit 0 = s.modStand n (fun d =>
      { d with req := true, causes := d.causes ||| 2 ^ bit, alarmId := if bit = 6 then 0 else d.alarmId }) := by
  simp [State.askStand, h0, h5, hstep]
/-- One asked of a stand that restarts adds its cause (R109). -/
theorem State.askStand_absorbed {s : State} {n : Nat} (bit : Nat) (h0 : s.standState n ≠ 0) (h5 : s.standState n ≠ 5)
    (hstep : (s.stand n).step ≠ .none) :
    s.askStand n bit 0 = (s.latchCause n bit 0).modStand n (fun d => { d with causes := d.causes ||| 2 ^ bit }) := by
  simp [State.askStand, h0, h5, hstep]
theorem State.latchCause_eq_rset (s : State) (n : Nat) {bit : Nat} (h : bit ≠ 6) (alarm : Nat) :
    s.latchCause n bit alarm = s.rset (rStcCause n) bit := by simp [State.latchCause, h]

/-- UNPARK of a parked stand that the debugger does not hold releases it with its storm count at 0 (R108). -/
theorem State.unparked {s : State} {n : Fin 16} (hold : s.rbit rDbgShold n = false) :
    let t := ((s.latchCause n 7 0).modStand n (fun d => { d with parks := false, unpark := true, causes := 2 ^ 7 })).standGo n
    t.standState n = 1 ∧ t.rfld (rStcStat n) 8 4 = 0 ∧ (t.stand n).parks = false ∧ (t.reg (rStcCause n)).getLsbD 7 = true ∧
    t.mem = s.mem := by
  dsimp only
  rw [State.latchCause_eq_rset _ _ (by decide)]
  generalize hu : State.modStand _ _ _ = u
  have hcause : (u.reg (rStcCause n)).getLsbD 7 = true := by
    rw [← hu, State.reg_modStand, State.reg_rset, if_pos rfl, getLsbD_setBit _ _ _ (by decide)]
    simp
  have hunpark : (u.stand n).unpark = true := by rw [← hu]; simp
  have hmem : u.mem = s.mem := by rw [← hu]; rfl
  have hgo : u.standGo n = u.standReleaseNow n := by
    have hne : rDbgShold ≠ rStcCause n := by simp only [rDbgShold, rDbg, rStcCause, rStc]; omega
    have hfree : u.rbit rDbgShold n = false := by
      rw [← hu, ← hold]
      simp [State.rbit, hne]
    simp [State.standGo, hfree]
  rw [hgo]
  obtain ⟨kmem, kregs, kfld⟩ := u.standReleaseNow_releaseKeeps n
  refine ⟨?_, ?_, u.standReleaseNow_parks n, ?_, kmem.trans hmem⟩
  · rw [State.standState, kfld _ _ (by decide)]
    simp [State.rfld, fld_setFld_other, fld_setFld_same]
  · rw [kfld _ _ (by decide)]
    simp [State.rfld, fld_setFld_same, hunpark]
  · have hkept : ¬ (0x610000 ≤ rStcCause n ∨ rStcCause n = rStcStat n ∨ rStcCause n = rStcRcnt n) := by
      simp [rStcCause_lt, rStcCause_ne_rStcStat, rStcCause_ne_rStcRcnt]
    rw [kregs _ hkept]
    simpa [rStcCause_ne_rStcStat] using hcause

/-! ### The watchdog (R103, R104) -/

theorem State.wdKick_unkeyed {s : State} {m : Master} {n key : Nat} (h : key ≠ 0xC35A) : s.wdKick m n key = s := by simp [State.wdKick, h]
theorem State.wdKick_member {s : State} {n : Nat} {k : Tid} (hstand : (s.thr k).stand = n) (hcls : (s.thr k).cls ≠ .idle) :
    s.wdKick (.thread k) n 0xC35A = if (s.stand n).wdOn then s.wdLoad n else s := by
  simp [State.wdKick, hstand, hcls]
theorem State.wdKick_stranger {s : State} {m : Master} {n : Nat} (h : ∀ x, m = .thread x → (s.thr x).stand ≠ n ∨ (s.thr x).cls = .idle) :
    s.wdKick m n 0xC35A = s.rset (rStcStat n) 3 := by
  cases m with
  | thread x =>
    have hx : ¬ ((s.thr x).stand = n ∧ (s.thr x).cls ≠ .idle) := fun ⟨hstand, hcls⟩ => (h x rfl).elim (absurd hstand) hcls
    simp [State.wdKick, hx]
  | _ => rfl
/-- The count loaded is WDTMO, 0 taken as 1. -/
theorem State.wdLoad_count (s : State) (n : Nat) : (s.wdLoad n).rfld (rStcStat n) 16 16 =
    if s.rfld (rStcCfg n) 16 16 = 0 then 1 else s.rfld (rStcCfg n) 16 16 := by
  have hlt : s.rfld (rStcCfg n) 16 16 < 2 ^ 16 := fld_lt _ _ _
  rw [State.rfld, State.wdLoad, State.reg_rsetFld, if_pos rfl, fld_setFld_same _ _ _ _ (by decide)]
  split
  · rfl
  · exact Nat.mod_eq_of_lt hlt

theorem watchdogExpiry_answers {s : State} {n : Fin 16} (hrun : s.mode = .run) (hon : (s.stand n).wdOn = true)
    (hhalt : s.rbit rDbgShalt n = false) (hstep : (s.stand n).step = .none) (hstate : s.standState n = 1) :
    answers (.watchdogExpiry n) s fun t => (t.stand n).req = true ∧ (t.stand n).causes = (s.stand n).causes ||| 2 ^ 4 ∧
      t.rfld (rStcStat n) 16 16 = 0 ∧ t.standState n = 1 ∧ sameRegs s t (fun a => a = rStcStat n) ∧ dataKept s t := by
  have hrunning : (s.rsetFld (rStcStat n) 16 16 0).standState n = 1 := (s.rfld_watchdogCount n 0 (by decide)).trans hstate
  have hask := State.askStand_waits (s := s.rsetFld (rStcStat n) 16 16 0) (n := n) 4 (by omega) (by omega) hstep
  have hexec : exec (.watchdogExpiry n) s = .next ((s.rsetFld (rStcStat n) 16 16 0).askStand n 4 0) := by
    show execWatchdogExpiry n s = _
    rw [execWatchdogExpiry, if_pos ⟨hrun, hon, by simp [hhalt]⟩]
  refine ⟨_, hexec.trans (congrArg _ hask), by simp, by simp, ?_, hrunning, sameRegs_setReg s _ _, rfl, rfl, rfl⟩
  simp [State.rfld, fld_setFld_same]

/-! ### The storm count (R108) -/

theorem stormDecay_answers {s : State} {n : Fin 16} (hrun : s.mode = .run) (hpos : 0 < s.rfld (rStcStat n) 8 4) :
    answers (.stormDecay n) s fun t => t.rfld (rStcStat n) 8 4 = s.rfld (rStcStat n) 8 4 - 1 ∧
      sameRegs s t (fun a => a = rStcStat n) ∧ dataKept s t := by
  have hlt : s.rfld (rStcStat n) 8 4 < 2 ^ 4 := fld_lt _ _ _
  have hexec : exec (.stormDecay n) s = .next (s.rsetFld (rStcStat n) 8 4 (s.rfld (rStcStat n) 8 4 - 1)) := by
    show execStormDecay n s = _
    simp only [execStormDecay, hrun, hpos, and_self, if_true]
  refine ⟨_, hexec, ?_, sameRegs_setReg s _ _, rfl, rfl, rfl⟩
  rw [State.rfld, State.reg_rsetFld, if_pos rfl, fld_setFld_same _ _ _ _ (by decide)]
  exact Nat.mod_eq_of_lt (by omega)

/-- Settles O50, clause by clause. That the ends of times come as commands is the model's choice (notes/assumptions/36.md). -/
theorem standCommandsAreChecked : Obligations.StandCommandsAreChecked := by
  unfold Obligations.StandCommandsAreChecked
  intro s m n key c k hm
  dsimp only
  refine ⟨?accepted, ?unpark, ?parked, ?refused, ?kick, ?badKick, ?keylessKick, ?expiry, ?decay⟩
  case accepted =>
    intro hc hstate h4
    have h0 : s.standState n ≠ 0 := by omega
    have h3 : s.standState n ≠ 3 := by omega
    have h5 : s.standState n ≠ 5 := by omega
    have hrestart := (State.stcCtl_restart hc h0).trans (if_neg h3)
    refine ⟨fun hstep => ?_, fun hstep => ?_, ?_⟩
    · refine answers_of_gated hm rfl ?_
      rw [hrestart, State.askStand_waits c h0 h5 hstep]
      exact ⟨by simp, by simp, rfl, rfl, rfl, rfl⟩
    · refine answers_of_gated hm rfl ?_
      rw [hrestart, State.askStand_absorbed c h0 h5 hstep, State.latchCause_eq_rset _ _ (by omega)]
      refine ⟨by simp, by simp, ?_, rfl, rfl, rfl⟩
      rw [State.reg_modStand, State.reg_rset, if_pos rfl, getLsbD_setBit _ _ _ (by omega)]
      simp
    · exact answers_of_gated hm rfl ((State.stcCtl_unpark hc h0).trans (if_neg h3))
  case unpark =>
    intro hc h3 hold
    refine answers_of_gated hm rfl ?_
    rw [State.stcCtl_unpark hc (by omega), if_pos h3]
    exact State.unparked hold
  case parked => exact fun hc h3 => answers_of_gated hm rfl ((State.stcCtl_restart hc (by omega)).trans (if_pos h3))
  case refused =>
    intro h
    have hkey {b : Nat} (hb : b = 16 ∨ b = 17) : fld (BitVec.ofNat 32 (key.toNat + 2 ^ b)) 0 16 ≠ 0x5E7D ∨ s.stcWriter m n = none :=
      h.imp_left fun hk => by rw [fld_key key hb]; exact BitVec.toNat_ne_iff_ne.2 hk
    obtain ⟨hbad, hnone⟩ := State.stcCtl_unwritten (hkey (.inl rfl))
    obtain ⟨hbad', hnone'⟩ := State.stcCtl_unwritten (hkey (.inr rfl))
    exact ⟨fun x hx => ⟨answers_of_gated hm rfl (hbad x hx), answers_of_gated hm rfl (hbad' x hx)⟩,
      fun hx => ⟨answers_of_gated hm rfl (hnone hx), answers_of_gated hm rfl (hnone' hx)⟩⟩
  case kick =>
    intro hstand hcls
    have hkick := State.wdKick_member hstand hcls
    refine ⟨fun hon => ?_, fun hon => ?_⟩
    · refine answers_of_gated hm (t := s.wdLoad n) (by rw [← hkick.trans (if_pos hon)]; rfl) ?_
      exact ⟨s.wdLoad_sameRegs n, ⟨rfl, rfl, rfl⟩, s.wdLoad_count n, s.wdLoad_rfld n (by decide)⟩
    · exact answers_of_gated hm rfl (hkick.trans (if_neg (by simp [hon])))
  case badKick => exact fun h => answers_of_gated hm rfl (State.wdKick_stranger h)
  case keylessKick => exact fun h => answers_of_gated hm rfl (State.wdKick_unkeyed (BitVec.toNat_ne_iff_ne.2 h))
  case expiry => exact watchdogExpiry_answers
  case decay => exact stormDecay_answers

end Machine
end Sys2Proof
end

section
/-! Stand restarts under an image that names a timer no block has. The statement bounds the timers of the restart copy nowhere, where R140
admits 0 to 63. "Timer" 1084 has, by the address arithmetic of TMn_CTL, its control register at EV_CTL: its start at the release sets
compatibility mode (R339), so the pulse on Q268 that follows goes by the matrix and no longer by the candidate enables. -/
namespace Sys2Proof
namespace Machine

/-- A restart copy whose one record is that timer, enabled, of stand 0. -/
def strayTimerImage : Image := { timers := [{ n := 1084, stand := 0, ctl := 1#32, phase := 0#32, cmp := 0#32 }] }
/-- Stand 0 is restored and to be released; route 12 has a record and listens to Q268 (R337). -/
def strayTimer : State :=
  { State.reset with
    mode := .run, regs := [(rStcStat 0, 2#32), (rEvCfg 12, 0x100080#32)], stands := [(0, { step := .restored })]
    image := some strayTimerImage }
/-- Before the release Q268 fires route 12. -/
theorem strayTimer_routesOf : strayTimer.routesOf 268 = [12] := by decide +kernel

/-- A thread record; the clause that fails speaks of none. -/
def strayThread : ThreadRec := { n := 0, cls := 1, twin := false, stand := 0, entry := 0x400000#24, tvec := 0#24, arg := 0#32 }

/-- The pulses that wait where a command completes. -/
def pulsesLeft (o : Out) : List (Nat × Nat) := match o with
  | .next t => t.fires
  | _ => []
/-- The release starts the timer and with it compatibility mode, and its pulse fires nothing. -/
theorem strayTimer_pulsesLeft : pulsesLeft (exec (.standRelease 0 []) strayTimer) = [] := by decide +kernel

/-- Refutes O49: its clause for a release says that Q268 fires the routes that it would have fired before the command, and in `strayTimer`
the release changes which these are. The loader takes no image with such a timer (R140). -/
theorem not_threadAndStandRestartsRunTheirSteps : ¬ Obligations.ThreadAndStandRestartsRunTheirSteps := by
  unfold Obligations.ThreadAndStandRestartsRunTheirSteps
  intro h
  obtain ⟨-, -, -, hrelease⟩ := h strayTimer 0 0 strayTimerImage strayThread strayThread [] rfl rfl
  obtain ⟨t, ht, -, -, -, -, -, -, ⟨l, hfires⟩, -⟩ := (hrelease rfl (by decide)).1 (by decide) rfl
  have hmodel : t.fires = [] := by
    rw [← strayTimer_pulsesLeft, ht]
    rfl
  have hstated : t.fires ≠ [] := by
    rw [hfires, strayTimer_routesOf]
    simp
  exact hstated hmodel

end Machine
end Sys2Proof
end

section
/-! The commands of the image loader (R134, R147, R148, R150): which words act for their writers, how a load begins, goes on and ends. -/
namespace Sys2Proof
namespace Machine

/-! ### BC_IMGCTL (R147, R150) -/

/-- The key of a command is the lower half of the word it stands for. -/
theorem fld_keyed (key : BitVec 16) (cmd : Nat) : fld (BitVec.ofNat 32 (key.toNat + cmd * 2 ^ 16)) 0 16 = key.toNat := by
  have := key.isLt
  simp only [fld, BitVec.toNat_ofNat]
  omega

section
variable {s : State} {m : Master} {v : Word}

/-- A command from one of its writers acts as from a secure privileged host. -/
theorem State.imgCtl_eq_host {cmd : Nat} (hcmd : fld v 16 4 = cmd) (hw : s.imgWriter m cmd = true) :
    s.imgCtl m v = s.imgCtl (.host true true) v := by
  subst hcmd
  cases m with
  | host sec priv =>
    obtain ⟨rfl, rfl⟩ := Bool.and_eq_true_iff.1 hw
    rfl
  | _ => simp only [State.imgCtl, hw]; rfl

theorem State.imgCtl_unkeyed (hm : ∀ x y, m ≠ .host x y) (hkey : fld v 0 16 ≠ 0x1A6E) : s.imgCtl m v = s.rset rBcImgStat 6 := by
  cases m with
  | host x y => exact absurd rfl (hm x y)
  | _ => simp [State.imgCtl, hkey]

section
variable (hkey : fld v 0 16 = 0x1A6E) (hotp : s.boot.otp = none)
include hkey hotp

theorem State.imgCtl_reload (hcmd : fld v 16 4 = 1) (hw : s.imgWriter m 1 = true) (hmode : s.mode = .run) (hidle : s.boot.reload = none) :
    s.imgCtl m v = ({ s with boot := { s.boot with reload := some v } } : State).cpAsk (s.tokenReq v 0 1) := by
  rw [State.imgCtl_eq_host hcmd hw]
  simp [State.imgCtl, State.imgWriter, hkey, hotp, hcmd, hmode, hidle]
theorem State.imgCtl_srcload (hcmd : fld v 16 4 = 2) (hw : s.imgWriter m 2 = true) (hmode : s.mode = .recovery) (hidle : s.imgState = 0) :
    s.imgCtl m v = s.srcLoad := by
  rw [State.imgCtl_eq_host hcmd hw]
  simp [State.imgCtl, State.imgWriter, hkey, hotp, hcmd, hmode, hidle]
theorem State.imgCtl_srcload_wrongMode (hcmd : fld v 16 4 = 2) (hw : s.imgWriter m 2 = true) (hmode : s.mode ≠ .recovery) :
    s.imgCtl m v = s.rset rBcImgStat 6 := by
  rw [State.imgCtl_eq_host hcmd hw]
  simp [State.imgCtl, State.imgWriter, hkey, hotp, hcmd, hmode]
theorem State.imgCtl_stream (hcmd : fld v 16 4 = 3) (hw : s.imgWriter m 3 = true) (hmode : s.mode = .recovery) (hidle : s.imgState = 0) :
    s.imgCtl m v = s.loadBegin { src := 3 } 1 := by
  rw [State.imgCtl_eq_host hcmd hw]
  simp [State.imgCtl, State.imgWriter, hkey, hotp, hcmd, hmode, hidle]
theorem State.imgCtl_abort {l : Load} (hcmd : fld v 16 4 = 4) (hw : s.imgWriter m 4 = true) (hmode : s.mode = .recovery)
    (hload : s.boot.load = some l) (hst : s.imgState = 1 ∨ s.imgState = 3) :
    s.imgCtl m v = (s.setFlash .none).loadFail { l with second := true } 0x3C l.bytes.length false := by
  rw [State.imgCtl_eq_host hcmd hw]
  simp [State.imgCtl, State.imgWriter, hkey, hotp, hcmd, hmode, hload, hst]
end
end

/-! ### The beginning of a load (R148) -/

@[simp] theorem State.imgState_setImgBytes (s : State) (n : Nat) : (s.setImgBytes n).imgState = s.imgState := by
  simp only [State.imgState, State.rfld, State.setImgBytes, State.reg_rsetFld, if_true]
  exact fld_setFld_other _ _ _ _ _ _ (by decide) (by decide)
theorem State.imgState_setImgState (s : State) {v : Nat} (hv : v < 8) : (s.setImgState v).imgState = v := by
  simp only [State.imgState, State.rfld, State.setImgState, State.reg_rsetFld, if_true]
  rw [fld_setFld_same _ _ _ _ (by decide), Nat.mod_eq_of_lt (by omega)]

/-- A load that begins finds the memories filled. -/
theorem State.loadBegin_begun (s : State) (l : Load) {st : Nat} (hst : st < 8) :
    (s.loadBegin l st).imgState = st ∧ (s.loadBegin l st).boot.load = some l ∧ (s.loadBegin l st).mem = [] :=
  ⟨by rw [State.loadBegin, State.imgState_setImgBytes, State.imgState_setImgState _ hst], rfl, rfl⟩

/-! ### The end of a load in RECOVERY (R114, R149) -/

theorem State.bootErr_code (s : State) {code : Nat} (hcode : code < 256) (src off : Nat) :
    fld ((s.bootErr code src off).reg rBcBootErr) 0 8 = code := by
  simp only [State.bootErr, State.reg_setReg, if_true, fld, BitVec.toNat_ofNat]
  omega
theorem State.zonesBlank_mode (s : State) : s.zonesBlank.mode = s.mode :=
  State.each_keeps State.mode (List.range 8) (fun s z => if (s.zoneOtp z).2 then s else s.zoneSet z {} false)
    (fun s z => by split <;> rfl) s

/-- No load is running, BC_IMGSTAT.STATE is idle, BC_BOOTERR names an aborted load, and the block stays in RECOVERY. -/
def loadAborted (t : State) : Prop :=
  t.boot.load = none ∧ t.imgState = 0 ∧ fld (t.reg rBcBootErr) 0 8 = 0x3C ∧ t.mode = .recovery

/-- A load given up in RECOVERY tries no second source: R134 names one for the codes 0x31 to 0x3B alone. -/
theorem State.loadFail_aborted {s : State} (hmode : s.mode = .recovery) (l : Load) (off : Nat) :
    loadAborted (s.loadFail l 0x3C off false) := by
  have hend : s.loadFail l 0x3C off false =
      (((({ s.fill.zonesBlank with phase := 3 } : State).setLoad none).bootErr 0x3C l.src off)).setImgState 0 := by
    cases hlink : l.link <;> simp [State.loadFail, hmode, hlink]
  rw [hend]
  refine ⟨rfl, State.imgState_setImgState _ (by decide), ?_, (State.zonesBlank_mode _).trans hmode⟩
  rw [State.setImgState, State.reg_rsetFld, if_neg (by decide)]
  exact State.bootErr_code _ (by decide) _ _

/-! ### Bytes of a stream (R148) -/

theorem State.writeBytes_frame (b : List Byte) : ∀ (s : State) (a : Nat), s.writeBytes a b = { s with mem := (s.writeBytes a b).mem } := by
  induction b with
  | nil => intro s a; rfl
  | cons x b ih => intro s a; rw [State.writeBytes, ih]; rfl
/-- What the loader writes of program bytes and initial data changes memory only. -/
theorem State.loadMem_frame (s : State) (b : List Byte) : s.loadMem b = { s with mem := (s.loadMem b).mem } := by
  unfold State.loadMem
  generalize loadedBytes b (leNat ((b.drop 19).take 1)) 64 = recs
  induction recs generalizing s with
  | nil => rfl
  | cons r recs ih => rw [List.foldl_cons, ih, State.writeBytes_frame]
/-- Bytes after which more are awaited are kept with those before, and STATE stays as it is. -/
theorem State.loadTake_awaits {s : State} {b : List Byte} (hparse : s.parse b = .error none) (l : Load) :
    (s.loadTake l b).boot.load = some { l with bytes := b } ∧ (s.loadTake l b).imgState = s.imgState ∧
    (s.loadTake l b).chans = s.chans := by
  have htake : s.loadTake l b = ((s.setLoad (some { l with bytes := b })).setImgBytes b.length).loadMem b := by
    simp [State.loadTake, hparse]
  rw [htake, State.loadMem_frame]
  exact ⟨rfl, State.imgState_setImgBytes _ _, rfl⟩

theorem bcImginWrite_answers {s : State} {m : Master} {v : Word} {l : Load} (hload : s.boot.load = some l) (hm : s.mode ≠ .halted)
    (hst : s.imgState = 1) (hhost : ∀ x y, m = .host x y → x = true ∧ y = true)
    (hparse : s.parse (l.bytes ++ leBytes 4 v.toNat) = .error none) :
    answers (.bcImginWrite m v) s fun t => t.boot.load = some { l with bytes := l.bytes ++ leBytes 4 v.toNat } ∧
      t.imgState = 1 ∧ t.chans = s.chans := by
  have hin : s.imgIn v = s.loadTake l (l.bytes ++ leBytes 4 v.toNat) := by simp [State.imgIn, hload, hst]
  have htaken := State.loadTake_awaits hparse l
  rw [← hin, hst] at htaken
  refine answers_of_gated hm (t := s.imgIn v) ?_ htaken
  cases m with
  | host x y => obtain ⟨rfl, rfl⟩ := hhost x y rfl; rfl
  | _ => rfl

theorem streamIdleTimeout_answers {s : State} {l : Load} (hload : s.boot.load = some l) (hst : s.imgState = 1 ∨ s.imgState = 2)
    (hmode : s.mode = .recovery) : answers .streamIdleTimeout s loadAborted :=
  answers_of_gated (by simp [hmode]) (by simp [exec, execStreamIdleTimeout, hload, hst]) (State.loadFail_aborted hmode l l.bytes.length)

end Machine
end Sys2Proof
end

section
/-! The commands that burn OTP and their burn steps (R123, R124, R126–R130), and with the loader's commands O48. -/
namespace Sys2Proof
namespace Machine

/-! ### The steps of a command (R123, R124, R126, R128) -/

/-- The four copies of bit `b` of the lock word (R124). -/
def lockCopies (b : Nat) : List (Nat × Word) := (List.range 4).map (fun k => (0x124 + k, BitVec.ofNat 32 (2 ^ b)))

/-- The two copies of bit `k` of the anti-rollback word (R122, R123). -/
def floorCopies (k : Nat) : List (Nat × Word) :=
  [(0x120 + k / 32, BitVec.ofNat 32 (2 ^ (k % 32))), (0x122 + k / 32, BitVec.ofNat 32 (2 ^ (k % 32)))]
theorem flatten_map_range_one {α : Type} (n : Nat) (g : Nat → List α) :
    ((List.range (n + 1 - n)).map (fun i => g (n + i))).flatten = g n := by
  rw [Nat.add_sub_cancel_left, List.range_one, List.map_singleton, List.flatten_singleton, Nat.add_zero]

section
variable {s : State}

theorem State.otpSteps_burngen {g : Nat} (hg : s.blankGen = some g) (zone : Nat) :
    s.otpSteps 1 zone = some ((List.range 32).map (fun i => (0x80 + 32 * g + i,
      ((List.range 31).map (fun i => s.reg (rOtpStage i)) ++ [crcWords ((List.range 31).map (fun i => s.reg (rOtpStage i)))]).getD i 0#32))) := by
  simp only [State.otpSteps, hg]
theorem State.otpSteps_arbraise {im : Image} (him : s.image = some im) (zone : Nat) :
    s.otpSteps 2 zone = some ((List.range (im.epoch - s.arbFloor)).map (fun i => floorCopies (s.arbFloor + i))).flatten := by
  simp only [State.otpSteps, him, floorCopies]
theorem State.otpSteps_arbraise_one {im : Image} (him : s.image = some im) (hepoch : s.arbFloor + 1 = im.epoch) (zone : Nat) :
    s.otpSteps 2 zone = some (floorCopies s.arbFloor) := by
  rw [State.otpSteps_arbraise him, ← hepoch, flatten_map_range_one]
theorem State.otpSteps_lock1 (h : s.lockWord.getLsbD 0 = false) (zone : Nat) : s.otpSteps 3 zone = some (lockCopies 0) :=
  if_neg (ne_true_of_eq_false h)
theorem State.otpSteps_lock1_burned (h : s.lockWord.getLsbD 0 = true) (zone : Nat) : s.otpSteps 3 zone = none := if_pos h
theorem State.otpSteps_lock2 (h : s.lockWord.getLsbD 1 = false) (zone : Nat) : s.otpSteps 4 zone = some (lockCopies 1) :=
  if_neg (ne_true_of_eq_false h)
theorem State.otpSteps_testdis (h : s.lockWord.getLsbD 2 = false) (zone : Nat) : s.otpSteps 6 zone = some (lockCopies 2) :=
  if_neg (ne_true_of_eq_false h)
theorem State.otpSteps_zoneburn {zone : Nat} (h0 : (s.fuse (0x128 + 4 * zone + 3)).getLsbD 0 = false)
    (h1 : (s.fuse (0x128 + 4 * zone + 3)).getLsbD 1 = false) :
    s.otpSteps 5 zone = some ((List.range 3).map (fun i => (0x128 + 4 * zone + i, s.reg (rOtpStage i))) ++ [(0x128 + 4 * zone + 3, 3#32)]) := by
  simp only [State.otpSteps, h0, h1, Bool.or_self, Bool.false_eq_true, if_false]
end

/-! ### OTP_CTL (R126, R127, R129) -/

theorem zoneburn_word (zone : Fin 8) :
    fld (BitVec.ofNat 32 ((0xA17C#16).toNat + 5 * 2 ^ 16 + zone.val * 2 ^ 20)) 0 16 = 0xA17C ∧
    fld (BitVec.ofNat 32 ((0xA17C#16).toNat + 5 * 2 ^ 16 + zone.val * 2 ^ 20)) 16 4 = 5 ∧
    fld (BitVec.ofNat 32 ((0xA17C#16).toNat + 5 * 2 ^ 16 + zone.val * 2 ^ 20)) 20 3 = zone.val := by
  revert zone; decide

/-- An OTP command of these steps waits for the check of its token; no fuse and no register has changed. -/
def burnsAfterToken (s : State) (steps : List (Nat × Word)) (t : State) : Prop :=
  (∃ ctl, t.boot.otp = some { ctl := ctl, check := true, steps := steps, all := steps }) ∧
  t.otp = s.otp ∧ t.regs = s.regs ∧ ∃ r, t.ports.cpWait = s.ports.cpWait ++ [r] ∧ r.user = .command ∧ r.dslot = 0

section
variable {s : State} {m : Master} {v : Word} {cmd : Nat}

/-- A command from one of its writers acts as from a secure privileged host. -/
theorem State.otpCtl_eq_host (hcmd : fld v 16 4 = cmd) (hw : s.otpWriter m cmd = true) :
    s.otpCtl m v = s.otpCtl (.host true true) v := by
  subst hcmd
  cases m with
  | host sec priv =>
    obtain ⟨rfl, rfl⟩ := Bool.and_eq_true_iff.1 hw
    rfl
  | _ => simp only [State.otpCtl, hw]; rfl

/-- A command whose target is burned, locked or exhausted is refused (R126). -/
theorem State.otpCtl_exhausted (himg : s.imgState = 0) (hcmd : fld v 16 4 = cmd) (hw : s.otpWriter m cmd = true)
    (hsteps : s.otpSteps cmd (fld v 20 3) = none) : s.otpCtl m v = s.rset rOtpStat 24 := by
  rw [State.otpCtl_eq_host hcmd hw]
  simp [State.otpCtl, himg, hcmd, hsteps]

section
variable {steps : List (Nat × Word)} (hkey : fld v 0 16 = 0xA17C) (himg : s.imgState = 0) (hotp : s.boot.otp = none)
  (hcmd : fld v 16 4 = cmd) (hw : s.otpWriter m cmd = true) (hsteps : s.otpSteps cmd (fld v 20 3) = some steps)
include hkey himg hotp hcmd hw hsteps

/-- A command of RECOVERY has its token checked before it burns (R127). -/
theorem answers_of_otpToken {c : Instr} (hc : exec c s = .next (s.gated (s.otpCtl m v))) (hmode : s.mode = .recovery)
    (hcmdMode : otpMode cmd .recovery = true) (hlo : 0 < cmd) (hhi : cmd ≤ 6) : answers c s (burnsAfterToken s steps) := by
  have harb : cmd ≠ 2 := by
    rintro rfl
    exact absurd hcmdMode (by decide)
  have hask : s.otpCtl m v =
      ({ s with boot := { s.boot with otp := some { ctl := v, check := true, steps := steps, all := steps } } } : State).cpAsk
        (s.tokenReq v (if cmd = 1 then 31 else if cmd = 5 then 3 else 0) 0) := by
    rw [State.otpCtl_eq_host hcmd hw]
    simp [State.otpCtl, State.otpWriter, hkey, himg, hotp, hcmd, hsteps, hmode, hcmdMode, harb, Nat.ne_of_gt hlo, Nat.not_lt.2 hhi]
  refine answers_of_gated (by simp [hmode]) hc ?_
  rw [hask]
  exact ⟨⟨v, rfl⟩, rfl, rfl, _, rfl, rfl, rfl⟩
/-- ARBRAISE needs no token (R123): its steps begin at once. -/
theorem State.otpCtl_arbraise (harb : cmd = 2) (hmode : s.mode = .run) :
    s.otpCtl m v = s.otpBurn { ctl := v, check := false, steps := steps, all := steps } := by
  subst harb
  rw [State.otpCtl_eq_host hcmd hw]
  simp [State.otpCtl, State.otpWriter, otpMode, hkey, himg, hotp, hcmd, hsteps, hmode]
end
end

theorem State.otpBurn_steps {s : State} {o : OtpOp} (h : o.steps ≠ []) :
    s.otpBurn o = { s with boot := { s.boot with otp := some { o with check := false } } } := by
  simp [State.otpBurn, h]

/-! ### Burn steps (R128, R130) -/

/-- A step burns its bits but for those missed. -/
def State.burned (s : State) (w : Nat) (bits missed : Word) : State :=
  { s with otp := Bank.put (fun _ => 0#32) s.otp w (s.fuse w ||| (bits &&& ~~~ missed)) }
theorem State.fuse_burned_same (s : State) (w : Nat) (bits missed : Word) :
    (s.burned w bits missed).fuse w = s.fuse w ||| (bits &&& ~~~ missed) := Bank.get_put_same _ _ _ _
theorem State.fuse_burned_other (s : State) {w k : Nat} (bits missed : Word) (hk : k ≠ w) : (s.burned w bits missed).fuse k = s.fuse k :=
  Bank.get_put_other _ _ _ hk

/-- The mirror is loaded into registers alone. -/
theorem State.loadMirror_keeps {β : Type} (g : State → β) (hg : ∀ s a v, g (State.setReg s a v) = g s) (s : State) :
    g s.loadMirror = g s := by
  simp only [State.loadMirror, hg]
  generalize List.range 512 = words
  exact State.each_keeps g words (fun s w => s.setReg (rOtpMirror w) (s.fuse w)) (fun s _ => hg s _ _) s
/-- A command that burned no whole words ends done where every bit of its steps is found burned (R128). -/
theorem State.otpEnd_done {s : State} {o : OtpOp} (hgen : fld o.ctl 16 4 ≠ 1) (hzone : fld o.ctl 16 4 ≠ 5)
    (hall : ∀ p ∈ o.all, s.fuse p.1 &&& p.2 = p.2) : (s.otpEnd o).boot.otp = none ∧ (s.otpEnd o).otp = s.otp ∧
      ((s.otpEnd o).reg rOtpStat).getLsbD 21 = true := by
  have hend : s.otpEnd o = (({ s with boot := { s.boot with otp := none } } : State).loadMirror).rset rOtpStat 21 := by
    unfold State.otpEnd
    exact if_pos (by simpa [hgen, hzone] using fun a b h => hall (a, b) h)
  rw [hend]
  refine ⟨?_, ?_, ?_⟩
  · rw [State.rset_boot, State.loadMirror_keeps State.boot (fun _ _ _ => rfl)]
  · rw [State.rset_otp, State.loadMirror_keeps State.otp (fun _ _ _ => rfl)]
  · rw [State.reg_rset, if_pos rfl, getLsbD_setBit _ _ _ (by decide)]
    exact Bool.or_true _

section
variable {s : State} {o : OtpOp} {w : Nat} {bits : Word} {rest : List (Nat × Word)} (hotp : s.boot.otp = some o)
  (hsteps : o.steps = (w, bits) :: rest) (hcheck : o.check = false) (hgo : o.stepped = false)
include hotp hsteps hcheck hgo

/-- A step that is not the last of its command, or that ends in a freeze, burns its bits; the command goes on from there. -/
theorem otpBurnStepDone_goesOn (missed : Word) (hmore : rest ≠ [] ∨ s.mode = .halted) : answers (.otpBurnStepDone missed) s fun t =>
    t.fuse w = s.fuse w ||| (bits &&& ~~~ missed) ∧ (∀ k, k ≠ w → t.fuse k = s.fuse k) ∧
    t.boot.otp = some { o with steps := rest, stepped := decide (s.mode = .halted) } ∧ t.regs = s.regs := by
  refine ⟨{ s.burned w bits missed with boot := { s.boot with otp := some { o with steps := rest, stepped := decide (s.mode = .halted) } } },
    ?_, s.fuse_burned_same w bits missed, fun k hk => s.fuse_burned_other bits missed hk, rfl, rfl⟩
  have hgoes : ¬ (rest.isEmpty = true ∧ s.mode ≠ .halted) := fun ⟨hnil, hm⟩ =>
    hmore.elim (fun hrest => hrest (List.isEmpty_iff.1 hnil)) hm
  simp only [exec, execOtpBurnStepDone, hotp, hsteps, hcheck, hgo, if_neg hgoes]
  rfl
/-- The last step burns its bits and the command ends. -/
theorem otpBurnStepDone_ends (missed : Word) (hlast : rest = []) (hm : s.mode ≠ .halted) :
    exec (.otpBurnStepDone missed) s = .next ((s.burned w bits missed).otpEnd o) := by
  subst hlast
  simp [exec, execOtpBurnStepDone, hotp, hsteps, hcheck, hgo, hm, State.burned]
end

/-- Settles O48, clause by clause. Where an OTP command keeps OTP_STAT as it was, and a lock counts as burned where one of its copies is,
the statement follows the model's choices (notes/assumptions/26.md, 38.md, 39.md). -/
theorem loaderAndOtpCommandsAct : Obligations.LoaderAndOtpCommandsAct := by
  unfold Obligations.LoaderAndOtpCommandsAct
  intro s m key auto zone g v l o w bits missed p rest
  dsimp only
  refine ⟨fun hotp => ⟨?reload, fun hmode => ⟨?srcload, ?stream, ?abort⟩, ?wrongMode⟩, ?unkeyed, ?streamed, ?idle,
    fun himg hotp => ⟨fun hmode => ⟨?burngen, ?lock1, ?lock2, ?testdis, ?zoneburn, ?locked⟩, ?arbraise⟩,
    fun hotp hsteps hcheck hgo => ⟨?further, ?frozen, ?last⟩⟩
  case reload =>
    intro hw hmode hidle
    refine answers_of_gated (by simp [hmode]) rfl ?_
    rw [State.imgCtl_reload (by cases auto <;> rfl) hotp (by cases auto <;> rfl) hw hmode hidle]
    exact ⟨rfl, rfl, hmode, _, rfl, rfl, rfl⟩
  case srcload =>
    intro hw hidle
    refine answers_of_gated (by simp [hmode]) rfl ?_
    rw [State.imgCtl_srcload rfl hotp rfl hw hmode hidle]
    exact s.loadBegin_begun _ (by decide)
  case stream =>
    intro hw hidle
    refine answers_of_gated (by simp [hmode]) rfl ?_
    rw [State.imgCtl_stream rfl hotp rfl hw hmode hidle]
    exact s.loadBegin_begun _ (by decide)
  case abort =>
    intro hw hload hst
    refine answers_of_gated (by simp [hmode]) rfl ?_
    rw [State.imgCtl_abort rfl hotp rfl hw hmode hload (.inl hst)]
    obtain ⟨hnone, hidle, hcode, -⟩ := State.loadFail_aborted (s := s.setFlash .none) hmode { l with second := true } l.bytes.length
    exact ⟨hnone, hidle, hcode⟩
  case wrongMode =>
    intro hw hmode
    exact answers_of_gated (by simp [hmode]) rfl (State.imgCtl_srcload_wrongMode rfl hotp rfl hw (by simp [hmode]))
  case unkeyed =>
    intro hkey hm
    exact answers_of_gated hm rfl (State.imgCtl_unkeyed (by simp) (by rw [fld_keyed]; exact BitVec.toNat_ne_iff_ne.2 hkey))
  case streamed => exact bcImginWrite_answers
  case idle => exact fun hload _ hst hmode => streamIdleTimeout_answers hload hst hmode
  case burngen =>
    exact fun hw hg => answers_of_otpToken (cmd := 1) rfl himg hotp rfl hw (State.otpSteps_burngen hg _) rfl hmode rfl (by decide) (by decide)
  case lock1 =>
    exact fun hw hfree => answers_of_otpToken (cmd := 3) rfl himg hotp rfl hw (State.otpSteps_lock1 hfree _) rfl hmode rfl (by decide) (by decide)
  case lock2 =>
    exact fun hw hfree => answers_of_otpToken (cmd := 4) rfl himg hotp rfl hw (State.otpSteps_lock2 hfree _) rfl hmode rfl (by decide) (by decide)
  case testdis =>
    exact fun hw hfree => answers_of_otpToken (cmd := 6) rfl himg hotp rfl hw (State.otpSteps_testdis hfree _) rfl hmode rfl (by decide) (by decide)
  case zoneburn =>
    intro hw h0 h1
    obtain ⟨hkey, hcmd, hzone⟩ := zoneburn_word zone
    exact answers_of_otpToken hkey himg hotp hcmd hw (by rw [hzone]; exact State.otpSteps_zoneburn h0 h1) rfl hmode rfl
      (by decide) (by decide)
  case locked =>
    exact fun hw hlocked => answers_of_gated (by simp [hmode]) rfl
      (State.otpCtl_exhausted himg rfl hw (State.otpSteps_lock1_burned hlocked _))
  case arbraise =>
    intro im hmode hw him hepoch
    refine answers_of_gated (by simp [hmode]) rfl ?_
    rw [State.otpCtl_arbraise (cmd := 2) rfl himg hotp rfl hw (State.otpSteps_arbraise_one him hepoch _) rfl hmode, State.otpBurn_steps (List.cons_ne_nil _ _)]
    exact ⟨rfl, _, rfl, rfl, rfl⟩
  case further =>
    intro hrest
    exact otpBurnStepDone_goesOn hotp hsteps hcheck hgo missed (.inl (by rw [hrest]; simp))
  case frozen =>
    intro hrest hm
    subst hrest
    obtain ⟨t, ht, hw, -, hop, hregs⟩ := otpBurnStepDone_goesOn hotp hsteps hcheck hgo missed (.inr hm)
    exact ⟨t, ht, hw, by simpa [hm] using hop, hregs⟩
  case last =>
    intro hrest hm hcmd hall
    have hfuse : (s.burned w bits 0#32).fuse w = s.fuse w ||| bits := by rw [State.fuse_burned_same, BitVec.not_zero, BitVec.and_allOnes]
    have hread : ∀ p ∈ o.all, (s.burned w bits 0#32).fuse p.1 &&& p.2 = p.2 := by
      rw [hall]
      intro p hp
      obtain rfl := List.mem_singleton.1 hp
      rw [hfuse]
      ext i hi
      simp only [BitVec.getElem_and, BitVec.getElem_or]
      cases bits[i] <;> simp
    obtain ⟨hnone, hkept, hdone⟩ := State.otpEnd_done (by simp [hcmd]) (by simp [hcmd]) hread
    exact ⟨_, otpBurnStepDone_ends hotp hsteps hcheck hgo 0#32 hrest hm, hnone, by rw [State.fuse, hkept]; exact hfuse, hdone⟩

end Machine
end Sys2Proof
end

section
/-! W64 forms (R199, R211, R219): the shared forms on register pairs, then O3. -/
namespace Sys2Proof
namespace Machine

/-! ### Fields that name a pair (R199) -/

theorem evenReg_of_even {r : Reg} (h : r.val % 2 = 0) : evenReg r = true := decide_eq_true h
theorem pairsOk_eq (wide : Bool) (l : List Reg) : pairsOk wide l = (!wide || l.all evenReg) := rfl
theorem pairsOk_one (r : Reg) : pairsOk true [r] = evenReg r := by simp [pairsOk_eq]
theorem pairsOk_two (a b : Reg) : pairsOk true [a, b] = (evenReg a && evenReg b) := by simp [pairsOk_eq]
theorem pairsOk_three (a b c : Reg) : pairsOk true [a, b, c] = even3 a b c := by simp [pairsOk_eq, even3, Bool.and_assoc]

/-! ### The shared forms under W64 -/

theorem aluWide_true (i : Iss) (rd ra rb : Reg) (f : Word → Word → Word) (g : BitVec 64 → BitVec 64 → BitVec 64) (s : State) :
    aluWide i true rd ra rb f g s = s.issuePair i (even3 rd ra rb) rd (fun h => g (h.rpair ra) (h.rpair rb)) := if_pos rfl
theorem cmpWide_true (i : Iss) (rd ra rb : Reg) (f : Word → Word → Bool) (g : BitVec 64 → BitVec 64 → Bool) (s : State) :
    cmpWide i true rd ra rb f g s =
      s.issueVal i (evenReg ra && evenReg rb) rd (fun h => b2w (g (h.rpair ra) (h.rpair rb))) := if_pos rfl

section
variable {s : State} {i : Iss} {rd ra rb : Reg}

/-- A form that writes a pair, its fields being even. -/
theorem State.issuePair_wrote_of_ok {ok : Bool} (h : s.issues i false) (hok : ok = true) (f : Thread → BitVec 64) :
    wrotePair s (s.issuePair i ok rd f) i rd (f (s.thr i.t)) := by
  subst hok
  exact State.issuePair_wrote s i rd f h

theorem aluArith_wide_wrote (h : s.issues i false) (hok : even3 rd ra rb = true) (f : Bool → Word → Word → Word)
    (g : BitVec 64 → BitVec 64 → BitVec 64) :
    wrotePair s (aluArith i .wide rd ra rb f g s) i rd (g ((s.thr i.t).rpair ra) ((s.thr i.t).rpair rb)) :=
  State.issuePair_wrote_of_ok h hok _

theorem aluWide_wide_wrote (h : s.issues i false) (hok : even3 rd ra rb = true) (f : Word → Word → Word)
    (g : BitVec 64 → BitVec 64 → BitVec 64) :
    wrotePair s (aluWide i true rd ra rb f g s) i rd (g ((s.thr i.t).rpair ra) ((s.thr i.t).rpair rb)) := by
  rw [aluWide_true]
  exact State.issuePair_wrote_of_ok h hok _

/-- A compare of pairs writes 1 where its condition holds, else 0, to one register (R219). -/
theorem cmpWide_wide_wrote (h : s.issues i false) (ha : evenReg ra = true) (hb : evenReg rb = true) (f : Word → Word → Bool)
    {g : BitVec 64 → BitVec 64 → Bool} {P : Prop} [Decidable P]
    (hg : g ((s.thr i.t).rpair ra) ((s.thr i.t).rpair rb) = decide P) :
    wrote s (cmpWide i true rd ra rb f g s) i rd (if P then 1#32 else 0#32) := by
  have hw := State.issueVal_wrote s i rd (fun k => b2w (g (k.rpair ra) (k.rpair rb))) h
  simpa only [cmpWide_true, ha, hb, hg, b2w, Bool.and_self, decide_eq_true_eq] using hw

end

/-- Settles O3, from what the shared forms do under W64. -/
theorem wideFormsComputeOnPairs : Obligations.WideFormsComputeOnPairs := by
  unfold Obligations.WideFormsComputeOnPairs
  intro s i rd ra rb imm h ha hb
  have ea := evenReg_of_even ha
  have eb := evenReg_of_even hb
  refine ⟨fun hd => ?pairs, ?seq, ?sne, ?slt, ?sltu⟩
  case pairs =>
    have ed := evenReg_of_even hd
    have e2 : (evenReg rd && evenReg ra) = true := by rw [ed, ea]; rfl
    have e3 : even3 rd ra rb = true := by rw [even3, e2, eb]; rfl
    exact ⟨⟨_, rfl, aluArith_wide_wrote h e3 _ _⟩, ⟨_, rfl, aluArith_wide_wrote h e3 _ _⟩,
      ⟨_, rfl, aluWide_wide_wrote h e3 _ _⟩, ⟨_, rfl, aluWide_wide_wrote h e3 _ _⟩, ⟨_, rfl, aluWide_wide_wrote h e3 _ _⟩,
      ⟨_, rfl, aluArith_wide_wrote h e3 _ _⟩, ⟨_, rfl, aluWide_wide_wrote h e3 _ _⟩, ⟨_, rfl, aluWide_wide_wrote h e3 _ _⟩,
      ⟨_, rfl, State.issuePair_wrote_of_ok h e2 _⟩, ⟨_, rfl, State.issuePair_wrote_of_ok h e2 _⟩,
      ⟨_, rfl, State.issuePair_wrote_of_ok h ed _⟩⟩
  case seq => exact ⟨_, rfl, cmpWide_wide_wrote h ea eb _ rfl⟩
  case sne => exact ⟨_, rfl, cmpWide_wide_wrote h ea eb _ decide_not.symm⟩
  case slt => exact ⟨_, rfl, cmpWide_wide_wrote h ea eb _ rfl⟩
  case sltu => exact ⟨_, rfl, cmpWide_wide_wrote h ea eb _ rfl⟩

end Machine
end Sys2Proof
end

section
/-! Operands that an encoding does not admit (R199, R202, R208): every shared form of issue takes the ILLEGAL trap on them. -/
namespace Sys2Proof
namespace Machine

/-! ### The ILLEGAL trap by form of issue -/

/-- A thread that can issue a compare point can issue any instruction. -/
theorem State.canIssue_of_comparePoint {s : State} {t : Nat} (h : s.canIssue t true = true) (cp : Bool) :
    s.canIssue t cp = true := by
  cases cp
  case true => exact h
  case false =>
    simp only [State.canIssue, Bool.and_eq_true] at h ⊢
    obtain ⟨hrest, -⟩ := h
    exact ⟨hrest, rfl⟩
theorem State.issues_of_comparePoint {s : State} {i : Iss} (h : s.issues i true) (cp : Bool) : s.issues i cp := by
  obtain ⟨hcan, hrest⟩ := h
  exact ⟨State.canIssue_of_comparePoint hcan _, hrest⟩

section
variable {s : State} {i : Iss} (h : s.issues i true)
include h

/-- The ILLEGAL trap as an instruction that issues takes it. -/
theorem exec_illegalInstruction : exec (.illegalInstruction i) s =
    .next (((s.countSlot i).preciseTrap i.t { cause := 1 } (s.thr i.t).pc).stepEnd i.t) :=
  congrArg _ (State.issue_traps s i false _ _ _ (State.issues_of_comparePoint h false) rfl)

theorem State.issue_illegal {cp : Bool} {pre : Thread → Option TrapInfo} {body : Thread → State → State × Option (BitVec 64)}
    (hp : pre (s.thr i.t) = some { cause := 1 }) : (.next (s.issue i cp pre body) : Out) = exec (.illegalInstruction i) s := by
  rw [exec_illegalInstruction h, State.issue_traps s i cp pre body _ (State.issues_of_comparePoint h cp) hp]

/-- A result that comes later hides the CHK mark from the issue; the trap is the same. -/
theorem State.issueLater_illegal {cp : Bool} {pre : Thread → Option TrapInfo}
    {body : Thread → State → State × Option (BitVec 64)} (hp : pre (s.thr i.t) = some { cause := 1 }) :
    (.next (s.issueLater i cp pre body) : Out) = exec (.illegalInstruction i) s := by
  have hplain : s.issues (issPlain i) true := h
  rw [exec_illegalInstruction h]
  exact (State.issue_illegal hplain hp).trans (exec_illegalInstruction hplain)

variable {ok : Bool} (hok : ok = false)
include hok

theorem State.issueVal_illegal {rd : Nat} {f : Thread → Word} :
    (.next (s.issueVal i ok rd f) : Out) = exec (.illegalInstruction i) s :=
  State.issue_illegal h (by rw [hok]; rfl)
theorem State.issuePair_illegal {rd : Nat} {f : Thread → BitVec 64} :
    (.next (s.issuePair i ok rd f) : Out) = exec (.illegalInstruction i) s :=
  State.issue_illegal h (by rw [hok]; rfl)
theorem State.issueDelayedPair_illegal {rd : Nat} {f : Thread → BitVec 64} :
    (.next (s.issueDelayedPair i ok rd f) : Out) = exec (.illegalInstruction i) s :=
  State.issue_illegal h (by rw [hok]; rfl)
theorem State.issueThr_illegal {f : Thread → Thread} : (.next (s.issueThr i ok f) : Out) = exec (.illegalInstruction i) s :=
  State.issue_illegal h (by rw [hok]; rfl)
theorem State.issueWait_illegal {f : Thread → Thread} : (.next (s.issueWait i ok f) : Out) = exec (.illegalInstruction i) s :=
  State.issueLater_illegal h (by rw [hok]; rfl)
theorem State.issueChan_illegal {mk : Thread → ChanOp} : (.next (s.issueChan i ok mk) : Out) = exec (.illegalInstruction i) s :=
  State.issueLater_illegal h (by rw [hok]; rfl)

end

/-! ### The checks of the forms -/

/-- A field descriptor is legal where its fields are (R202). -/
theorem descOk_eq_fieldOk (d : BitVec 16) : descOk d = fieldOk d := by
  have hwidth : decide (d.toNat < 1024) = decide (d.toNat / 1024 = 0) := decide_eq_decide.2 (by omega)
  rw [descOk, hwidth]
  rfl

/-- A pair that is not even, and a load whose SX stands with W32 or W64, are illegal (R198, R199). -/
theorem accessTrap_illegal {sz : Size} {r : Reg} (hok : pairsOk (decide (sz = .b64)) [r] = false) (addr : Thread → Addr) (k : Thread) :
    accessTrap sz r addr k = some { cause := 1 } := by
  have hbad : (decide (sz = .b64) && !evenReg r) = true := by simpa [pairsOk_eq] using hok
  rw [accessTrap, if_pos hbad]
theorem loadTrap_illegal {sz : Size} {sx : Bool} {r : Reg} (hok : loadOk sz sx r = false) (addr : Thread → Addr) (k : Thread) :
    loadTrap sz sx r addr k = some { cause := 1 } := by
  have hsx : (!sx || decide (sz = .b8) || decide (sz = .b16)) = !(sx && decide (sz ≠ .b8) && decide (sz ≠ .b16)) := by
    simp only [ne_eq, decide_not, Bool.not_and, Bool.not_not]
  rw [loadOk, hsx] at hok
  unfold loadTrap
  split
  · rfl
  · rename_i hwide
    rw [eq_false_of_ne_true hwide, Bool.not_false, Bool.true_and] at hok
    exact accessTrap_illegal hok addr k

section
variable {s : State} {i : Iss} {rd ra rb : Reg} (h : s.issues i true)
include h

theorem aluArith_illegal {m : Arith} (hok : arithOk m [rd, ra, rb] = false) {f : Bool → Word → Word → Word}
    {g : BitVec 64 → BitVec 64 → BitVec 64} : (.next (aluArith i m rd ra rb f g s) : Out) = exec (.illegalInstruction i) s := by
  cases m with
  | wide => exact State.issuePair_illegal h ((pairsOk_three rd ra rb).symm.trans hok)
  | wrap => cases hok
  | sat => cases hok
theorem aluWide_illegal {wide : Bool} (hok : pairsOk wide [rd, ra, rb] = false) {f : Word → Word → Word}
    {g : BitVec 64 → BitVec 64 → BitVec 64} :
    (.next (aluWide i wide rd ra rb f g s) : Out) = exec (.illegalInstruction i) s := by
  cases wide with
  | true =>
    rw [aluWide_true]
    exact State.issuePair_illegal h ((pairsOk_three rd ra rb).symm.trans hok)
  | false => cases hok
theorem cmpWide_illegal {wide : Bool} (hok : pairsOk wide [ra, rb] = false) {f : Word → Word → Bool}
    {g : BitVec 64 → BitVec 64 → Bool} :
    (.next (cmpWide i wide rd ra rb f g s) : Out) = exec (.illegalInstruction i) s := by
  cases wide with
  | true =>
    rw [cmpWide_true]
    exact State.issueVal_illegal h ((pairsOk_two ra rb).symm.trans hok)
  | false => cases hok
theorem execMov_illegal {wide : Bool} (hok : pairsOk wide [rd, ra] = false) :
    execMov i wide rd ra s = exec (.illegalInstruction i) s := by
  cases wide with
  | true => exact State.issuePair_illegal h ((pairsOk_two rd ra).symm.trans hok)
  | false => cases hok
theorem execMovi_illegal {wide : Bool} {imm : Word} (hok : pairsOk wide [rd] = false) :
    execMovi i wide rd imm s = exec (.illegalInstruction i) s := by
  cases wide with
  | true => exact State.issuePair_illegal h ((pairsOk_one rd).symm.trans hok)
  | false => cases hok
theorem execAddi_illegal {m : Arith} {imm : Word} (hok : arithOk m [rd, ra] = false) :
    execAddi i m rd ra imm s = exec (.illegalInstruction i) s := by
  cases m with
  | wide => exact State.issuePair_illegal h ((pairsOk_two rd ra).symm.trans hok)
  | wrap => cases hok
  | sat => cases hok
theorem descForm_illegal {d : BitVec 16} (hok : fieldOk d = false) {f : Word → Word → Nat → Nat → Word} :
    (.next (descForm i rd ra d f s) : Out) = exec (.illegalInstruction i) s :=
  State.issueVal_illegal h ((descOk_eq_fieldOk d).trans hok)
theorem issueLoad_illegal {sz : Size} {sx : Bool} (hok : loadOk sz sx rd = false) {addr : Thread → Addr} {at_ : Addr → Addr}
    {post : Thread → Thread} : (.next (s.issueLoad i sz sx rd addr at_ post) : Out) = exec (.illegalInstruction i) s :=
  State.issueLater_illegal h (loadTrap_illegal hok _ _)
theorem execSt_illegal {sz : Size} {nt : Bool} {f : AddrForm} (hok : pairsOk (decide (sz = .b64)) [rd] = false) :
    execSt i sz nt rd f s = exec (.illegalInstruction i) s :=
  State.issue_illegal h (accessTrap_illegal hok _ _)
/-- A channel form under W64 whose data pair is odd. -/
theorem issueChan_odd_illegal {wide : Bool} (hok : pairsOk wide [rd] = false) {mk : Thread → ChanOp} :
    (.next (s.issueChan i (!wide || evenReg rd) mk) : Out) = exec (.illegalInstruction i) s :=
  State.issueChan_illegal h (by simpa [pairsOk_eq] using hok)

end

/-- Settles O12, instruction by instruction: the check that fails is the one its form of issue makes. -/
theorem illegalOperandsTakeTheIllegalTrap : Obligations.IllegalOperandsTakeTheIllegalTrap := by
  unfold Obligations.IllegalOperandsTakeTheIllegalTrap
  intro c s i hi hok h
  have hone {r : Reg} (hr : pairsOk true [r] = false) : evenReg r = false := (pairsOk_one r).symm.trans hr
  have hfield {f : Fin 8} (hf : decide (f.val < 5) = false) : decide (f.val ≤ 4) = false := by simpa [Nat.lt_succ_iff] using hf
  cases c with
  | add | sub | shl => cases hi; exact aluArith_illegal h hok
  | and | or | xor | shr | sra => cases hi; exact aluWide_illegal h hok
  | mov => cases hi; exact execMov_illegal h hok
  | movi => cases hi; exact execMovi_illegal h hok
  | addi => cases hi; exact execAddi_illegal h hok
  | shli | shri | srai | rori | bset | bclr | binv | btst => cases hi; exact State.issueVal_illegal h hok
  | seq | sne | slt | sltu => cases hi; exact cmpWide_illegal h hok
  | ld | ldpc => cases hi; exact issueLoad_illegal h hok
  | st => cases hi; exact execSt_illegal h hok
  | put | pute | tput | tpute | get | tget => cases hi; exact issueChan_odd_illegal h hok
  | xset => cases hi; exact State.issueThr_illegal h (hfield hok)
  | xget => cases hi; exact State.issueVal_illegal h (hfield hok)
  | waitev | waitt => cases hi; exact State.issueWait_illegal h hok
  | ext | exts | ins | clrf | setf => cases hi; exact descForm_illegal h hok
  | mull | mullu | macl | maclu => cases hi; exact State.issueDelayedPair_illegal h (hone hok)
  | crcb | crcw => cases hi; exact State.issueVal_illegal h hok
  | _ => revert hi hok; rintro ⟨⟩ ⟨⟩

end Machine
end Sys2Proof
end

section
/-! Bytes read and written as numbers (R6), and what a read of a clean word of the scratchpad leaves alone (R360, R362). -/
namespace Sys2Proof
namespace Machine

/-! ### Little-endian numbers in memory and in the service ROM -/

theorem State.readLE_lt (s : State) (n : Nat) : ∀ a, s.readLE a n < 256 ^ n := by
  induction n with
  | zero => intro a; exact Nat.one_pos
  | succ n ih =>
    intro a
    have hrest := ih (a + 1)
    have hbyte := (s.byte a).isLt
    simp only [State.readLE, Nat.pow_succ]
    omega
theorem State.romLE_lt (n : Nat) : ∀ a, State.romLE a n < 256 ^ n := by
  induction n with
  | zero => intro a; exact Nat.one_pos
  | succ n ih =>
    intro a
    have hrest := ih (a + 1)
    have hbyte := (Config.romByte a).isLt
    simp only [State.romLE, Nat.pow_succ]
    omega
/-- A read depends on the bytes alone. -/
theorem State.readLE_congr {s t : State} (h : ∀ a, t.byte a = s.byte a) (n : Nat) : ∀ a, t.readLE a n = s.readLE a n := by
  induction n with
  | zero => intro a; rfl
  | succ n ih => intro a; simp only [State.readLE, h, ih]
/-- Byte `k` of a number written. -/
theorem State.byte_writeLE_same (n : Nat) : ∀ (s : State) (a v k : Nat), k < n →
    (s.writeLE a n v).byte (a + k) = BitVec.ofNat 8 (v / 256 ^ k) := by
  induction n with
  | zero => intro s a v k hk; omega
  | succ n ih =>
    intro s a v k hk
    simp only [State.writeLE]
    cases k with
    | zero => simp [State.byte_writeLE_other n _ (a + 1) (v / 256) a (by omega)]
    | succ k =>
      have hrest := ih (s.setByte a (BitVec.ofNat 8 v)) (a + 1) (v / 256) k (by omega)
      rw [show a + (k + 1) = a + 1 + k by omega, hrest, Nat.div_div_eq_div_mul, Nat.pow_succ']
/-- A number read where it was written. -/
theorem State.readLE_writeLE_same (n : Nat) : ∀ (s : State) (a v : Nat), (s.writeLE a n v).readLE a n = v % 256 ^ n := by
  induction n with
  | zero => intro s a v; simp [State.readLE, Nat.mod_one]
  | succ n ih =>
    intro s a v
    have hbyte : ((s.setByte a (BitVec.ofNat 8 v)).writeLE (a + 1) n (v / 256)).byte a = BitVec.ofNat 8 v := by
      simp [State.byte_writeLE_other n _ (a + 1) (v / 256) a (by omega)]
    simp only [State.writeLE, State.readLE, hbyte, ih, BitVec.toNat_ofNat, Nat.pow_succ']
    exact (Nat.mod_mul).symm
theorem State.ofNat_readLE_writeLE (s : State) (a : Nat) (v : Word) : BitVec.ofNat 32 ((s.writeLE a 4 v.toNat).readLE a 4) = v := by
  have hlt : v.toNat < 256 ^ 4 := v.isLt
  rw [State.readLE_writeLE_same, Nat.mod_eq_of_lt hlt, BitVec.ofNat_toNat, BitVec.setWidth_eq]
theorem State.readLE_modThr (s : State) (m : Nat) (f : Thread → Thread) (a n : Nat) : (s.modThr m f).readLE a n = s.readLE a n :=
  State.readLE_congr (s := s) (t := s.modThr m f) (fun _ => rfl) n a

@[simp] theorem State.thr_writeLE (s : State) (a n v m : Nat) : (s.writeLE a n v).thr m = s.thr m := by
  rw [State.writeLE_frame]; rfl
@[simp] theorem State.lane_writeLE (s : State) (a n v b k : Nat) : (s.writeLE a n v).lane b k = s.lane b k := by
  rw [State.writeLE_frame]; rfl
@[simp] theorem State.lane_modThr (s : State) (m : Nat) (f : Thread → Thread) (b k : Nat) : (s.modThr m f).lane b k = s.lane b k := rfl

/-! ### A clean word read through the code -/

/-- Every byte reads as it did, and nothing but the listing of memory differs. -/
def State.sameContents (s t : State) : Prop := t = { s with mem := t.mem } ∧ ∀ a, t.byte a = s.byte a

section
variable {s t : State}

theorem State.sameContents.byte (h : s.sameContents t) (a : Nat) : t.byte a = s.byte a := h.2 a
theorem State.sameContents.thr (h : s.sameContents t) (n : Nat) : t.thr n = s.thr n := by rw [h.1]; rfl
theorem State.sameContents.lane (h : s.sameContents t) (b k : Nat) : t.lane b k = s.lane b k := by rw [h.1]; rfl
theorem State.sameContents.spAddr (h : s.sameContents t) (a : Nat) : t.spAddr a = s.spAddr a := by rw [h.1]; rfl
theorem State.sameContents.spReadLE (h : s.sameContents t) (a n : Nat) : t.spReadLE a n = s.readLE (s.spAddr a) n := by
  rw [State.spReadLE, h.spAddr, State.readLE_congr h.byte]

/-- Bytes rewritten as they stand. -/
theorem State.sameContents_rewrite (w : Nat) (l : List Nat) : ∀ s : State,
    s.sameContents (l.foldl (fun (t : State) j => t.setByte (w + j) (t.byte (w + j))) s) := by
  induction l with
  | nil => exact fun s => ⟨rfl, fun _ => rfl⟩
  | cons j l ih =>
    intro s
    obtain ⟨hframe, hbytes⟩ := ih (s.setByte (w + j) (s.byte (w + j)))
    refine ⟨hframe, fun a => (hbytes a).trans ?_⟩
    rw [State.byte_setByte]
    split
    · rename_i ha; rw [ha]
    · rfl
theorem decode_nil : decode [] = (.clean, []) := rfl

/-- A read of a word that is no poisoned row's and differs nowhere from the word as written is CLEAN, and no byte changes. -/
theorem State.spRead_clean {w : Nat} (hbad : s.spPoisoned w = false) (hkey : s.sp.under = none) (f : Finder) :
    ∃ t, s.spRead w [] f = (.clean, t) ∧ s.sameContents t := by
  have hsame : s.rekey (s.home w) = s := by simp only [State.rekey, hkey]
  have herr : s.readErr (s.home w) [] = [] := by
    have hb : s.badAt (s.home w) = false := hbad
    simp [State.readErr, hb]
  have hread : s.spRead w [] f = (.clean, (List.range 16).foldl
      (fun (t : State) j => t.setByte (16 * s.home w + j) (t.byte (16 * s.home w + j))) s) := by
    simp only [State.spRead, State.readAt, hsame, herr, decode_nil, State.spCount, fixByte, List.append_nil, List.foldl_nil]
  exact ⟨_, hread, State.sameContents_rewrite _ _ s⟩

end

end Machine
end Sys2Proof
end

section
/-! The arbiter of a bank with one request (R354), and what the grant of one request does (R203, R351, R357, R361, R362). -/
namespace Sys2Proof
namespace Machine

/-! ### One request at a bank -/

/-- Nothing but lanes and round-robin pointers of the scratchpad differs. -/
def State.sameButLanes (s t : State) : Prop :=
  t = { s with sp := { s.sp with lanes := t.sp.lanes, p3 := t.sp.p3, p2 := t.sp.p2 } }

section
variable {s t : State} (h : s.sameButLanes t)
include h

theorem State.sameButLanes.byte (a : Nat) : t.byte a = s.byte a := by rw [h]; rfl
theorem State.sameButLanes.readLE (a n : Nat) : t.readLE a n = s.readLE a n := State.readLE_congr h.byte n a
theorem State.sameButLanes.thr (n : Nat) : t.thr n = s.thr n := by rw [h]; rfl
theorem State.sameButLanes.spAddr (a : Nat) : t.spAddr a = s.spAddr a := by rw [h]; rfl
theorem State.sameButLanes.spPoisoned (w : Nat) : t.spPoisoned w = s.spPoisoned w := by rw [h]; rfl
theorem State.sameButLanes.under : t.sp.under = s.sp.under := by rw [h]

end

theorem State.lane_setLane_same (s : State) (b k : Nat) (l : List SpReq) : (s.setLane b k l).lane b k = l :=
  Bank.get_put_same _ _ _ _

section
variable {s : State} {b base n : Nat}

theorem State.robin_none (hall : ∀ k < n, s.lane b (base + k) = []) (hn : 0 < n) (ptr : Nat) : s.robin b base n ptr = none := by
  simp only [State.robin, List.find?_eq_none, List.mem_map]
  rintro k ⟨j, -, rfl⟩
  simp [hall _ (Nat.mod_lt (ptr + j) hn)]
/-- The one input of a round with a request is found from every pointer on. -/
theorem State.robin_only {i : Nat} (hi : i < n) (hlane : s.lane b (base + i) ≠ [])
    (hrest : ∀ k < n, k ≠ i → s.lane b (base + k) = []) (ptr : Nat) : s.robin b base n ptr = some i := by
  have hn : 0 < n := by omega
  have hfound : (s.robin b base n ptr).isSome = true := by
    rw [State.robin, List.find?_isSome]
    refine ⟨i, List.mem_map.2 ⟨(i + (n - ptr % n)) % n, List.mem_range.2 (Nat.mod_lt _ hn), ?_⟩, by simpa using hlane⟩
    have hround : ptr + (i + (n - ptr % n)) = n * (ptr / n + 1) + i := by
      have hlt := Nat.mod_lt ptr hn
      have hdiv := Nat.div_add_mod ptr n
      rw [Nat.mul_add]
      omega
    rw [Nat.add_mod_mod, hround, Nat.mul_add_mod, Nat.mod_eq_of_lt hi]
  obtain ⟨k, hk⟩ := Option.isSome_iff_exists.1 hfound
  have hne : s.lane b (base + k) ≠ [] := by simpa using List.find?_some hk
  obtain ⟨j, -, hj⟩ := List.mem_map.1 (List.mem_of_find?_eq_some hk)
  have hkn : k < n := hj ▸ Nat.mod_lt _ hn
  rw [hk, Option.some_inj]
  exact Classical.byContradiction fun hki => hne (hrest k hkn hki)

end

/-- The grant of a bank at which one request waits, with nothing waiting for its lane: that request, whatever the pointers. -/
theorem State.arbitrate_only {s : State} {b slot : Nat} {r : SpReq} (hslot : slot < 16) (hlane : s.lane b slot = [r])
    (hrest : ∀ k < 18, k ≠ slot → s.lane b k = []) (hxq : s.xqueue (slot % 8) = []) :
    ∃ t, s.arbitrate b = some (r, slot, t) ∧ s.sameButLanes t ∧ t.lane b slot = [] := by
  have hsome : s.lane b slot ≠ [] := by simp [hlane]
  rcases Nat.lt_or_ge slot 8 with h8 | h8
  case inl =>
    have hp3 := State.robin_only (base := 0) h8 (by simpa using hsome) (fun k hk hne => by simpa using hrest k (by omega) hne)
    refine ⟨_, by simp only [State.arbitrate, hp3, hlane, hxq, hslot, if_true, List.length_nil, State.fillLanes]; rfl, ?_, ?_⟩
    · exact rfl
    · exact State.lane_setLane_same _ _ _ _
  case inr =>
    obtain ⟨i, rfl⟩ := Nat.exists_eq_add_of_le h8
    have hp3 : ∀ ptr, s.robin b 0 8 ptr = none :=
      State.robin_none (fun k hk => by simpa using hrest k (by omega) (by omega)) (by decide)
    have hp2 := State.robin_only (n := 9) (i := i) (by omega) hsome (fun k hk hne => hrest _ (by omega) (by omega))
    refine ⟨_, by simp only [State.arbitrate, hp3, hp2, hlane, hxq, hslot, if_true, List.length_nil, State.fillLanes]; rfl, ?_, ?_⟩
    · exact rfl
    · exact State.lane_setLane_same _ _ _ _

/-- A bank's grant in RUN to its only request, no late one: the request is carried out with its lane empty. -/
theorem exec_spAccessGrant_only {s : State} {bank : Fin 36} {slot : Fin 16} {w : Nat} {r : SpReq} (hmode : s.mode = .run) (hw : w ≤ 8)
    (hrest : ∀ k < 18, k ≠ slot.val → s.lane bank k = []) (hxq : s.xqueue (slot.val % 8) = []) (hlane : s.lane bank slot = [r])
    (err : WordErr) :
    ∃ t, exec (.spAccessGrant bank err w) s = .next (t.carryOut r err) ∧ s.sameButLanes t ∧ t.lane bank slot = [] := by
  obtain ⟨t, harb, hkeeps⟩ := State.arbitrate_only slot.isLt hlane hrest hxq
  have hlate : t.p3Late w = t := if_neg (by omega)
  refine ⟨t, ?_, hkeeps⟩
  show execSpAccessGrant bank err w s = _
  simp [execSpAccessGrant, hmode, harb, hlate]

/-! ### What is granted -/

/-- The one access of a thread that waits gets the value that answers it. -/
theorem Thread.defer_settle_only {h : Thread} {p : Deferred → Bool} {d : Deferred} (hd : h.defer = [d]) (hw : d.st = .waiting)
    (hp : p d = true) (v : Nat) : (h.settle p (some v)).defer = [{ d with st := .flight (ldVal d.size d.sx v) }] := by
  simp [Thread.settle, updFirst, hd, hw, hp]
/-- A value of its size reaches the destination as it is. -/
theorem toNat_ldVal {sz : Size} {v : Nat} (hv : v < 256 ^ sizeBytes sz) : (ldVal sz false v).toNat = v := by
  cases sz <;> simp only [sizeBytes] at hv <;> simp [ldVal] <;> omega
/-- A byte of the data of a store. -/
theorem ofNat_toNat_div_eq (v : BitVec 64) (k : Nat) : BitVec.ofNat 8 (v.toNat / 256 ^ k) = (v >>> (8 * k)).setWidth 8 := by
  apply BitVec.eq_of_toNat_eq
  simp [Nat.shiftRight_eq_div_pow, Nat.pow_mul]
/-- MINU and MAXU of equal words give that word, whichever they take (R203). -/
theorem atomNew_minu (old rs cmp : Word) : atomNew .minu old rs cmp = if old.toNat < rs.toNat then old else rs := by
  rcases Decidable.em (old = rs) with rfl | hne
  · simp [atomNew]
  · simp only [atomNew, Nat.le_iff_lt_or_eq, BitVec.toNat_inj, hne, or_false]
theorem atomNew_maxu (old rs cmp : Word) : atomNew .maxu old rs cmp = if old.toNat < rs.toNat then rs else old := by
  rcases Decidable.em (old = rs) with rfl | hne
  · simp [atomNew]
  · simp only [atomNew, Nat.le_iff_lt_or_eq, BitVec.toNat_inj, hne, or_false]
theorem inRom_of_lt_spLimit {s : State} {a : Nat} (h : a < s.spLimit) : inRom a = false := by
  have hsize : s.kind.spSize ≤ 0x400000 := by cases s.kind <;> decide
  have hlim : s.spLimit ≤ s.kind.spSize := Nat.sub_le _ _
  simp only [inRom, Bool.and_eq_false_iff, decide_eq_false_iff_not]
  omega

section
variable {s : State} {n : Nat} {a : Addr}

theorem State.copies_single (htwin : (s.thr n).twin = false) : s.copies n = [n] := by simp [State.copies, htwin]

/-- The grant of the one store that a thread's buffer holds. -/
theorem State.storeAnswer_only {e : StoreEntry} (htwin : (s.thr n).twin = false) (hbuf : (s.thr n).sbuf = [e])
    (hpend : e.grant = .pending) : s.storeAnswer n e true = s.modThr n (fun h => { h with sbuf := [{ e with grant := .granted }] }) := by
  obtain ⟨addr, size, data, grant⟩ := e
  cases hpend
  simp [State.storeAnswer, State.copies_single htwin, State.each, hbuf, State.modThr, markStore]

/-- A load from the service ROM (R357). -/
theorem State.carryOut_loadRom {sz : Size} (hrom : inRom a.toNat = true) : s.carryOut (.load n a sz) [] =
    s.modThr n (fun h => h.settle (isLoad a sz) (some (State.romLE a.toNat (sizeBytes sz)))) := by
  simp [State.carryOut, hrom, romGrant, decode_nil, SpOut.good]

variable (hbad : s.spPoisoned (a.toNat / 16) = false) (hkey : s.sp.under = none)
include hbad hkey

/-- A load of a clean word of the scratchpad. -/
theorem State.carryOut_load {sz : Size} (hrom : inRom a.toNat = false) : ∃ t, s.sameContents t ∧ s.carryOut (.load n a sz) [] =
    t.modThr n (fun h => h.settle (isLoad a sz) (some (s.readLE (s.spAddr a.toNat) (sizeBytes sz)))) := by
  obtain ⟨t, hread, hsame⟩ := State.spRead_clean (w := wordOf a.toNat) hbad hkey .master
  refine ⟨t, hsame, ?_⟩
  simp [State.carryOut, hrom, hread, SpOut.good, hsame.spReadLE]
/-- A store to a clean word of the scratchpad. -/
theorem State.carryOut_store {e : StoreEntry} (he : e.addr = a) (nt : Bool) : ∃ t, s.sameContents t ∧ s.carryOut (.store n e nt) [] =
    (t.writeLE (s.spAddr a.toNat) (sizeBytes e.size) e.data.toNat).storeAnswer n e true := by
  obtain ⟨t, hread, hsame⟩ := State.spRead_clean (w := wordOf a.toNat) hbad hkey .master
  refine ⟨t, hsame, ?_⟩
  simp [State.carryOut, he, hread, SpOut.good, State.spWriteLE, hsame.spAddr]
/-- An ATOM of an untwinned thread on a clean word of the scratchpad. -/
theorem State.carryOut_atom (htwin : (s.thr n).twin = false) (op : AtomOp) (rs cmp : Word) :
    ∃ t, s.sameContents t ∧ s.carryOut (.atom n a op rs cmp) [] =
      (t.writeLE (s.spAddr a.toNat) 4 (atomNew op (BitVec.ofNat 32 (s.readLE (s.spAddr a.toNat) 4)) rs cmp).toNat).modThr n
        (fun h => h.settle (isAtom a) (some (s.readLE (s.spAddr a.toNat) 4))) := by
  obtain ⟨t, hread, hsame⟩ := State.spRead_clean (w := wordOf a.toNat) hbad hkey .master
  refine ⟨t, hsame, ?_⟩
  have hcopies (v : Nat) : (t.writeLE (s.spAddr a.toNat) 4 v).copies n = [n] :=
    State.copies_single (by rw [State.thr_writeLE, hsame.thr, htwin])
  simp [State.carryOut, hread, SpOut.good, State.spWriteLE, hsame.spAddr, hsame.spReadLE, hcopies, State.each]

end

end Machine
end Sys2Proof
end

section
/-! The grant of the only request of a bank (R203, R351, R357, R360–R362): O16. -/
namespace Sys2Proof
namespace Machine

section
variable {s : State} {n : Nat} {a : Addr} {d : Deferred}

/-- The value of a granted load without SX is on its way to its result. -/
theorem State.settle_load {sz : Size} {v : Nat} (hd : (s.thr n).defer = [d]) (hwait : d.st = .waiting) (haddr : d.addr = a)
    (hsize : d.size = sz) (hatom : d.atom = none) (hsx : d.sx = false) (hheld : d.held = false) (hv : v < 256 ^ sizeBytes sz) :
    ∃ e x, ((s.modThr n (fun h => h.settle (isLoad a sz) (some v))).thr n).defer = [e] ∧ e.st = .flight x ∧ x.toNat = v := by
  have hp : isLoad a sz d = true := by simp [isLoad, haddr, hsize, hatom, hheld]
  refine ⟨{ d with st := .flight (ldVal sz false v) }, _, ?_, rfl, toNat_ldVal hv⟩
  rw [State.thr_modThr, if_pos rfl, Thread.defer_settle_only hd hwait hp, hsx, hsize]

/-- The old word of a granted ATOM is on its way to its result. -/
theorem State.settle_atom {q : AtomOp × Word × Word} {v : Nat} (hd : (s.thr n).defer = [d]) (hwait : d.st = .waiting)
    (haddr : d.addr = a) (hsize : d.size = .b32) (hatom : d.atom = some q) (hheld : d.held = false) :
    ∃ e, ((s.modThr n (fun h => h.settle (isAtom a) (some v))).thr n).defer = [e] ∧
      e.st = .flight ((BitVec.ofNat 32 v).setWidth 64) := by
  have hp : isAtom a d = true := by simp [isAtom, haddr, hatom, hheld]
  have hval (sx : Bool) : ldVal .b32 sx v = (BitVec.ofNat 32 v).setWidth 64 := by
    apply BitVec.eq_of_toNat_eq
    simp only [ldVal, BitVec.toNat_ofNat, BitVec.toNat_setWidth]
  refine ⟨{ d with st := .flight ((BitVec.ofNat 32 v).setWidth 64) }, ?_, rfl⟩
  rw [State.thr_modThr, if_pos rfl, Thread.defer_settle_only hd hwait hp, hsize, hval]

/-- A write through `t`, whose bytes are those of `s`: the bytes outside it are those of `s`. -/
theorem sameBytes_writeLE {t : State} (h : ∀ x, t.byte x = s.byte x) (p k v : Nat) :
    sameBytes s (t.writeLE p k v) (fun x => p ≤ x ∧ x < p + k) := fun x hx => by
  rw [State.byte_writeLE_other k t p v x (by omega), h x]

end

/-- Settles O16, request by request: the arbiter finds the only one, its word reads clean, and it is carried out. -/
theorem bankGrantPerformsTheAccess : Obligations.BankGrantPerformsTheAccess := by
  unfold Obligations.BankGrantPerformsTheAccess
  intro s bank slot n a w hmode hw hrest hxq htwin
  refine ⟨?rom, fun hbad hkey hlim => ⟨?load, ?store, ?atom⟩⟩
  case rom =>
    rintro sz hlane hlo hhi - ⟨d, hd, hwait, haddr, hsize, hatom, hsx, hheld⟩
    obtain ⟨u, hexec, hu, hempty⟩ := exec_spAccessGrant_only hmode hw hrest hxq hlane []
    rw [State.carryOut_loadRom (by simp [inRom, hlo, hhi])] at hexec
    exact ⟨_, hexec, fun x _ => hu.byte x, hempty,
      State.settle_load (by rw [hu.thr, hd]) hwait haddr hsize hatom hsx hheld (State.romLE_lt _ _)⟩
  case load =>
    rintro sz hlane - ⟨d, hd, hwait, haddr, hsize, hatom, hsx, hheld⟩
    obtain ⟨u, hexec, hu, hempty⟩ := exec_spAccessGrant_only hmode hw hrest hxq hlane []
    obtain ⟨t, ht, hload⟩ := State.carryOut_load (n := n) (sz := sz) ((hu.spPoisoned _).trans hbad) (hu.under.trans hkey)
      (inRom_of_lt_spLimit hlim)
    rw [hload, hu.spAddr, hu.readLE] at hexec
    exact ⟨_, hexec, fun x _ => (ht.byte x).trans (hu.byte x), (ht.lane _ _).trans hempty,
      State.settle_load (by rw [ht.thr, hu.thr, hd]) hwait haddr hsize hatom hsx hheld (State.readLE_lt _ _ _)⟩
  case store =>
    intro e hlane he _ hbuf hpend
    obtain ⟨u, hexec, hu, hempty⟩ := exec_spAccessGrant_only hmode hw hrest hxq hlane []
    obtain ⟨t, ht, hstore⟩ := State.carryOut_store (n := n) ((hu.spPoisoned _).trans hbad) (hu.under.trans hkey) he false
    have hthr : (t.writeLE (u.spAddr a.toNat) (sizeBytes e.size) e.data.toNat).thr n = s.thr n := by
      rw [State.thr_writeLE, ht.thr, hu.thr]
    rw [hstore, State.storeAnswer_only (by rw [hthr, htwin]) (by rw [hthr, hbuf]) hpend, hu.spAddr] at hexec
    refine ⟨_, hexec, ?_, by simp, fun k hk => ?_, ?_⟩
    · rw [State.lane_modThr, State.lane_writeLE, ht.lane, hempty]
    · rw [State.byte_modThr, State.byte_writeLE_same _ _ _ _ _ hk, ofNat_toNat_div_eq]
    · exact sameBytes_writeLE (fun x => (ht.byte x).trans (hu.byte x)) _ _ _
  case atom =>
    rintro op rs cmp hlane - ⟨d, hd, hwait, haddr, hsize, hatom, hheld⟩
    obtain ⟨u, hexec, hu, hempty⟩ := exec_spAccessGrant_only hmode hw hrest hxq hlane []
    obtain ⟨t, ht, hdone⟩ := State.carryOut_atom (n := n) ((hu.spPoisoned _).trans hbad) (hu.under.trans hkey)
      (by rw [hu.thr, htwin]) op rs cmp
    rw [hdone, hu.spAddr, hu.readLE] at hexec
    refine ⟨_, hexec, ?_, State.settle_atom (by rw [State.thr_writeLE, ht.thr, hu.thr, hd]) hwait haddr hsize hatom hheld, ?_, ?_⟩
    · rw [State.lane_modThr, State.lane_writeLE, ht.lane, hempty]
    · rw [State.readLE_modThr, State.ofNat_readLE_writeLE]
      cases op with
      | minu => exact atomNew_minu _ rs cmp
      | maxu => exact atomNew_maxu _ rs cmp
      | swap | add | and | or | xor | cas => rfl
    · exact sameBytes_writeLE (fun x => (ht.byte x).trans (hu.byte x)) _ _ _

end Machine
end Sys2Proof
end

section
/-! The deadlock detector on one waiter that can never go on (R265–R270): its group, its report, the policy BREAK, the end of an analysis. -/
namespace Sys2Proof
namespace Machine

/-! ### The routes of a producer (R337, R339) -/

/-- The routes that a producer is enabled on depend on registers of the event unit alone. -/
theorem State.routesOf_congr {s t : State} (h : ∀ a, 0x650000 ≤ a → a < 0x660000 → t.reg a = s.reg a) {q : Nat} (hq : q < 272) :
    t.routesOf q = s.routesOf q := by
  have hcfg {r : Nat} (hr : r < 256) (b : Nat) : t.rbit (rEvCfg r) b = s.rbit (rEvCfg r) b := by
    simp only [State.rbit, h (rEvCfg r) (by simp only [rEvCfg]; omega) (by simp only [rEvCfg]; omega)]
  have hcompat : t.compat = s.compat := by simp only [State.compat, State.rbit, h rEvCtl (by decide) (by decide)]
  have hmat {p c : Nat} (hp : p < 256) (hc : c < 256) : t.matBit p c = s.matBit p c := by
    simp only [State.matBit, State.rbit,
      h (rEvMat (8 * p + c / 32)) (by simp only [rEvMat]; omega) (by simp only [rEvMat]; omega)]
  simp only [State.routesOf, hcompat]
  split
  · cases hrow : matRow q with
    | none => rfl
    | some p =>
      have hp : p < 256 := by simp only [matRow] at hrow; grind
      exact List.filter_congr fun c hc => by
        rw [hcfg (List.mem_range.1 hc), hmat hp (List.mem_range.1 hc)]
  · split
    · rw [List.filterMap_map, List.filterMap_map]
      refine congrArg (fun f => List.filterMap f _) (funext fun j => ?_)
      simp only [Function.comp_apply, hcfg (Nat.mod_lt _ (by decide : 256 > 0))]
    · exact List.filter_congr fun r hr => by simp only [hcfg (List.mem_range.1 hr)]

/-! ### One waiter is a group of its own (R266, R267, R270) -/

section
variable {n : WNode} (hheld : n.held = false)
include hheld

theorem deadGroups_lone (hnever : n.partners = [.never]) : deadGroups [n] = [[n]] := by
  have hkept : reduceD 1 [n] = [n] := by simp [reduceD, hnever, Partner.keeps]
  simp [deadGroups, hkept, groupsOf, grow, hheld]
theorem asGroup_lone : asGroup [n] = { held := false, members := [(n.t, n.tag)] } := by simp [asGroup, isHeld, hheld]
theorem confirmed_lone : confirmed [{ held := false, members := [(n.t, n.tag)] }] [n] = [n] := by simp [confirmed, isHeld, hheld]
theorem oldest_lone : oldest [n] = some n := by simp [oldest, hheld]
end

theorem deadGroups_nil : deadGroups [] = [] := rfl
theorem confirmed_nothing_before (g : List WNode) : confirmed [] g = [] := by simp [confirmed]

/-! ### The report (R269) -/

/-- The registers by which a deadlocked group is reported, with `w` in MC_DLSTAT. -/
def State.dlRegs (s : State) (g : List WNode) (w : Word) : State :=
  ((s.setReg rMcDlStat w).each [0, 1, 2, 3] (fun s i => s.setReg (rMcDlSet i) (memberWord g i))).rcount rMcDlCnt 0 16 1

/-- The report of a deadlocked group: its registers, the update of the recorder, the pulse. -/
def State.dlReport (s : State) (g : List WNode) (w : Word) : State :=
  ((s.dlRegs g w).recBin 0x04 0x01 0 (min 15 (g.length - 1)) 2).pulse 256

/-- What MC_DLSTAT holds of a group of `len` with the oldest waiter `t` of stand `st` under policy `pol`. -/
def dlWord (old : Word) (len t st pol : Nat) : Word :=
  (old &&& 0xE#32) ||| 1#32 ||| BitVec.ofNat 32 ((len % 256) * 2 ^ 4 + (t % 128) * 2 ^ 12 + pol * 2 ^ 20 + st * 2 ^ 24)

theorem fld_zero (w : Word) (n : Nat) : fld w 0 n = w.toNat % 2 ^ n := by rw [fld, Nat.pow_zero, Nat.div_one]
theorem fld_or_of_lt {a : Word} {lo : Nat} (ha : a.toNat < 2 ^ lo) (b : Word) (n : Nat) : fld (a ||| b) lo n = fld b lo n := by
  simp only [fld, BitVec.toNat_or, ← Nat.shiftRight_eq_div_pow, Nat.shiftRight_or_distrib, Nat.shiftRight_eq_zero _ _ ha, Nat.zero_or]

theorem dlWord_fields (old : Word) (len : Nat) {t st pol : Nat} (ht : t < 128) (hst : st < 16) (hpol : pol < 4) :
    (dlWord old len t st pol).getLsbD 0 = true ∧ fld (dlWord old len t st pol) 12 7 = t ∧ fld (dlWord old len t st pol) 24 4 = st := by
  have hlow : ((old &&& 0xE#32) ||| 1#32).toNat < 2 ^ 4 := by
    simp only [BitVec.toNat_or, BitVec.toNat_and]
    exact Nat.or_lt_two_pow (Nat.and_lt_two_pow _ (by decide)) (by decide)
  refine ⟨by simp [dlWord], ?_, ?_⟩
  · rw [dlWord, fld_or_of_lt (by omega)]
    simp only [fld, BitVec.toNat_ofNat]; omega
  · rw [dlWord, fld_or_of_lt (by omega)]
    simp only [fld, BitVec.toNat_ofNat]; omega

section
variable (s : State) (g : List WNode) (w : Word)

theorem State.dlRegs_frame : s.dlRegs g w = { s with regs := (s.dlRegs g w).regs } := by
  unfold State.dlRegs State.each
  rw [State.foldl_setReg_frame]
  rfl
theorem State.dlRegs_sameRegs : sameRegs s (s.dlRegs g w) (fun a => 0x628000 ≤ a ∧ a < 0x628020) := fun a ha => by
  have hset : ∀ i ∈ [0, 1, 2, 3], a ≠ rMcDlSet i := by simp only [rMcDlSet]; simp; omega
  have hne : a ≠ rMcDlCnt ∧ a ≠ rMcDlStat := by simp only [rMcDlCnt, rMcDlStat]; omega
  rw [State.dlRegs, State.reg_rcount, if_neg hne.1, State.each, State.reg_foldl_setReg_other _ hset, State.reg_setReg, if_neg hne.2]
theorem State.dlRegs_rMcDlStat : (s.dlRegs g w).reg rMcDlStat = w := by
  have hset : ∀ i ∈ [0, 1, 2, 3], rMcDlStat ≠ rMcDlSet i := by decide
  rw [State.dlRegs, State.reg_rcount, if_neg (by decide), State.each, State.reg_foldl_setReg_other _ hset, State.reg_setReg, if_pos rfl]
theorem State.dlRegs_rMcDlCnt : (s.dlRegs g w).reg rMcDlCnt = satFld (s.reg rMcDlCnt) 0 16 1 := by
  have hset : ∀ i ∈ [0, 1, 2, 3], rMcDlCnt ≠ rMcDlSet i := by decide
  rw [State.dlRegs, State.reg_rcount, if_pos rfl, State.each, State.reg_foldl_setReg_other _ hset, State.reg_setReg, if_neg (by decide)]

theorem State.dlReport_frame : s.dlReport g w = { s with
    regs := (s.dlReport g w).regs, recd := (s.dlReport g w).recd, fires := (s.dlReport g w).fires } := by
  unfold State.dlReport State.recBin
  rw [State.pulse_frame, State.recPush_frame, State.dlRegs_frame]
theorem State.dlReport_reg {a : Nat} (ha : a ≠ rErQlost) : (s.dlReport g w).reg a = (s.dlRegs g w).reg a :=
  State.recPush_regs _ _ a ha
theorem State.dlReport_fires : (s.dlReport g w).fires = (s.pulse 256).fires := by
  have hroutes : ((s.dlRegs g w).recBin 0x04 0x01 0 (min 15 (g.length - 1)) 2).routesOf 256 = s.routesOf 256 :=
    State.routesOf_congr (fun a hlo hhi => by
      rw [State.recBin, State.recPush_regs _ _ a (by simp only [rErQlost, rEr]; omega), State.dlRegs_sameRegs s g w a (by omega)])
      (by decide)
  rw [State.dlReport, State.pulse, hroutes, State.recBin, State.recPush_frame, State.dlRegs_frame, State.pulse]
end

/-! ### The policy (R269, R270) -/

section
variable {s : State} {n : WNode} {p : Parked}

theorem State.marked_parked (hp : (s.thr n.t).park = some p) (hm : p.marked = false) : s.marked n = false := by simp [State.marked, hp, hm]
theorem State.mark_parked (hp : (s.thr n.t).park = some p) (htag : p.stamp = n.tag) :
    s.mark n = s.setThr n.t { s.thr n.t with park := some { p with marked := true } } := by
  simp [State.mark, State.modThr, hp, htag]
/-- BREAK: the operation that the tag names is to complete with BROKEN. -/
theorem State.policy_break {t : Nat} (hp : (s.thr t).park = some p) (st : Nat) :
    s.policy t p.stamp st 1 = s.setThr t { s.thr t with park := some { p with broken := true } } := by
  simp [State.policy, State.modThr, hp]

/-- A group with an unmarked member, whose oldest waiter's stand asks for no freeze: reported, marked, its policy applied. -/
theorem State.actDead_policy {g : List WNode} {o : WNode} {w : Word} {pol : Nat} (ho : oldest g = some o) (hall : g.all s.marked = false)
    (hpol : (if s.rfld (rStcCfg (s.thr o.t).stand) 0 2 = 3 then 0 else s.rfld (rStcCfg (s.thr o.t).stand) 0 2) = pol)
    (hw : dlWord (s.reg rMcDlStat) g.length o.t (s.thr o.t).stand pol = w)
    (hfrz : (g.foldl State.mark (s.dlReport g w)).rbit (rStcCfg (s.thr o.t).stand) 9 = false) :
    s.actDead g = (g.foldl State.mark (s.dlReport g w)).policy o.t o.tag (s.thr o.t).stand pol := by
  subst hpol hw
  unfold State.actDead
  rw [ho]
  exact (if_neg (ne_true_of_eq_false hall)).trans (if_neg (ne_true_of_eq_false hfrz))

/-- A group of one unmarked waiter under BREAK, with no freeze asked for by its stand: reported, marked and to be broken. -/
theorem State.actDead_lone (hheld : n.held = false) (hp : (s.thr n.t).park = some p) (htag : p.stamp = n.tag) (hm : p.marked = false)
    (hst : (s.thr n.t).stand < 16) (hfrz : s.rbit (rStcCfg (s.thr n.t).stand) 9 = false)
    (hpol : s.rfld (rStcCfg (s.thr n.t).stand) 0 2 = 1) : ∃ u, s.actDead [n] = u ∧
      (∀ a, a ≠ rErQlost → u.reg a = (s.dlRegs [n] (dlWord (s.reg rMcDlStat) 1 n.t (s.thr n.t).stand 1)).reg a) ∧
      (u.thr n.t).park = some { p with marked := true, broken := true } ∧ sameThreads s u n.t ∧ u.chans = s.chans ∧
      u.fires = (s.pulse 256).fires ∧ u.det = s.det := by
  let r := s.dlReport [n] (dlWord (s.reg rMcDlStat) 1 n.t (s.thr n.t).stand 1)
  have hthr (k : Nat) : r.thr k = s.thr k := by simp only [r]; rw [State.dlReport_frame]; rfl
  have hmark : r.mark n = r.setThr n.t { r.thr n.t with park := some { p with marked := true } } :=
    State.mark_parked (by rw [hthr, hp]) htag
  have hcfg : (r.mark n).rbit (rStcCfg (s.thr n.t).stand) 9 = false := by
    rw [← hfrz, State.rbit, hmark, State.reg_setThr, State.dlReport_reg _ _ _ (by simp only [rStcCfg, rStc, rErQlost, rEr]; omega),
      State.dlRegs_sameRegs _ _ _ _ (by simp only [rStcCfg, rStc]; omega), State.rbit]
  have hact : s.actDead [n] = (r.mark n).policy n.t n.tag (s.thr n.t).stand 1 :=
    State.actDead_policy (oldest_lone hheld) (by simp [State.marked_parked hp hm]) (by rw [hpol]; rfl) rfl hcfg
  refine ⟨_, hact, ?_⟩
  rw [← htag, State.policy_break (p := { p with marked := true }) (by rw [hmark, State.thr_setThr, if_pos rfl]), hmark]
  refine ⟨fun a ha => ?_, ?_, fun k hk => ?_, ?_, ?_, ?_⟩
  · rw [State.reg_setThr, State.reg_setThr, State.dlReport_reg _ _ _ ha]
  · rw [State.thr_setThr, if_pos rfl]
  · rw [State.thr_setThr, if_neg hk, State.thr_setThr, if_neg hk, hthr]
  · simp only [r, State.setThr_chans]; rw [State.dlReport_frame]
  · simp only [r, State.setThr_fires]; rw [State.dlReport_fires]
  · simp only [r, State.setThr_det]; rw [State.dlReport_frame]
end

/-! ### The commands (R266–R271) -/

/-- The state in which the end of an analysis acts: the groups found stand for the next snapshot to compare. -/
def State.analysed (s : State) : State :=
  { s with det := { s.det with busy := false, snap := [], prev := (deadGroups s.det.snap).map asGroup } }

section
variable {s : State} {n : WNode} (hsnap : s.det.snap = [n]) (hheld : n.held = false) (hnever : n.partners = [.never])
include hsnap hheld hnever

theorem State.analysed_prev : s.analysed.det.prev = [{ held := false, members := [(n.t, n.tag)] }] := by
  simp only [State.analysed, hsnap, deadGroups_lone hheld hnever, List.map_singleton, asGroup_lone hheld]

variable (hbusy : s.det.busy = true)
include hbusy

/-- A waiter found for the first time is not acted on (R267). -/
theorem exec_deadlockAnalysisEnd_first (hprev : s.det.prev = []) : exec .deadlockAnalysisEnd s = .next (s.gated s.analysed) := by
  show execDeadlockAnalysisEnd s = _
  simp [execDeadlockAnalysisEnd, hbusy, hsnap, hprev, deadGroups_lone hheld hnever, confirmed_nothing_before, State.analysed,
    deadGroups_nil, byStamp]
/-- One found again with its tag is acted on (R267). -/
theorem exec_deadlockAnalysisEnd_confirmed (hprev : s.det.prev = [{ held := false, members := [(n.t, n.tag)] }]) :
    exec .deadlockAnalysisEnd s = .next (s.gated (s.analysed.actDead [n])) := by
  show execDeadlockAnalysisEnd s = _
  simp [execDeadlockAnalysisEnd, hbusy, hsnap, hprev, deadGroups_lone hheld hnever, confirmed_lone hheld, State.analysed,
    isHeld, hheld, byStamp]
end

end Machine
end Sys2Proof
end

section
/-! A waiter found in two snapshots with one tag is reported and its stand's policy applied (R265–R270): O29. -/
namespace Sys2Proof
namespace Machine

/-- Settles O29, command by command: the waiter is a group of its own, which the policy is applied to once it is confirmed. -/
theorem deadlockDetectorReportsConfirmedWaiters : Obligations.DeadlockDetectorReportsConfirmedWaiters := by
  unfold Obligations.DeadlockDetectorReportsConfirmedWaiters
  intro s n p prev hmode hheld hnever ht hp htag hm hst
  refine ⟨fun hrun => ⟨_, rfl, if_pos hrun⟩, fun hrun => ⟨_, rfl, if_neg hrun⟩, fun hprev => ?first, fun hprev hfrz hpol => ?confirmed⟩
  case first =>
    refine answers_of_gated hmode (exec_deadlockAnalysisEnd_first rfl hheld hnever rfl hprev) ⟨rfl, rfl, rfl, ?_, rfl⟩
    exact State.analysed_prev rfl hheld hnever
  case confirmed =>
    refine answers_of_gated hmode (exec_deadlockAnalysisEnd_confirmed rfl hheld hnever rfl hprev) ?_
    generalize hv : State.analysed _ = v
    have hvreg (a : Nat) : v.reg a = s.reg a := by rw [← hv]; rfl
    have hvthr (k : Nat) : v.thr k = s.thr k := by rw [← hv]; rfl
    obtain ⟨u, hu, hreg, hpark, hthr, hchans, hfires, hdet⟩ := State.actDead_lone (s := v) hheld (by rw [hvthr, hp]) htag hm
      (by rwa [hvthr]) (by rw [State.rbit, hvthr, hvreg, hfrz]) (by rw [State.rfld, hvthr, hvreg, fld_zero]; exact hpol)
    obtain ⟨hbit, ht12, hst24⟩ := dlWord_fields (v.reg rMcDlStat) 1 ht hst (pol := 1) (by decide)
    rw [hu]
    refine ⟨?_, ?_, ?_, ?_, hpark, fun k hk => (hthr k hk).trans (hvthr k), ?_, ?_, ?_⟩
    · rw [hreg _ (by decide), State.dlRegs_rMcDlStat, hvthr, hbit]
    · rw [hreg _ (by decide), State.dlRegs_rMcDlStat, hvthr, ht12]
    · rw [hreg _ (by decide), State.dlRegs_rMcDlStat, hvthr, hst24]
    · rw [hreg _ (by decide), State.dlRegs_rMcDlCnt, hvreg, ← fld_zero, fld_satFld _ _ _ (by decide), fld_zero]
    · rw [hchans, ← hv]; rfl
    · rw [hfires, ← hv]; rfl
    · rw [hdet, ← hv]; rfl

end Machine
end Sys2Proof
end

section
/-! Channels under one operation (R227–R229, R249, R250): words staged, published and taken; what else of the state that leaves alone. -/
namespace Sys2Proof
namespace Machine

/-! ### The pool -/

section
variable (s : State) (a : Nat) (w : PWord)

@[simp] theorem State.poolWord_setPool (b : Nat) : (s.setPool a w).poolWord b = if b = a then w else s.poolWord b := by
  simp [State.setPool, State.poolWord, Bank.get_put]
@[simp] theorem State.chan_setPool (c : Nat) : (s.setPool a w).chan c = s.chan c := rfl
@[simp] theorem State.reg_setPool (b : Nat) : (s.setPool a w).reg b = s.reg b := rfl
@[simp] theorem State.poolWord_rcount (r lo n k b : Nat) : (s.rcount r lo n k).poolWord b = s.poolWord b := rfl
@[simp] theorem State.poolWord_modChan (c : Nat) (f : Chan → Chan) (b : Nat) : (s.modChan c f).poolWord b = s.poolWord b := rfl
end

/-! ### What an operation on one channel leaves alone -/

/-- `t` is `s` but for the pool, MC_POOLERR, and channel `c`, which is `ch` in it. -/
def chanOnly (s : State) (c : Nat) (ch : Chan) (t : State) : Prop :=
  t.chan c = ch ∧ (∀ q, q ≠ c → t.chan q = s.chan q) ∧ sameRegs s t (fun a => a = rMcPoolErr) ∧ t.mem = s.mem ∧ t.threads = s.threads ∧ t.ses = s.ses

theorem chanOnly.refl (s : State) (c : Nat) : chanOnly s c (s.chan c) s := ⟨rfl, fun _ _ => rfl, fun _ _ => rfl, rfl, rfl, rfl⟩

section
variable {s t : State} {c : Nat} {ch : Chan} (h : chanOnly s c ch t)
include h

theorem chanOnly.setChan (x : Chan) : chanOnly s c x (t.setChan c x) := by
  obtain ⟨-, hother, hregs, hrest⟩ := h
  refine ⟨by rw [State.chan_setChan, if_pos rfl], fun q hq => ?_, hregs, hrest⟩
  rw [State.chan_setChan, if_neg hq, hother q hq]
theorem chanOnly.modChan (f : Chan → Chan) : chanOnly s c (f ch) (t.modChan c f) := by
  rw [State.modChan_eq, h.1]
  exact h.setChan _
theorem chanOnly.setPool (a : Nat) (w : PWord) : chanOnly s c ch (t.setPool a w) := h
theorem chanOnly.rcount_poolErr (lo n k : Nat) : chanOnly s c ch (t.rcount rMcPoolErr lo n k) := by
  obtain ⟨hch, hother, hregs, hrest⟩ := h
  exact ⟨hch, hother, fun a ha => by rw [State.reg_rcount, if_neg ha, hregs a ha], hrest⟩
theorem chanOnly.each (l : List Nat) {f : State → Nat → State} (hf : ∀ t n, chanOnly s c ch t → chanOnly s c ch (f t n)) :
    chanOnly s c ch (t.each l f) := by
  induction l generalizing t with
  | nil => exact h
  | cons n l ih => exact ih (hf t n h)
theorem chanOnly.readRow (row : Nat) : chanOnly s c ch (t.readRow row) :=
  h.each _ fun t j ht => by
    dsimp only
    split
    · exact (ht.setPool _ _).rcount_poolErr _ _ _
    · exact ht
theorem chanOnly.readWords (d k n : Nat) : chanOnly s c ch (t.readWords d k n) := h.each _ fun _ _ ht => ht.readRow _

/-! ### Messages sent and received -/

theorem chanOnly.publish : chanOnly s c
    { ch with msgs := ch.msgs ++ [{ words := ch.staged, total := ch.staged.length }], staged := [] } (t.publish c) := h.modChan _

variable {m : Msg} {r : List Msg} (hmsgs : ch.msgs = m :: r)
include hmsgs

/-- The head message freed: at a half of a link pair that receives, its words are owed as credit (R261). -/
theorem chanOnly.freeHead : ∃ ch', chanOnly s c ch' (t.freeHead c) ∧ ch'.msgs = r ∧ (epKind ch.sendEp ≠ 4 → ch' = { ch with msgs := r }) := by
  refine ⟨_, h.modChan _, ?_⟩
  simp only [hmsgs]
  split
  · exact ⟨rfl, fun h4 => absurd ‹_› h4⟩
  · exact ⟨rfl, fun _ => rfl⟩

/-- One word taken of the head message, which is freed with its last (R227). -/
theorem chanOnly.takeHead {w : PWord} {l : List PWord} (hwords : m.words = w :: l) : ∃ ch', chanOnly s c ch' (t.takeHead c 1) ∧
    ch'.msgs = (if l = [] then r else { m with words := l } :: r) ∧
    (epKind ch.sendEp ≠ 4 → ch' = { ch with msgs := if l = [] then r else { m with words := l } :: r }) := by
  have htook := h.setChan { ch with msgs := { m with words := l } :: r }
  have hstep : t.takeHead c 1 = if l = [] then (t.setChan c { ch with msgs := { m with words := l } :: r }).freeHead c
      else t.setChan c { ch with msgs := { m with words := l } :: r } := by
    simp [State.takeHead, State.modChan_eq, h.1, hmsgs, hwords]
  rw [hstep]
  by_cases hl : l = []
  · simpa only [if_pos hl] using htook.freeHead rfl
  · simp only [if_neg hl]
    exact ⟨_, htook, rfl, fun _ => rfl⟩
end

/-- One word staged at the next ring position. -/
theorem chanOnly_stage (s : State) (c : Nat) (w : Word) : chanOnly s c
    { s.chan c with staged := (s.chan c).staged ++ [{ v := w }], wr := ((s.chan c).wr + 1) % max 1 (s.allot c) } (s.stage c [w]) :=
  ((chanOnly.refl s c).setPool _ _).setChan _
theorem chanOnly_unstage (s : State) (c : Nat) : chanOnly s c { s.chan c with
    staged := [], wr := ((s.chan c).wr + 64 * max 1 (s.allot c) - (s.chan c).staged.length) % max 1 (s.allot c) } (s.unstage c) :=
  (chanOnly.refl s c).setChan _

end Machine
end Sys2Proof
end

section
/-! Accesses to host mailboxes (R259, R260): what the pool decides of each, and O27. -/
namespace Sys2Proof
namespace Machine

/-! ### What the pool decides of a mailbox operation (R255) -/

@[simp] theorem loW_setWidth (v : Word) : loW (v.setWidth 64) = v := by
  rw [loW_eq, BitVec.setWidth_setWidth_of_le _ (by decide), BitVec.setWidth_eq]

section
variable {s : State} {c : Nat} {v : Word}

section
variable (hmax : (s.chan c).staged.length + 1 ≤ s.msgMax c) (hfree : 1 ≤ s.freeWords c)
include hmax hfree

theorem State.decideOn_put :
    s.decideOn c (mailOp .put v) = some (.status 0 false ((s.chan c).staged.length + 1) none, s.stage c [v]) := by
  simp [State.decideOn, mailOp, ChanOp.count, ChanOp.words, Nat.not_lt.2 hmax, Nat.not_lt.2 hfree]
theorem State.decideOn_pute (hroom : (s.chan c).msgs.length < 8) :
    s.decideOn c (mailOp .pute v) = some (.status 0 true 0 none, (s.stage c [v]).publish c) := by
  simp [State.decideOn, mailOp, ChanOp.count, ChanOp.words, Chan.fullMsgs, Nat.not_lt.2 hmax, Nat.not_lt.2 hfree, hroom]
end

theorem State.decideOn_endm (hstaged : (s.chan c).staged ≠ []) (hroom : (s.chan c).msgs.length < 8) :
    s.decideOn c (mailOp .endm v) = some (.status 0 true (s.chan c).staged.length none, s.publish c) := by
  simp [State.decideOn, mailOp, Chan.fullMsgs, hstaged, hroom]
theorem State.decideOn_abt :
    s.decideOn c (mailOp .abt v) = some (.status 0 false (s.chan c).staged.length none, s.unstage c) := rfl

variable {m : Msg} {r : List Msg} (hmsgs : (s.chan c).msgs = m :: r)
include hmsgs

theorem State.decideOn_get {w : PWord} {l : List PWord} (hwords : m.words = w :: l) (hgood : w.bad = false) :
    s.decideOn c (mailOp .get v) = some (.status 0 (decide (l = [])) l.length (some (w.v.setWidth 64)),
      (s.readWords c 0 1).takeHead c 1) := by
  simp [State.decideOn, mailOp, ChanOp.count, hmsgs, hwords, hgood, takenData]
theorem State.decideOn_drop : s.decideOn c (mailOp .drop v) = some (.status 0 false m.words.length none, s.freeHead c) := by
  simp [State.decideOn, mailOp, hmsgs]
end

/-! ### An access that is admitted (R260) -/

/-- `t` is `s` after an operation on mailbox `k` that left channel `c` as `ch`: MC_HSTATk holds CODE 0, LAST and COUNT. -/
def mailDid (s : State) (k c : Nat) (last : Bool) (count : Nat) (ch : Chan) (t : State) : Prop :=
  t.reg (rMcHstat k) = BitVec.ofNat 32 ((if last then 16 else 0) + count % 64 * 256) ∧ t.chan c = ch ∧
  (∀ q, q ≠ c → t.chan q = s.chan q) ∧ sameRegs s t (fun a => a = rMcHstat k ∨ a = rMcPoolErr) ∧ t.mem = s.mem ∧ t.threads = s.threads

section
variable {s t : State} {m : Master} {k c : Nat} {recv last : Bool} {f : ChanForm} {v : Word} {count : Nat} {data : Option (BitVec 64)} {ch : Chan}
  (hadm : s.mailboxAdmits m k = true) (hbox : s.mailbox k = some (c, recv)) (hdir : f.isSend = !recv)
  (hdec : s.decideOn c (mailOp f v) = some (.status 0 last count data, t)) (honly : chanOnly s c ch t)
include hadm hbox hdir hdec honly

/-- The pool's outcome stands in MC_HSTATk, its word in the answer. -/
theorem State.mailAccess_did : mailDid s k c last count ch (s.mailAccess m k f v) ∧
    (s.mailAccess m k f v).rdata = loW (data.getD 0#64) ∧ (s.mailAccess m k f v).pool = t.pool := by
  have hdone : s.mailAccess m k f v = { t.setHstat k 0 last 0 count with rdata := loW (data.getD 0#64) } := by
    cases recv <;> simp [State.mailAccess, hadm, State.mailOn, hbox, hdir, hdec]
  obtain ⟨hch, hother, hregs, hmem, hthr, -⟩ := honly
  rw [hdone]
  refine ⟨⟨?_, hch, hother, fun a ha => ?_, hmem, hthr⟩, rfl, rfl⟩
  · show (t.setHstat k 0 last 0 count).reg (rMcHstat k) = _
    rw [State.setHstat, State.reg_setReg, if_pos rfl]
    cases last <;> simp [b2n]
  · obtain ⟨hstat, herr⟩ := not_or.1 ha
    show (t.setHstat k 0 last 0 count).reg a = _
    rw [State.setHstat, State.reg_setReg, if_neg hstat, hregs a herr]
end

/-- A read of MC_HGETk by a master that is not the debugger takes the word. -/
theorem State.mailGet_takes {s : State} {m : Master} (hm : m ≠ .debugger) (k : Nat) : s.mailGet m k = s.mailAccess m k .get 0#32 := by
  cases m with
  | debugger => exact absurd rfl hm
  | thread _ | host _ _ | link _ _ | recov => rfl
theorem State.mailPeek_next {s : State} {k c : Nat} {m : Msg} {r : List Msg} {w : PWord} {l : List PWord}
    (hbox : s.mailbox k = some (c, true)) (hmsgs : (s.chan c).msgs = m :: r) (hwords : m.words = w :: l) (hgood : w.bad = false) :
    s.mailPeek k = w.v := by
  simp [State.mailPeek, hbox, hmsgs, hwords, hgood]

/-- Settles O27, access by access: the pool decides it as it does of a thread's form. -/
theorem mailboxAccessesActOnTheChannel : Obligations.MailboxAccessesActOnTheChannel := by
  unfold Obligations.MailboxAccessesActOnTheChannel
  intro s h k c v hmode hadm
  refine ⟨fun hbox => ⟨fun hmax hfree => ⟨?put, fun hroom => ?pute⟩, fun hstaged hroom => ?endm, ?abt⟩,
    fun m r hbox hmsgs hlink => ⟨fun w l hwords hgood => ⟨fun hm => ?get, ?peek⟩, ?drop⟩⟩
  case put =>
    obtain ⟨hdid, -, hpool⟩ := State.mailAccess_did hadm hbox rfl (State.decideOn_put (v := v) hmax hfree) (chanOnly_stage s c v)
    exact answers_of_gated hmode rfl ⟨hdid, hpool⟩
  case pute =>
    obtain ⟨hdid, -, hpool⟩ := State.mailAccess_did hadm hbox rfl (State.decideOn_pute (v := v) hmax hfree hroom)
      (chanOnly_stage s c v).publish
    exact answers_of_gated hmode rfl ⟨hdid, hpool⟩
  case endm =>
    obtain ⟨hdid, -⟩ := State.mailAccess_did hadm hbox rfl (State.decideOn_endm (v := 0#32) hstaged hroom) (chanOnly.refl s c).publish
    exact answers_of_gated hmode rfl hdid
  case abt =>
    obtain ⟨hdid, -⟩ := State.mailAccess_did hadm hbox rfl (State.decideOn_abt (v := 0#32)) (chanOnly_unstage s c)
    exact answers_of_gated hmode rfl hdid
  case get =>
    obtain ⟨ch', honly, -, hch⟩ := ((chanOnly.refl s c).readWords c 0 1).takeHead hmsgs hwords
    obtain ⟨hdid, hdata, -⟩ := State.mailAccess_did hadm hbox rfl (State.decideOn_get (v := 0#32) hmsgs hwords hgood) honly
    rw [hch hlink] at hdid
    refine answers_of_gated hmode rfl ?_
    rw [State.mailGet_takes hm]
    exact ⟨hdata.trans (loW_setWidth _), hdid⟩
  case peek =>
    refine answers_of_gated hmode rfl ?_
    rw [← State.mailPeek_next hbox hmsgs hwords hgood]
    rfl
  case drop =>
    obtain ⟨ch', honly, -, hch⟩ := (chanOnly.refl s c).freeHead hmsgs
    obtain ⟨hdid, -⟩ := State.mailAccess_did hadm hbox rfl (State.decideOn_drop (v := 0#32) hmsgs) honly
    rw [hch hlink] at hdid
    exact answers_of_gated hmode rfl hdid

end Machine
end Sys2Proof
end

section
/-! The pool scrubber (R250) and the unit endpoints of shift engines (R257, R258): O28. -/
namespace Sys2Proof
namespace Machine

/-! ### A row checked (R250) -/

theorem State.readRow_sound {s : State} {row : Nat} (h : ∀ j < 4, (s.poolWord (4 * row + j)).soft = false) : s.readRow row = s := by
  have h0 : (s.poolWord (4 * row)).soft = false := h 0 (by decide)
  simp [State.readRow, State.each, h0, h 1, h 2, h 3]
/-- The one word of a row in error is corrected and counted. -/
theorem State.readRow_first {s : State} {row : Nat} (h0 : (s.poolWord (4 * row)).soft = true)
    (h : ∀ j, 1 ≤ j → j < 4 → (s.poolWord (4 * row + j)).soft = false) :
    s.readRow row = (s.setPool (4 * row) { s.poolWord (4 * row) with soft := false }).rcount rMcPoolErr 0 16 1 := by
  simp [State.readRow, State.each, h0, h 1, h 2, h 3]
theorem State.readRow_chans (s : State) (row : Nat) : (s.readRow row).chans = s.chans :=
  State.each_keeps (·.chans) _ _ (fun s j => by dsimp only; split <;> rfl) s

/-- One count in the low half of MC_POOLERR, as a check of a row makes it. -/
theorem poolErr_counted {s t : State} (hregs : t.regs = (s.rcount rMcPoolErr 0 16 1).regs) (hchans : t.chans = s.chans) :
    (t.reg rMcPoolErr).toNat % 2 ^ 16 = min (2 ^ 16 - 1) ((s.reg rMcPoolErr).toNat % 2 ^ 16 + 1) ∧
    sameRegs s t (fun a => a = rMcPoolErr) ∧ t.chans = s.chans := by
  have hreg (a : Nat) : t.reg a = (s.rcount rMcPoolErr 0 16 1).reg a := State.reg_eq_of_regs_eq hregs a
  refine ⟨?_, fun a ha => by rw [hreg, State.reg_rcount, if_neg ha], hchans⟩
  rw [hreg, State.reg_rcount, if_pos rfl, ← fld_zero, fld_satFld _ _ _ (by decide), fld_zero]

/-! ### A word found in its row -/

theorem State.readRow_chan (s : State) (row c : Nat) : (s.readRow row).chan c = s.chan c := ((chanOnly.refl s c).readRow row).1
/-- Where the words of a channel lie depends on MCn_CFG and the channel alone (R249). -/
theorem State.readRow_liveAddr (s : State) (row : Nat) (c : Fin 4096) (k : Nat) : (s.readRow row).liveAddr c k = s.liveAddr c k := by
  obtain ⟨hch, -, hregs, -⟩ := (chanOnly.refl s c).readRow row
  have hcfg : (s.readRow row).reg (rMcCfg c) = s.reg (rMcCfg c) := hregs _ (by simp only [rMcCfg, rMcPoolErr]; omega)
  simp only [State.liveAddr, State.ringAddr, State.allot, State.rfld, hcfg, hch]

section
variable {s : State} {c row : Fin 4096} {m : Msg} {r : List Msg} {w : PWord} {l : List PWord} (hmsgs : (s.chan c).msgs = m :: r)
  (hwords : m.words = w :: l)
include hmsgs hwords

theorem Chan.liveWords_pos : 0 < (s.chan c).liveWords := by
  simp only [Chan.liveWords, hmsgs, List.map_cons, List.sum_cons, hwords, List.length_cons]
  omega
theorem Chan.markWord_first : (s.chan c).markWord 0 = { s.chan c with msgs := { m with words := { w with bad := true } :: l } :: r } := by
  simp [Chan.markWord, markMsgs, markBad, hmsgs, hwords]

variable (hrow : s.liveAddr c 0 / 4 = row.val)
include hrow

theorem exec_poolScrub_bad : exec (.poolScrub row (.bad c 0)) s = .next (s.gated
    (((s.readRow row).setPool (s.liveAddr c 0) { (s.readRow row).poolWord (s.liveAddr c 0) with bad := true }).modChan c
      fun ch => ch.markWord 0)) := by
  show execPoolScrub row (.bad c 0) s = _
  simp [execPoolScrub, State.readRow_chan, State.readRow_liveAddr, hrow, Chan.liveWords_pos hmsgs hwords]
theorem exec_poolScrub_upset : exec (.poolScrub row (.upset c 0)) s = .next (s.gated
    ((s.readRow row).setPool (s.liveAddr c 0) { (s.readRow row).poolWord (s.liveAddr c 0) with soft := true })) := by
  show execPoolScrub row (.upset c 0) s = _
  simp [execPoolScrub, State.readRow_chan, State.readRow_liveAddr, hrow, Chan.liveWords_pos hmsgs hwords]
end

/-! ### Words of unit endpoints (R257, R258) -/

@[simp] theorem State.se_modSe (s : State) (n k : Nat) (f : SeUnit → SeUnit) :
    (s.modSe n f).se k = if k = n then f (s.se n) else s.se k := by
  simp [State.modSe, State.se, Bank.get_put]
theorem State.se_eq_of_ses_eq {s t : State} (h : t.ses = s.ses) (n : Nat) : t.se n = s.se n := by simp only [State.se, h]

section
variable {s : State} {c n : Nat} {w : PWord}

theorem State.toTxQueue_takes {m : Msg} {r : List Msg} {l : List PWord} (hmsgs : (s.chan c).msgs = m :: r) (hwords : m.words = w :: l)
    (hgood : w.bad = false) (hroom : (s.se n).txq.length < s.txCap n) :
    s.toTxQueue c n = ((s.readWords c 0 1).takeHead c 1).modSe n (fun e => { e with txq := e.txq ++ [w.v] }) := by
  simp [State.toTxQueue, hroom, State.unitTake, hmsgs, hwords, hgood]

/-- The word that a receive queue gives up, staged on its channel. -/
def State.rxStaged (s : State) (c n : Nat) (w : Word) (l : List Word) : State := (s.modSe n (fun e => { e with rxq := l })).stage c [w]

theorem chanOnly_rxStaged (s : State) (c n : Nat) (x : Word) (l : List Word) : chanOnly (s.modSe n fun e => { e with rxq := l }) c
    { s.chan c with staged := (s.chan c).staged ++ [{ v := x }], wr := ((s.chan c).wr + 1) % max 1 (s.allot c) } (s.rxStaged c n x l) :=
  chanOnly_stage _ c x
theorem State.poolWord_rxStaged (s : State) (c n : Nat) (x : Word) (l : List Word) :
    (s.rxStaged c n x l).poolWord (s.ringAddr c (s.chan c).wr) = { v := x } :=
  (State.poolWord_setPool _ _ _ _).trans (if_pos rfl)

theorem State.fromRxQueue_gives {x : Word} {l : List Word} (hrx : (s.se n).rxq = x :: l) (hfree : 1 ≤ s.freeWords c)
    (hroom : (s.chan c).msgs.length < 8) (per : Nat) : s.fromRxQueue c n per =
      if (s.chan c).staged.length + 1 < per then s.rxStaged c n x l else (s.rxStaged c n x l).publish c := by
  have hlen : ((s.rxStaged c n x l).chan c).staged.length = (s.chan c).staged.length + 1 := by
    rw [(chanOnly_rxStaged s c n x l).1, List.length_append, List.length_singleton]
  have hready : ¬ (s.freeWords c < 1 || (s.chan c).fullMsgs) = true := by simp [Chan.fullMsgs, hroom, Nat.ne_of_gt hfree]
  rw [← hlen, State.fromRxQueue, hrx]
  exact if_neg hready
end

section
variable {s : State} {c : Fin 4096} (hrun : s.mode = .run) (hrec : (s.chan c).hasRec = true)
include hrun hrec

theorem exec_unitEndpointTransfer_tx (hkind : epKind (s.chan c).recvEp = 2) :
    exec (.unitEndpointTransfer c true) s = .next (s.toTxQueue c (epUnit (s.chan c).recvEp)) := by
  show execUnitEndpointTransfer c true s = _
  simp [execUnitEndpointTransfer, hrun, hrec, hkind]
theorem exec_unitEndpointTransfer_rx (hkind : epKind (s.chan c).sendEp = 2) :
    exec (.unitEndpointTransfer c false) s =
      .next (s.fromRxQueue c (epUnit (s.chan c).sendEp) (epSub (s.chan c).sendEp / 8 + 1)) := by
  show execUnitEndpointTransfer c false s = _
  simp [execUnitEndpointTransfer, hrun, hrec, hkind]
end

/-- Settles O28, check by check of a row and transfer by transfer. That the errors of the pool come with the check of their row is the
model's choice (notes/assumptions/22.md). -/
theorem poolScrubAndUnitEndpoints : Obligations.PoolScrubAndUnitEndpoints := by
  unfold Obligations.PoolScrubAndUnitEndpoints
  intro s row c hmode
  refine ⟨fun hsound => ⟨?clean, ?corrected⟩, fun h0 hrest => ?first, fun m r w l hmsgs hwords hrow => ⟨?bad, ?upset⟩,
    fun hrun hrec => ⟨fun m r w l hkind hmsgs hwords hgood hroom => ?tx, fun w l hkind hrx hfree hroom => ?rx⟩⟩
  case clean => exact answers_of_gated hmode rfl (State.readRow_sound hsound)
  case corrected =>
    refine answers_of_gated hmode rfl ?_
    dsimp only
    rw [State.readRow_sound hsound]
    exact poolErr_counted rfl rfl
  case first =>
    refine answers_of_gated hmode rfl ?_
    dsimp only
    rw [State.readRow_first (eq_true_of_ne_false h0) hrest]
    exact ⟨poolErr_counted rfl rfl, by simp⟩
  case bad =>
    obtain ⟨hch, hother, -⟩ := (((chanOnly.refl s c).readRow row).setPool (s.liveAddr c 0)
      { (s.readRow row).poolWord (s.liveAddr c 0) with bad := true }).modChan (·.markWord 0)
    exact answers_of_gated hmode (exec_poolScrub_bad hmsgs hwords hrow) ⟨hch.trans (Chan.markWord_first hmsgs hwords), hother⟩
  case upset =>
    exact answers_of_gated hmode (exec_poolScrub_upset hmsgs hwords hrow) ⟨by simp, State.readRow_chans s row⟩
  case tx =>
    obtain ⟨ch', honly, hch, -⟩ := ((chanOnly.refl s c).readWords c 0 1).takeHead hmsgs hwords
    refine ⟨_, exec_unitEndpointTransfer_tx hrun hrec hkind, ?_⟩
    rw [State.toTxQueue_takes hmsgs hwords hgood hroom]
    generalize (s.readWords c 0 1).takeHead c 1 = u at honly
    obtain ⟨hu, -, -, hmem, hthr, hses⟩ := honly
    refine ⟨?_, ?_, hmem, hthr⟩
    · rw [State.se_modSe, if_pos rfl, State.se_eq_of_ses_eq hses]
    · rw [← hch, ← hu]; rfl
  case rx =>
    refine ⟨_, exec_unitEndpointTransfer_rx hrun hrec hkind, ?_⟩
    rw [State.fromRxQueue_gives hrx hfree hroom]
    have honly := chanOnly_rxStaged s c (epUnit (s.chan c).sendEp) w l
    have hpool := State.poolWord_rxStaged s c (epUnit (s.chan c).sendEp) w l
    generalize s.rxStaged c (epUnit (s.chan c).sendEp) w l = u at honly hpool
    split
    case isTrue hmore =>
      obtain ⟨hu, -, -, hmem, hthr, hses⟩ := honly
      refine ⟨by simp [State.se_eq_of_ses_eq hses], hmem, hthr, hpool, fun _ => by rw [hu], fun hper => ?_⟩
      exact absurd hmore (Nat.not_lt.2 hper)
    case isFalse hdone =>
      obtain ⟨hu, -, -, hmem, hthr, hses⟩ := honly.publish
      refine ⟨by simp [State.se_eq_of_ses_eq hses], hmem, hthr, hpool, fun hper => absurd hper hdone, fun _ => ?_⟩
      rw [hu]
      exact ⟨rfl, by simp⟩

end Machine
end Sys2Proof
end

section
/-! THEOREM. O60: every command goes on, touches no command waiting behind it, and leaves memory and unit registers in canonical form.
`keeps s t` says that `t` came from `s` by operations that do so. One lemma `keeps.<op>` per operation of the model says that the
operation may stand at the end of such a chain, `exec_<command>_keeps` says it of a command, and `exec_keeps` of all of them. -/
namespace Sys2Proof
namespace Machine
set_option Elab.async false

/-- No command of the queue is touched, and storage in canonical form stays so. -/
def keeps (s t : State) : Prop := t.pending = s.pending ∧ (s.canon → t.canon)


variable {s t u u1 : State}

theorem keeps.refl (s : State) : keeps s s := ⟨rfl, id⟩
theorem keeps.trans (h : keeps s t) (k : keeps t u) : keeps s u := ⟨k.1.trans h.1, k.2 ∘ h.2⟩
/-- The queue and both kinds of storage as they were. -/
theorem keeps.same (h : keeps s t) (hq : u.pending = t.pending := by rfl) (hm : u.mem = t.mem := by rfl)
    (hr : u.regs = t.regs := by rfl) : keeps s u := by
  refine ⟨hq.trans h.1, fun hs => ?_⟩
  obtain ⟨hmem, hregs⟩ := h.2 hs
  exact ⟨hm ▸ hmem, hr ▸ hregs⟩
theorem keeps.snd {α : Type} {p : α × State} {a : α} (h : keeps s p.2) (e : p = (a, u)) : keeps s u := by subst e; exact h
theorem keeps.snd_snd {α β : Type} {p : α × β × State} {a : α} {b : β} (h : keeps s p.2.2) (e : p = (a, b, u)) : keeps s u := by
  subst e; exact h
theorem keeps.ite {c : Prop} [Decidable c] (h : keeps s t) (k : keeps s u) : keeps s (if c then t else u) := by split <;> assumption
theorem keeps.ite_snd {α : Type} {c : Prop} [Decidable c] {p q : α × State} (h : keeps s p.2) (k : keeps s q.2) :
    keeps s (if c then p else q).2 := by split <;> assumption
theorem keeps.foldl {α : Type} {f : State → α → State} (h : keeps s t) {l : List α} (hf : ∀ {u}, keeps s u → ∀ x, keeps s (f u x)) :
    keeps s (l.foldl f t) := by
  induction l generalizing t with
  | nil => exact h
  | cons x l ih => exact ih (hf h x)
theorem keeps.foldl_snd {α β : Type} {f : β × State → α → β × State} {q : β × State} (h : keeps s q.2) {l : List α}
    (hf : ∀ {q}, keeps s q.2 → ∀ x, keeps s (f q x).2) : keeps s (l.foldl f q).2 := by
  induction l generalizing q with
  | nil => exact h
  | cons x l ih => exact ih (hf h x)
theorem keeps.each {f : State → Nat → State} (h : keeps s t) {l : List Nat} (hf : ∀ {u}, keeps s u → ∀ n, keeps s (f u n)) :
    keeps s (t.each l f) := h.foldl hf
theorem keeps.setReg (h : keeps s t) {a v} : keeps s (t.setReg a v) := h.trans ⟨rfl, State.setReg_canon t a v⟩
theorem keeps.setByte (h : keeps s t) {a v} : keeps s (t.setByte a v) := h.trans ⟨rfl, State.setByte_canon t a v⟩
theorem keeps.writeLE (h : keeps s t) {a n v} : keeps s (t.writeLE a n v) :=
  h.trans ⟨by rw [State.writeLE_frame], State.writeLE_canon t a n v⟩
theorem keeps.writeBytes (h : keeps s t) {a l} : keeps s (t.writeBytes a l) :=
  h.trans ⟨by rw [State.writeBytes_frame], fun k => ⟨State.writeBytes_wf l t a k.1, by rw [State.writeBytes_frame]; exact k.2⟩⟩
theorem keeps.modReg (h : keeps s t) {a f} : keeps s (t.modReg a f) := h.setReg
theorem keeps.rset (h : keeps s t) {a a1} : keeps s (t.rset a a1) := h.modReg
theorem keeps.rclr (h : keeps s t) {a a1} : keeps s (t.rclr a a1) := h.modReg
theorem keeps.rput (h : keeps s t) {a a1 b} : keeps s (t.rput a a1 b) := h.modReg
theorem keeps.rsetFld (h : keeps s t) {a lo n v} : keeps s (t.rsetFld a lo n v) := h.modReg
theorem keeps.rcount (h : keeps s t) {a lo n a3} : keeps s (t.rcount a lo n a3) := h.modReg
theorem keeps.gated (h : keeps s t) (k1 : keeps s u1) : keeps s (t.gated u1) := .ite h k1
theorem keeps.setThr (h : keeps s t) {a0 a1} : keeps s (t.setThr a0 a1) := h.same
theorem keeps.modThr (h : keeps s t) {a0 f} : keeps s (t.modThr a0 f) := h.setThr
theorem keeps.setChan (h : keeps s t) {c a1} : keeps s (t.setChan c a1) := h.same
theorem keeps.modChan (h : keeps s t) {c f} : keeps s (t.modChan c f) := h.setChan
theorem keeps.setUpset (h : keeps s t) {w} : keeps s (t.setUpset w) := h.same
theorem keeps.drew (h : keeps s t) : keeps s (t.drew) := h.same
theorem keeps.pulse (h : keeps s t) {q} : keeps s (t.pulse q) := h.same
theorem keeps.recPush (h : keeps s t) {a0} : keeps s (t.recPush a0) := by
  unfold State.recPush
  dsimp only
  split
  · exact h.same
  · exact .ite h.same h.rcount
theorem keeps.recBin (h : keeps s t) {unit metric index bin sev} : keeps s (t.recBin unit metric index bin sev) := h.recPush
theorem keeps.recVal (h : keeps s t) {unit metric index v sev} : keeps s (t.recVal unit metric index v sev) := h.recPush
theorem keeps.raise (h : keeps s t) {src} : keeps s (t.raise src) := (keeps.ite h.rset h).rcount.rsetFld.recBin.same
theorem keeps.freezeTrigger (h : keeps s t) {bit} : keeps s (t.freezeTrigger bit) := by
  unfold State.freezeTrigger
  split
  · exact h.same.rset
  · exact h.rset
  · exact h.rset
theorem keeps.modStand (h : keeps s t) {n f} : keeps s (t.modStand n f) := h.same
theorem keeps.latchCause (h : keeps s t) {n bit alarm} : keeps s (t.latchCause n bit alarm) := .ite h.rset.rsetFld h.rset
theorem keeps.askStand (h : keeps s t) {n bit alarm} : keeps s (t.askStand n bit alarm) :=
  .ite h <| .ite h.latchCause.modStand h.modStand
theorem keeps.haltOne (h : keeps s t) {a0} : keeps s (t.haltOne a0) := .ite h h.same.modThr
theorem keeps.haltThread (h : keeps s t) {a0} : keeps s (t.haltThread a0) := h.each fun h _ => h.haltOne
theorem keeps.haltStand (h : keeps s t) {n} : keeps s (t.haltStand n) := .ite h (h.rset.each fun h _ => h.haltOne)
theorem keeps.hitMatch (h : keeps s t) {a0 bit ctl} : keeps s (t.hitMatch a0 bit ctl) :=
  .ite (keeps.ite h.rset.rsetFld.freezeTrigger h.rset.rsetFld).haltThread <|
    .ite (keeps.ite h.rset.rsetFld.freezeTrigger h.rset.rsetFld).haltStand <| .ite h.rset.rsetFld.freezeTrigger h.rset.rsetFld
theorem keeps.bpStop (h : keeps s t) {a0 l} : keeps s (t.bpStop a0 l) := h.each fun h1 _ => h1.hitMatch
theorem keeps.wpStop (h : keeps s t) {a0 l} : keeps s (t.wpStop a0 l) := h.each fun h1 _ => h1.hitMatch
theorem keeps.setTfa (h : keeps s t) {a0 cause v} : keeps s (t.setTfa a0 cause v) := h.setReg
theorem keeps.askRestart (h : keeps s t) {a0} : keeps s (t.askRestart a0) := .ite (h.each fun h1 _ => h1.modThr) h
theorem keeps.trapTo (h : keeps s t) {a0 cause impr multi pc} : keeps s (t.trapTo a0 cause impr multi pc) := .ite h.askRestart h.modThr
theorem keeps.preciseTrap (h : keeps s t) {a0 tr pc} : keeps s (t.preciseTrap a0 tr pc) :=
  (keeps.ite (keeps.recBin (by
  split
  · exact h.setTfa
  · exact h)).raise (by
  split
  · exact h.setTfa
  · exact h)).trapTo
theorem keeps.countSlot (h : keeps s t) {i} : keeps s (t.countSlot i) := .ite h h.rcount.rsetFld
theorem keeps.countIssue (h : keeps s t) {i} : keeps s (t.countIssue i) := h.rcount.countSlot
theorem keeps.chkRecord (h : keeps s t) {i pc v} : keeps s (t.chkRecord i pc v) := h.modThr
theorem keeps.chkLater (h : keeps s t) {i pc v} : keeps s (t.chkLater i pc v) := h.modThr
theorem keeps.stepEnd (h : keeps s t) {a0} : keeps s (t.stepEnd a0) := .ite h.haltOne h
theorem keeps.retireIssue (h : keeps s t) {a0} : keeps s (t.retireIssue a0) := h.modThr.stepEnd
theorem keeps.meetUpset (h : keeps s t) {i} : keeps s (t.meetUpset i) := by
  unfold State.meetUpset
  split
  · exact h.setUpset
  · exact h
theorem keeps.issue {i cp pre} {body : Thread → State → State × Option (BitVec 64)} (h : keeps s t)
    (hbody : ∀ {u}, keeps s u → ∀ k, keeps s (body k u).1) : keeps s (t.issue i cp pre body) := by
  unfold State.issue
  dsimp only
  refine .ite ?_ h
  split
  · exact h.meetUpset.countSlot.bpStop
  · refine .ite h.meetUpset.countSlot.modThr.preciseTrap.stepEnd ?_
    split
    · exact h.meetUpset.countSlot.preciseTrap.stepEnd
    · exact (hbody h.meetUpset.countIssue.modThr _).chkRecord.retireIssue
theorem keeps.issueLater {i cp pre} {body : Thread → State → State × Option (BitVec 64)} (h : keeps s t)
    (hbody : ∀ {u}, keeps s u → ∀ k, keeps s (body k u).1) : keeps s (t.issueLater i cp pre body) :=
  h.issue fun h1 _ => (hbody h1 _).chkLater
theorem keeps.issueWait (h : keeps s t) {i ok f} : keeps s (t.issueWait i ok f) := h.issueLater (fun h1 _ => h1.modThr)
theorem keeps.issueVal (h : keeps s t) {i ok rd f} : keeps s (t.issueVal i ok rd f) := h.issue (fun h1 _ => h1.modThr)
theorem keeps.issuePair (h : keeps s t) {i ok rd f} : keeps s (t.issuePair i ok rd f) := h.issue (fun h1 _ => h1.modThr)
theorem keeps.issueDelayed (h : keeps s t) {i rd f} : keeps s (t.issueDelayed i rd f) := h.issue (fun h1 _ => h1.modThr)
theorem keeps.issueDelayedPair (h : keeps s t) {i ok rd f} : keeps s (t.issueDelayedPair i ok rd f) := h.issue (fun h1 _ => h1.modThr)
theorem keeps.issueThr (h : keeps s t) {i ok f} : keeps s (t.issueThr i ok f) := h.issue (fun h1 _ => h1.modThr)
theorem keeps.aluArith (h : keeps s t) {i m rd ra rb f g} : keeps s (aluArith i m rd ra rb f g t) := by
  unfold Machine.aluArith
  split
  · exact h.issuePair
  · exact h.issueVal
  · exact h.issueVal
theorem keeps.aluWide (h : keeps s t) {i wide rd ra rb f g} : keeps s (aluWide i wide rd ra rb f g t) := .ite h.issuePair h.issueVal
theorem keeps.aluRR (h : keeps s t) {i rd ra rb f} : keeps s (aluRR i rd ra rb f t) := h.issueVal
theorem keeps.aluR (h : keeps s t) {i rd ra f} : keeps s (aluR i rd ra f t) := h.issueVal
theorem keeps.branchIf (h : keeps s t) {i off c} : keeps s (branchIf i off c t) := h.issue (fun h1 _ => h1.modThr)
theorem keeps.setPool (h : keeps s t) {a w} : keeps s (t.setPool a w) := h.same
theorem keeps.stageWord (h : keeps s t) {c w} : keeps s (t.stageWord c w) := h.setPool.modChan
theorem keeps.stage (h : keeps s t) {c ws} : keeps s (t.stage c ws) := h.foldl fun h1 _ => h1.stageWord
theorem keeps.readRow (h : keeps s t) {row} : keeps s (t.readRow row) := h.each fun h1 _ => (keeps.ite h1.setPool.rcount h1)
theorem keeps.readWords (h : keeps s t) {c a1 n} : keeps s (t.readWords c a1 n) := h.each fun h1 _ => h1.readRow
theorem keeps.publish (h : keeps s t) {c} : keeps s (t.publish c) := h.modChan
theorem keeps.unstage (h : keeps s t) {c} : keeps s (t.unstage c) := h.modChan
theorem keeps.freeHead (h : keeps s t) {c} : keeps s (t.freeHead c) := h.modChan
theorem keeps.takeHead (h : keeps s t) {c n} : keeps s (t.takeHead c n) := by
  unfold State.takeHead
  dsimp only
  split
  · exact .ite h.modChan.freeHead h.modChan
  · exact h.modChan
theorem keeps.poolBad (h : keeps s t) {c} : keeps s (t.poolBad c) := h.rcount.rset.recBin.pulse
theorem keeps.poolBads (h : keeps s t) {c ws} : keeps s (t.poolBads c ws) := h.foldl fun h1 _ => h1.poolBad
theorem keeps.decideOn (h : keeps s t) {c op a} (e : t.decideOn c op = some (a, u)) : keeps s u := by
  unfold State.decideOn at e
  dsimp only at e
  split at e
  case h_1 =>
    split at e
    · cases e; exact h
    · split at e <;> cases e
      exact h.stage
  case h_2 =>
    split at e
    · cases e; exact h
    · split at e <;> cases e
      exact h.stage.publish
  case h_3 =>
    split at e
    · cases e; exact h
    · split at e <;> cases e
      exact h.publish
  case h_4 => cases e; exact h.unstage
  case h_5 =>
    split at e
    · cases e
    · split at e
      · cases e; exact h
      · split at e <;> cases e
        · exact h.readWords.poolBads.takeHead
        · exact h.readWords.takeHead
  case h_6 => split at e <;> cases e; exact h
  case h_7 =>
    split at e <;> cases e
    · exact h
    · exact h.freeHead
theorem keeps.poolDecide (h : keeps s t) {n op a} (e : t.poolDecide n op = some (a, u)) : keeps s u := by
  unfold State.poolDecide at e
  dsimp only at e
  split at e
  · cases e; exact h
  split at e
  · cases e; exact h
  split at e
  · cases e; exact h.modThr
  · exact h.decideOn e
theorem keeps.answer (h : keeps s t) {a0 op a} : keeps s (t.answer a0 op a) := h.each fun h1 _ => h1.modThr
theorem keeps.sendChan (h : keeps s t) {a0 op} : keeps s (t.sendChan a0 op) :=
  .ite (h.each fun h1 _ => h1.modThr).answer (by
  split
  · have h1 := keeps.poolDecide (h.each fun h1 _ => h1.modThr) ‹_›
    exact h1.answer
  · exact (keeps.ite (h.each fun h1 _ => h1.modThr).answer <|
      .ite (h.each fun h1 _ => h1.modThr).answer ((h.each fun h1 _ => h1.modThr).same.modThr.each fun h1 _ => h1.modThr)))
theorem keeps.issueChan (h : keeps s t) {i ok mk} : keeps s (t.issueChan i ok mk) := h.issueLater fun h1 _ => by
  dsimp only
  split
  · exact h1.modThr
  · split
    · exact h1.modThr
    · exact h1.sendChan
theorem keeps.writeAns (h : keeps s t) {a0 op a} : keeps s (t.writeAns a0 op a) := by
  unfold State.writeAns
  dsimp only
  split
  · exact .ite h.modThr.modThr.drew h.modThr
  · exact h.modThr
  · exact h
theorem keeps.uncount (h : keeps s t) {a0} : keeps s (t.uncount a0) := h.modReg
theorem keeps.heldMarkOne (h : keeps s t) {n} : keeps s (t.heldMarkOne n) := h.modThr
theorem keeps.mark (h : keeps s t) {n} : keeps s (t.mark n) := h.modThr
theorem keeps.policy (h : keeps s t) {a0 tag st pol} : keeps s (t.policy a0 tag st pol) := by
  unfold State.policy
  split
  · split
    · exact .ite h.modThr h
    · exact .ite (h.each fun h1 _ => h1.modThr) h
    · exact h
  · exact h.askStand
  · exact h
theorem keeps.actDead (h : keeps s t) {g} : keeps s (t.actDead g) := by
  unfold State.actDead
  dsimp only
  split
  · exact h
  · exact .ite h <| .ite ((h.setReg.each fun h1 _ => h1.setReg).rcount.recBin.pulse.foldl fun h _ => h.mark).rset.freezeTrigger.same
      ((h.setReg.each fun h1 _ => h1.setReg).rcount.recBin.pulse.foldl fun h _ => h.mark).policy
theorem keeps.actHeld (h : keeps s t) {g} : keeps s (t.actHeld g) :=
  .ite h ((h.rset.rcount.each fun h1 _ => h1.setReg).foldl fun h _ => h.heldMarkOne).same
theorem keeps.duePolicies (h : keeps s t) : keeps s (t.duePolicies) := h.same.foldl fun h1 _ => h1.policy
theorem keeps.modSe (h : keeps s t) {n f} : keeps s (t.modSe n f) := h.same
theorem keeps.emitRec (h : keeps s t) {n r} : keeps s (t.emitRec n r) := .ite h.modSe h
theorem keeps.setTcnt (h : keeps s t) {n v} : keeps s (t.setTcnt n v) := h.rsetFld
theorem keeps.setRcnt (h : keeps s t) {n v} : keeps s (t.setRcnt n v) := h.rsetFld
theorem keeps.sePull1 (h : keeps s t) {n} (e : t.sePull1 n = some u) : keeps s u := by
  unfold State.sePull1 at e
  split at e <;> cases e
  exact h.modSe.setReg.setReg.setTcnt
theorem keeps.sePush1 (h : keeps s t) {n keep} (e : t.sePush1 n keep = some u) : keeps s u := by
  unfold State.sePush1 at e
  split at e <;> cases e
  exact .ite h.modSe h.modSe.setReg.setRcnt
theorem keeps.seShiftOut (h : keeps s t) {n cnt} : keeps s (t.seShiftOut n cnt).2 := by
  unfold State.seShiftOut
  dsimp only
  split
  · exact h.setTcnt.setReg
  · exact h.setTcnt.setReg
theorem keeps.seShiftIn (h : keeps s t) {n cnt b} : keeps s (t.seShiftIn n cnt b) := h.setReg.setRcnt
theorem keeps.seIllegalAt (h : keeps s t) {n} : keeps s (t.seIllegalAt n) := h.rclr.rset.modSe.recBin
theorem keeps.seFinish (h : keeps s t) {n op tm out pc} : keeps s (t.seFinish n op tm out pc) := h.emitRec.rsetFld.modSe
theorem keeps.seStallWith (h : keeps s t) {n op tm kind begun shifted} : keeps s (t.seStallWith n op tm kind begun shifted) := h.modSe
/-- The state that an attempt leaves. -/
def SeTry.state : SeTry → State
  | .done s _ _ => s
  | .stall _ s _ => s
theorem keeps.seTry (h : keeps s t) {n op pins shifted} : keeps s (t.seTry n op pins shifted).state := by
  cases op with
  | br cond tgt =>
    unfold State.seTry
    dsimp only
    split
    · split
      · exact h.setReg
      · exact h.setReg
    · exact h
  | wait pc src arg =>
    unfold State.seTry
    dsimp only
    split
    · split
      · exact h
      · exact .ite h.modReg h
    · split <;> exact h
  | emit dest n1 refill =>
    unfold State.seTry
    dsimp -zeta only
    extract_lets s1
    cases e : s1 with
    | none => exact h
    | some u =>
      have hu : keeps s u := by
        unfold s1 at e
        split at e
        · exact h.sePull1 e
        · cases e; exact h
      dsimp only
      split
      · exact hu.seShiftOut
      · exact hu.seShiftOut
      · exact hu.seShiftOut.setReg
      · exact hu.seShiftOut
  | sample src n1 send =>
    unfold State.seTry
    dsimp -zeta only
    extract_lets bits s1
    have h1 : keeps s s1 := .ite h h.seShiftIn
    clear_value s1
    split
    · split
      · exact h1.sePush1 ‹_›
      · exact h1
    · exact h1
  | pull nb =>
    unfold State.seTry
    dsimp only
    split
    · exact h.sePull1 ‹_›
    · split
      · exact h.setReg.setTcnt.rset.rcount
      · exact h
  | push nb keep =>
    unfold State.seTry
    dsimp only
    split
    · exact h.sePush1 ‹_›
    · split
      · exact (keeps.ite h h.setReg.setRcnt).rset.rcount
      · exact h
  | copy dst src inv rev =>
    unfold State.seTry
    dsimp -zeta only
    extract_lets v0 v1 v
    clear_value v
    split
    · exact h.setReg
    · exact h.setReg
    · exact h
    · exact h
    · exact h.setReg.setTcnt
    · exact h.setReg.setRcnt
    · exact h
    · exact h.setReg
  | loadl l value => exact h.setReg
  | drive oe value | signal out | idle k => exact h
theorem keeps.seTry_done (h : keeps s t) {n op pins shifted out pc} (e : t.seTry n op pins shifted = .done u out pc) : keeps s u := by
  have hstate := h.seTry (n := n) (op := op) (pins := pins) (shifted := shifted)
  rwa [e] at hstate
theorem keeps.seTry_stall (h : keeps s t) {n op pins shifted k sh} (e : t.seTry n op pins shifted = .stall k u sh) : keeps s u := by
  have hstate := h.seTry (n := n) (op := op) (pins := pins) (shifted := shifted)
  rwa [e] at hstate

theorem keeps.seFirst (h : keeps s t) {n op tm pins} : keeps s (t.seFirst n op tm pins) := by
  unfold State.seFirst
  dsimp only
  split
  · exact .ite h.seStallWith (h.seTry_stall ‹_›).emitRec.seStallWith
  · exact .ite h.seStallWith (h.seTry_done ‹_›).seFinish
theorem keeps.setPads (h : keeps s t) {base a1 w} : keeps s (t.setPads base a1 w) := h.same
theorem keeps.seePads (h : keeps s t) {n pins} : keeps s (t.seePads n pins) := h.setPads
theorem keeps.padsMove (h : keeps s t) {base a1} : keeps s (t.padsMove base a1) := h.setPads.drew
theorem keeps.seExec (h : keeps s t) {n op tm pins} : keeps s (t.seExec n op tm pins) := .ite (keeps.ite h.seIllegalAt h.seFirst) h
theorem keeps.sePend (h : keeps s t) {n i} : keeps s (t.sePend n i) := h.rset
theorem keeps.seSetEn (h : keeps s t) {n en} : keeps s (t.seSetEn n en) := h.rput
theorem keeps.seSetProg (h : keeps s t) {n i w} : keeps s (t.seSetProg n i w) := h.setReg
theorem keeps.seAbandon (h : keeps s t) {n op} : keeps s (t.seAbandon n op) := by
  unfold State.seAbandon
  dsimp only
  split
  · exact h.rset.setTcnt
  · exact h.rset.setTcnt
  · exact h.rset.setRcnt
  · exact h.rset.setRcnt
  · exact h.rset
theorem keeps.sePcBegin (h : keeps s t) {n} : keeps s (t.sePcBegin n) := by
  unfold State.sePcBegin
  dsimp only
  split
  · exact h.padsMove.seIllegalAt
  · split
    · exact h.padsMove.seAbandon
    · exact .ite h.padsMove.seAbandon (h.padsMove.seTry_done ‹_›).seFinish
theorem keeps.seSetPc (h : keeps s t) {n pc} : keeps s (t.seSetPc n pc) := by
  unfold State.seSetPc
  split
  · exact .ite h.seAbandon.rsetFld.modSe <| .ite h.sePcBegin.rsetFld h.rsetFld.modSe
  · exact (keeps.ite h.sePcBegin h).rsetFld
theorem keeps.setCal (h : keeps s t) {n i c} : keeps s (t.setCal n i c) := h.same
theorem keeps.calDecide (h : keeps s t) {n i c} : keeps s (t.calDecide n i c) :=
  .ite h.setCal <| .ite h.setCal.rset.rset <| .ite h.setCal h.setCal
theorem keeps.modTmr (h : keeps s t) {n f} : keeps s (t.modTmr n f) := h.same
theorem keeps.tmSet (h : keeps s t) {n reg v} : keeps s (t.tmSet n reg v) := .ite h.setReg.setReg h.setReg
theorem keeps.tmRelease (h : keeps s t) {n v} : keeps s (t.tmRelease n v) := h.each fun h1 _ => h1.modThr
theorem keeps.tmFire (h : keeps s t) {n} : keeps s (t.tmFire n) := h.rset.modTmr.pulse.tmRelease
theorem keeps.tmWrap (h : keeps s t) {n} : keeps s (t.tmWrap n) := h.rset.pulse
theorem keeps.tmEval (h : keeps s t) {n} : keeps s (t.tmEval n) := .ite h.modTmr.tmFire h.modTmr
theorem keeps.tmWake (h : keeps s t) {n} : keeps s (t.tmWake n) := .ite h.tmEval h
theorem keeps.tmIncr (h : keeps s t) {n} : keeps s (t.tmIncr n) := .ite h.tmSet.tmWrap h.tmSet
theorem keeps.tmAdvance (h : keeps s t) {n} : keeps s (t.tmAdvance n) := .ite h.modTmr.tmIncr h.modTmr
theorem keeps.tmTick (h : keeps s t) {n} : keeps s (t.tmTick n) := .ite (keeps.ite h h.tmAdvance).tmEval h
theorem keeps.tmStart (h : keeps s t) {n en} : keeps s (t.tmStart n en) := h.tmSet.rput.modTmr
theorem keeps.tmWriteCmp (h : keeps s t) {n v} : keeps s (t.tmWriteCmp n v) := .ite h.setReg.tmWake h
theorem keeps.tmWriteCtl (h : keeps s t) {n v rwl} : keeps s (t.tmWriteCtl n v rwl) := .ite h.setReg.tmWake h
theorem keeps.unitPut (h : keeps s t) {c w} (e : t.unitPut c w = some u) : keeps s u := by
  unfold State.unitPut at e
  split at e <;> cases e
  exact h.stage.publish
theorem keeps.unitTake (h : keeps s t) {c w} (e : t.unitTake c = some (w, u)) : keeps s u := by
  unfold State.unitTake at e
  dsimp only at e
  split at e
  · cases e
  split at e
  · cases e
  split at e <;> cases e
  · exact h.readWords.poolBad.takeHead
  · exact h.readWords.takeHead
theorem keeps.tmCapture (h : keeps s t) {n} : keeps s (t.tmCapture n) := by
  have h2 {x y} : keeps s (((if t.rbit (rTmStat n) 1 then t.rset (rTmStat n) 2 else t).tmSet n x y).rset (rTmStat n) 1) :=
    (keeps.ite h.rset h).tmSet.rset
  unfold State.tmCapture
  dsimp only
  split
  next c _ =>
    cases e : State.unitPut _ c _ with
    | none => exact h2.rset
    | some u => exact h2.unitPut e
  next => exact h2
theorem keeps.tmCompareIn (h : keeps s t) {n} : keeps s (t.tmCompareIn n) :=
  .ite (by
  split
  · exact h
  · split
    · exact h
    · have h1 := keeps.unitTake h ‹_›
      exact h1.modTmr.tmWriteCmp) h
theorem keeps.tmReadCap (h : keeps s t) {n m wide} : keeps s (t.tmReadCap n m wide) := by
  unfold State.tmReadCap
  dsimp only
  split
  · exact h
  · exact .ite (keeps.ite h h.rclr).rclr <| .ite h h.rclr
theorem keeps.capReadAt (h : keeps s t) {a m wide} : keeps s (t.capReadAt a m wide) := by
  unfold State.capReadAt
  split
  · exact h.tmReadCap
  · exact h
theorem keeps.hostPairLow (h : keeps s t) {a} : keeps s (t.hostPairLow a) := by
  unfold State.hostPairLow
  dsimp only
  split
  · exact h.capReadAt.same
  · exact h
theorem keeps.hostPairHigh (h : keeps s t) {a} : keeps s (t.hostPairHigh a) :=
  .ite (by
  split
  · exact .ite (keeps.ite h.capReadAt h).same h.capReadAt.same
  · exact h.capReadAt.same) h
theorem keeps.groupStart (h : keeps s t) {m} : keeps s (t.groupStart m) :=
  .ite h (keeps.ite (h.each fun h1 _ => h1.tmStart.tmWake) (h.each fun h1 _ => h1.tmStart.tmWake).rset).rset
theorem keeps.tclk (h : keeps s t) : keeps s (t.tclk) := h.gated (h.same.each fun h1 _ => h1.tmTick)
theorem keeps.btSample (h : keeps s t) {p d first} : keeps s (t.btSample p d first) :=
  .ite (keeps.ite h.same.setReg.same.rset.rcount <| .ite h.same.setReg <|
    .ite h.same.setReg.setReg.setReg.rset h.same.setReg.setReg.setReg).pulse <| .ite h.same.setReg.same.rset.rcount <|
    .ite h.same.setReg <| .ite h.same.setReg.setReg.setReg.rset h.same.setReg.setReg.setReg
theorem keeps.btWriteOfsLo (h : keeps s t) {v} : keeps s (t.btWriteOfsLo v) := .ite h.same h.rset
theorem keeps.btWriteOfsHi (h : keeps s t) {v} : keeps s (t.btWriteOfsHi v) := .ite h.same h.rset
theorem keeps.btWriteAdj (h : keeps s t) {v} : keeps s (t.btWriteAdj v) := .ite h.setReg h.rset
theorem keeps.btWriteDisc (h : keeps s t) {v} : keeps s (t.btWriteDisc v) := .ite h.setReg h.setReg.same
theorem keeps.setHstat (h : keeps s t) {a0 code last err count} : keeps s (t.setHstat a0 code last err count) := h.setReg
theorem keeps.mailOn (h : keeps s t) {a0 f v} : keeps s (t.mailOn a0 f v).2 := by
  unfold State.mailOn
  dsimp only
  split
  · exact h.setHstat
  · split
    · exact h.setHstat
    · split
      · exact h.setHstat
      · have h1 := keeps.decideOn h ‹_›
        exact h1.setHstat
      · have h1 := keeps.decideOn h ‹_›
        exact h1.setHstat
      · have h1 := keeps.decideOn h ‹_›
        exact h1.setHstat
      · have h1 := keeps.decideOn h ‹_›
        exact h1
theorem keeps.mailAccess (h : keeps s t) {m a1 f v} : keeps s (t.mailAccess m a1 f v) := .ite h.mailOn.same h
theorem keeps.mailGet (h : keeps s t) {m a1} : keeps s (t.mailGet m a1) := by
  unfold State.mailGet
  split
  · exact h.same
  · exact h.mailAccess
theorem keeps.mailStatWrite (h : keeps s t) {m a1 v} : keeps s (t.mailStatWrite m a1 v) := by
  unfold State.mailStatWrite
  split
  · exact h.mailAccess
  · exact h.mailAccess
  · exact h.mailAccess
  · exact h
theorem keeps.toTxQueue (h : keeps s t) {c n} : keeps s (t.toTxQueue c n) :=
  .ite (by
  split
  · have h1 := keeps.unitTake h ‹_›
    exact h1.modSe
  · exact h) h
theorem keeps.fromRxQueue (h : keeps s t) {c n per} : keeps s (t.fromRxQueue c n per) := by
  unfold State.fromRxQueue
  dsimp only
  split
  · exact h
  · exact .ite h <| .ite h.modSe.stage h.modSe.stage.publish
theorem keeps.cpAsk (h : keeps s t) {r} : keeps s (t.cpAsk r) := h.same
theorem keeps.trAsk (h : keeps s t) {a0 n} : keeps s (t.trAsk a0 n) := h.same
theorem keeps.cpQuit (h : keeps s t) {p} : keeps s (t.cpQuit p) := h.same
theorem keeps.cpDrop (h : keeps s t) {a0} : keeps s (t.cpDrop a0) := h.cpQuit
theorem keeps.spWriteLE (h : keeps s t) {a n v} : keeps s (t.spWriteLE a n v) := h.writeLE
theorem keeps.rekey (h : keeps s t) {w} : keeps s (t.rekey w) := by
  unfold State.rekey
  split
  · exact h
  · refine .ite h ?_
    extract_lets s1
    have h1 : keeps s s1 := h.foldl fun h2 _ => h2.setByte
    clear_value s1
    exact h1.same
theorem keeps.setAside (h : keeps s t) {key} : keeps s (t.setAside key) := by
  refine .ite h ⟨h.1, fun hs => ?_⟩
  obtain ⟨hmem, hregs⟩ := h.2 hs
  exact ⟨Bank.wf_filter _ _ _ hmem, hregs⟩
theorem keeps.setBad (h : keeps s t) {w b} : keeps s (t.setBad w b) := .ite h.rekey.same.writeLE h.rekey.same
theorem keeps.wordZero (h : keeps s t) {w} : keeps s (t.wordZero w) := h.setBad.writeLE
theorem keeps.spErrAddr (h : keeps s t) {w kind maint} : keeps s (t.spErrAddr w kind maint) := .ite h.rset h.setReg
theorem keeps.spCount (h : keeps s t) {w o f} : keeps s (t.spCount w o f) := by
  unfold State.spCount
  dsimp only
  split
  · exact h
  · exact h.rcount.rset.recBin
  · exact h.rcount.rset.spErrAddr.recBin
  · exact h.rcount.rset.spErrAddr.recBin.raise
  · exact h.rcount.rset.spErrAddr.recBin
theorem keeps.readAt (h : keeps s t) {w lw err f} : keeps s (t.readAt w lw err f).2 := by
  unfold State.readAt
  extract_lets s0 e d s1
  have h1 : keeps s s1 := h.rekey.spCount
  clear_value s1 d
  split <;> dsimp only
  · exact h1.foldl fun h2 _ => h2.setByte
  · exact h1.foldl fun h2 _ => h2.setByte
  · exact h1.setBad
  · exact h1
theorem keeps.spRead (h : keeps s t) {w err f} : keeps s (t.spRead w err f).2 := h.readAt
theorem keeps.setLane (h : keeps s t) {b slot l} : keeps s (t.setLane b slot l) := h.same
theorem keeps.setXq (h : keeps s t) {e l} : keeps s (t.setXq e l) := h.same
theorem keeps.fillLanes {e : Nat} : ∀ {n : Nat} {t : State}, keeps s t → keeps s (t.fillLanes e n)
  | 0, _, h => h
  | n + 1, _, h => by
    unfold State.fillLanes
    split
    · exact .ite h.setLane.setXq.fillLanes h
    · exact h
theorem keeps.pushLane (h : keeps s t) {a0 a r} : keeps s (t.pushLane a0 a r) := h.setXq.fillLanes
theorem keeps.arbitrate (h : keeps s t) {b r slot} (e : t.arbitrate b = some (r, slot, u)) : keeps s u := by
  unfold State.arbitrate at e
  extract_lets take at e
  have htake {k : Nat} {t1 : State} (h1 : keeps s t1) (e : take k t1 = some (r, slot, u)) : keeps s u := by
    unfold take at e
    dsimp only at e
    split at e <;> cases e
    exact .ite h1.setLane.fillLanes h1.setLane
  split at e
  · exact htake h.same e
  · split at e
    · exact htake h.same e
    · exact htake h e
theorem keeps.dmaGrant (h : keeps s t) {b} : keeps s (t.dmaGrant b) := h.same
theorem keeps.p3Late (h : keeps s t) {wait} : keeps s (t.p3Late wait) := .ite h.rcount.rset.rsetFld.recVal h
theorem keeps.spRefused (h : keeps s t) {m} : keeps s (t.spRefused m) := by
  unfold State.spRefused
  split
  · exact h.rset
  · exact h
theorem keeps.trackHard (h : keeps s t) {row page bank} : keeps s (t.trackHard row page bank) := by
  unfold State.trackHard
  dsimp only
  split
  · exact .ite h <| .ite h.same.recBin.rset h.same
  · exact .ite h <| .ite h.recBin.rset h.same
theorem keeps.checkWord (h : keeps s t) {w err f} : keeps s (t.checkWord w err f) := .ite h.readAt.trackHard h.readAt
theorem keeps.lapStart (h : keeps s t) : keeps s (t.lapStart) := h.same.setReg
theorem keeps.ttBegin (h : keeps s t) {b a1} : keeps s (t.ttBegin b a1) := .ite h.setReg.same.rset h.setReg.same
theorem keeps.ttStart (h : keeps s t) {m key b a3} : keeps s (t.ttStart m key b a3) := .ite h.spRefused <| .ite h.rset h.ttBegin
theorem keeps.ttStop (h : keeps s t) {m key} : keeps s (t.ttStop m key) := .ite h.spRefused <| .ite h.rset h.same
theorem keeps.ttRestore (h : keeps s t) {errs} : keeps s (t.ttRestore errs) :=
  (h.foldl fun h1 _ => h1.checkWord).foldl fun h1 _ => h1.checkWord
theorem keeps.ttFail (h : keeps s t) {fails} : keeps s (t.ttFail fails) := by
  unfold State.ttFail
  dsimp only
  split
  · exact h
  · exact (h.rset.rcount.setReg.foldl fun h1 _ => h1.recBin)
theorem keeps.spRelease (h : keeps s t) : keeps s (t.spRelease) := .ite h.lapStart.same.ttBegin h.lapStart
theorem keeps.wclr (h : keeps s t) {m key w} : keeps s (t.wclr m key w) := .ite h.spRefused <| .ite h.rset h.same
theorem keeps.retRefuse (h : keeps s t) {reason} : keeps s (t.retRefuse reason) :=
  .ite h.rset.rsetFld.recBin <| .ite h.rset.rsetFld.recBin h.rset.rsetFld
theorem keeps.copyBegin (h : keeps s t) {e page d src} : keeps s (t.copyBegin e page d src) := by
  unfold State.copyBegin
  extract_lets s1
  have h1 : keeps s s1 := h.setReg.rsetFld
  clear_value s1
  exact h1.same
theorem keeps.retirePage (h : keeps s t) {m key cmd page} : keeps s (t.retirePage m key cmd page) := by
  unfold State.retirePage
  refine .ite h.spRefused <| .ite h.retRefuse <| .ite h.retRefuse <| .ite h.retRefuse <| .ite h.retRefuse ?_
  dsimp only
  split
  · exact h.retRefuse
  · exact h.retRefuse
  · exact h.rset.copyBegin
  · exact h.copyBegin
theorem keeps.copyGrant (h : keeps s t) {e err} : keeps s (t.copyGrant e err) :=
  (keeps.ite h.readAt.setBad.writeLE h.readAt.setBad.rsetFld).same
theorem keeps.copyRest {e errs} : ∀ {n : Nat} {t : State}, keeps s t → keeps s (t.copyRest e errs n)
  | 0, _, h => h
  | n + 1, _, h => by
    unfold State.copyRest
    exact h.copyGrant.copyRest
theorem keeps.seqPass (h : keeps s t) : keeps s t.seqPass := by
  unfold State.seqPass
  refine .ite h ?_
  extract_lets s0 sp s1
  have h0 : keeps s s0 := h.drew
  have h1 : keeps s s1 := .ite h0.same h
  clear_value s1
  split
  · exact h1
  · exact .ite h1.drew.copyGrant h1
theorem keeps.spWrite (h : keeps s t) {m a v} : keeps s (t.spWrite m a v) :=
  .ite h.wclr <| .ite (keeps.ite h.ttStart <| .ite h.ttStop <| .ite h.rset h.spRefused) <| .ite h.retirePage <|
    .ite (keeps.ite h.spRefused h) <| .ite (keeps.ite (keeps.ite h.setReg.same.ttBegin h.setReg.same) <| .ite h.setReg h.setReg.same) <|
    .ite h.setReg <| .ite h.setReg <| .ite h.setReg h
theorem keeps.modSvc (h : keeps s t) {i f} : keeps s (t.modSvc i f) := h.same
theorem keeps.svCount (h : keeps s t) {i a1 n} : keeps s (t.svCount i a1 n) := h.rcount
theorem keeps.svFlag (h : keeps s t) {i a1} : keeps s (t.svFlag i a1) := h.rset
theorem keeps.putMsg (h : keeps s t) {c ws} (e : t.putMsg c ws = some u) : keeps s u := by
  unfold State.putMsg at e
  split at e <;> cases e
  exact h.stage.publish
theorem keeps.svPark (h : keeps s t) {i c} : keeps s (t.svPark i c) := .ite h h.same.modThr
theorem keeps.svUnpark (h : keeps s t) {c} : keeps s (t.svUnpark c) := .ite h.modThr h
theorem keeps.svFlushN {i : Nat} : ∀ {l : List (Nat × List Word)} {t : State}, keeps s t → keeps s (t.svFlushN i l)
  | [], _, h => h.modSvc
  | _ :: _, _, h => by
    unfold State.svFlushN
    split
    · exact (h.putMsg ‹_›).svUnpark.svFlushN
    · exact h.modSvc.svPark
theorem keeps.svFlush (h : keeps s t) {i} : keeps s (t.svFlush i) := h.svFlushN
theorem keeps.svSend (h : keeps s t) {i c ws} : keeps s (t.svSend i c ws) := by
  unfold State.svSend
  split
  · exact h.modSvc.svFlush
  · exact h
theorem keeps.svTry (h : keeps s t) {i c ws} : keeps s (t.svTry i c ws).2 := by
  unfold State.svTry
  split
  · split
    · have h1 := keeps.putMsg h ‹_›
      exact h1
    · exact h.svFlag
  · exact h
theorem keeps.svTrap (h : keeps s t) {i r role} : keeps s (t.svTrap i r role) := h.svFlag.askRestart
theorem keeps.svTake (h : keeps s t) {i r role p} : keeps s (t.svTake i r role p).2 := by
  unfold State.svTake
  dsimp only
  split
  · exact h.svFlush
  · split
    · exact h.svFlush
    · split
      · exact h.svFlush
      · split
        · exact h.svFlush.readWords.poolBads.freeHead.svTrap
        · exact h.svFlush.readWords.freeHead
theorem keeps.svAnswer (h : keeps s t) {i r role p m status fixed data} : keeps s (t.svAnswer i r role p m status fixed data) := h.svSend
theorem keeps.svAnswerMore {i c m fixed n} : ∀ {k : Nat} {t : State} {d : List Byte}, keeps s t →
    keeps s (t.svAnswerMore i c m fixed n k d)
  | 0, _, _, h => h
  | k + 1, _, _, h => by
    unfold State.svAnswerMore
    exact .ite h.svSend h.svSend.svAnswerMore
theorem keeps.svRead (h : keeps s t) {a} : keeps s (t.svRead a).2 := by
  unfold State.svRead
  dsimp only
  split
  · exact h
  · split
    · exact h.dmaGrant.spRead
    · exact h.dmaGrant.spRead
theorem keeps.svReads : ∀ {l : List Nat} {t : State}, keeps s t → keeps s (t.svReads l).2
  | [], _, h => h
  | _ :: _, _, h => by
    unfold State.svReads
    split
    · exact keeps.snd h.svRead ‹_›
    · have h1 := keeps.snd h.svRead ‹_›
      split <;> exact keeps.snd h1.svReads ‹_›
theorem keeps.svMod (h : keeps s t) {a f} : keeps s (t.svMod a f).2 := by
  unfold State.svMod
  split
  · have h1 := keeps.snd (keeps.svRead h) ‹_›
    exact h1.spWriteLE
  · have h1 := keeps.snd (keeps.svRead h) ‹_›
    exact h1
theorem keeps.svMods : ∀ {l : List (Nat × (Word → Word))} {t : State}, keeps s t → keeps s (t.svMods l).2
  | [], _, h => h
  | _ :: _, _, h => by
    unfold State.svMods
    split
    · exact (keeps.snd h.svMod ‹_›).svMods
    · exact keeps.snd h.svMod ‹_›
theorem keeps.svBegin (h : keeps s t) {i} : keeps s (t.svBegin i) := h.rsetFld.cpDrop.modSvc
theorem keeps.uartFlush (h : keeps s t) {i r tag} : keeps s (t.uartFlush i r tag) := h.svSend.modSvc
theorem keeps.uartChars {i r} : ∀ {l : List Byte} {t : State}, keeps s t → keeps s (t.uartChars i r l)
  | [], _, h => h
  | _ :: _, _, h => by
    unfold State.uartChars
    exact .ite h.modSvc.svCount.uartChars (.ite h.modSvc.svCount h.modSvc.svCount.uartFlush.uartChars)
theorem keeps.mbReadBits (h : keeps s t) {base count a n} : keeps s (t.mbReadBits base count a n).2 := by
  unfold State.mbReadBits
  dsimp only
  split
  · exact h
  · split
    · exact h
    · split
      · have h1 := keeps.snd (keeps.svReads h) ‹_›
        exact h1
      · have h1 := keeps.snd (keeps.svReads h) ‹_›
        exact h1
theorem keeps.mbReadRegs (h : keeps s t) {base count a n} : keeps s (t.mbReadRegs base count a n).2 := by
  unfold State.mbReadRegs
  split
  · exact h
  · split
    · exact h
    · split
      · have h1 := keeps.snd (keeps.svReads h) ‹_›
        exact h1
      · have h1 := keeps.snd (keeps.svReads h) ‹_›
        exact h1
theorem keeps.mbWrote {q : Bool × State} (h : keeps s q.2) {body a n} : keeps s (mbWrote q body a n).2 := by
  unfold Machine.mbWrote
  split <;> exact h
theorem keeps.devBytes (h : keeps s t) {a n} : keeps s (t.devBytes a n).2 := by
  unfold State.devBytes
  split
  · have h1 := keeps.snd (keeps.svReads h) ‹_›
    exact h1
  · have h1 := keeps.snd (keeps.svReads h) ‹_›
    exact h1
theorem keeps.devObjects : ∀ {n : Nat} {t : State} {a room : Nat}, keeps s t → keeps s (t.devObjects n a room).2
  | 0, _, _, _, h => h
  | n + 1, _, _, _, h => by
    unfold State.devObjects
    split
    · have h1 := keeps.snd h.devBytes ‹_›
      split
      · exact h1
      split
      · have h2 := keeps.snd h1.devBytes ‹_›
        split <;> exact keeps.snd h2.devObjects ‹_›
      · exact keeps.snd h1.devBytes ‹_›
    · exact keeps.snd h.devBytes ‹_›
theorem keeps.devBlock (h : keeps s t) {a} : keeps s (t.devBlock a).2 := by
  unfold State.devBlock
  split
  · have h1 := keeps.snd (keeps.devBytes h) ‹_›
    split
    · exact h1.devObjects
    · exact h1
  · have h1 := keeps.snd (keeps.devBytes h) ‹_›
    exact h1
theorem keeps.mbDevId (h : keeps s t) {i r b} : keeps s (t.mbDevId i r b).2 := by
  unfold State.mbDevId
  dsimp only
  split
  · exact h
  · split
    · exact h
    · split
      · have h1 := keeps.snd (keeps.devBlock h) ‹_›
        exact h1.svFlag
      · have h1 := keeps.snd (keeps.devBlock h) ‹_›
        split
        · split
          · exact h1
          · exact h1
        · exact h1
theorem keeps.mbPerform (h : keeps s t) {i r fc b} : keeps s (t.mbPerform i r fc b).2 := by
  refine .ite_snd (.ite_snd h <| .ite_snd h.mbReadBits h.mbReadBits) <| .ite_snd (.ite_snd h <| .ite_snd h.mbReadRegs h.mbReadRegs) <|
    .ite_snd (.ite_snd h <| .ite_snd h h.svMods.mbWrote) <| .ite_snd (.ite_snd h <| .ite_snd h h.svMods.mbWrote) <|
    .ite_snd (.ite_snd h <| .ite_snd h h.svMods.mbWrote) <| .ite_snd (.ite_snd h <| .ite_snd h h.svMods.mbWrote) <|
    .ite_snd (.ite_snd h <| .ite_snd h ?_) <| .ite_snd h.mbDevId h
  split
  · exact keeps.snd h.svMods ‹_›
  · have h1 := keeps.snd h.svMods ‹_›
    split <;> exact keeps.snd h1.mbReadRegs ‹_›
theorem keeps.sdiCounts (h : keeps s t) {i e} : keeps s (t.sdiCounts i e) := h.svCount.svCount.svCount
theorem keeps.sdiFail (h : keeps s t) {i r m silent fixed} : keeps s (t.sdiFail i r m silent fixed) :=
  .ite h.svCount.modSvc.svAnswer h.svCount.modSvc.svFlag.svAnswer
theorem keeps.modDnp (h : keeps s t) {i f} : keeps s (t.modDnp i f) := h.modSvc
theorem keeps.dlReply (h : keeps s t) {i r fc} : keeps s (t.dlReply i r fc) := h.modSvc
theorem keeps.iinSet (h : keeps s t) {i a1} : keeps s (t.iinSet i a1) := h.modDnp
theorem keeps.iinClear (h : keeps s t) {i mask} : keeps s (t.iinClear i mask) := h.modDnp
theorem keeps.dlPush (h : keeps s t) {i r} : keeps s (t.dlPush i r) := by
  unfold State.dlPush
  split
  · exact h
  · exact h.modSvc
theorem keeps.dlSend (h : keeps s t) {i r b} : keeps s (t.dlSend i r b) := .ite h.modDnp.modDnp.dlPush h.modDnp.modSvc
theorem keeps.appFrag (h : keeps s t) {i r fc seq first con objs} : keeps s (t.appFrag i r fc seq first con objs) := h.modDnp.dlSend
theorem keeps.appSendObjs (h : keeps s t) {i r fc seq con objs} : keeps s (t.appSendObjs i r fc seq con objs) := h.appFrag
theorem keeps.appSend (h : keeps s t) {i r fc seq con} : keeps s (t.appSend i r fc seq con) := h.appSendObjs
theorem keeps.unsol (h : keeps s t) {i r tries} : keeps s (t.unsol i r tries) := h.modDnp.appSendObjs
theorem keeps.dnpConfirm (h : keeps s t) {i r uns} : keeps s (t.dnpConfirm i r uns) := .ite h <| .ite h.appFrag h.modDnp
theorem keeps.dnpStore (h : keeps s t) {i r e} : keeps s (t.dnpStore i r e) := .ite h.iinSet <| .ite h.modDnp.unsol h.modDnp
theorem keeps.dnpNotice (h : keeps s t) {i kind fc} : keeps s (t.dnpNotice i kind fc) := h.modDnp
theorem keeps.ctlDone (h : keeps s t) {i r code} : keeps s (t.ctlDone i r code) :=
  .ite h.modDnp (by
  split
  · exact .ite h.modDnp.modDnp.appSendObjs h.modDnp.modDnp
  · exact h.modDnp)
theorem keeps.dnpFreeze (h : keeps s t) {i r fc} : keeps s (t.dnpFreeze i r fc) := by
  unfold State.dnpFreeze
  dsimp only
  split
  · have h1 := keeps.snd (keeps.svReads h) ‹_›
    split
    · have h2 := keeps.snd (keeps.svReads h1) ‹_›
      exact .ite h2.svMods.modDnp.dnpNotice h2.svMods.iinSet.svFlag
    · have h2 := keeps.snd (keeps.svReads h1) ‹_›
      exact h2.iinSet.svFlag
  · have h1 := keeps.snd (keeps.svReads h) ‹_›
    exact h1.iinSet.svFlag
theorem keeps.dnpWrite (h : keeps s t) {i b} : keeps s (t.dnpWrite i b) := by
  unfold State.dnpWrite
  dsimp only
  split
  · exact .ite (keeps.ite h.iinClear h.iinSet) <| .ite (keeps.ite (keeps.ite h.modDnp h.modDnp.iinClear).dnpNotice h.iinSet) h.iinSet
  · exact h.iinSet
theorem keeps.dnpStatic (h : keeps s t) {i r a2} : keeps s (t.dnpStatic i r a2).2 := by
  unfold State.dnpStatic
  dsimp only
  split
  · exact h
  · split
    · have h1 := keeps.snd (keeps.svReads h) ‹_›
      split
      · exact h1
      · split
        · have h2 := keeps.snd (keeps.svReads h1) ‹_›
          exact .ite h2.same h2
        · have h2 := keeps.snd (keeps.svReads h1) ‹_›
          exact h2.svFlag
    · have h1 := keeps.snd (keeps.svReads h) ‹_›
      exact h1.svFlag
theorem keeps.dnpHeadObjs (h : keeps s t) {i r q} : keeps s (t.dnpHeadObjs i r q).2 := by
  unfold State.dnpHeadObjs
  split
  · refine keeps.foldl_snd h fun h1 _ => ?_
    dsimp only
    split
    · exact h1
    · exact h1.dnpStatic
  split
  · exact h
  split
  · exact h
  · exact h.dnpStatic
theorem keeps.dnpRead (h : keeps s t) {i r seq l} : keeps s (t.dnpRead i r seq l) := by
  unfold State.dnpRead
  dsimp only
  refine keeps.ite (keeps.iinClear (keeps.appSendObjs ?_)) (keeps.appSendObjs ?_)
  all_goals
    refine keeps.foldl_snd h.modDnp fun h1 _ => ?_
    split
    · exact h1.dnpHeadObjs
    · exact h1.dnpHeadObjs.iinSet
theorem keeps.dnpOperate (h : keeps s t) {i r fc seq b late} : keeps s (t.dnpOperate i r fc seq b late) := by
  unfold State.dnpOperate
  dsimp only
  split
  · exact .ite h.iinSet.appSend h
  · exact .ite h.modDnp.appSendObjs h.modDnp
theorem keeps.dnpRequest (h : keeps s t) {i r fc seq b late} : keeps s (t.dnpRequest i r fc seq b late) :=
  .ite (by
  split
  · exact h.iinSet.appSend
  · exact h.dnpRead) (keeps.ite h.dnpWrite.appSend (keeps.ite h.dnpOperate (keeps.ite (keeps.ite (keeps.ite h.dnpFreeze
      h.iinSet).appSend <| .ite h.dnpFreeze h.iinSet) (keeps.ite h.appSendObjs.dnpNotice (keeps.ite h.appSendObjs.dnpNotice (keeps.ite (by
  split
  · exact h.iinSet.appSend
  · exact h.modDnp.appSend) (keeps.ite h.appSendObjs.drew <| .ite h.appSend h.iinSet.appSend)))))))
theorem keeps.dnpAuthFail (h : keeps s t) {i} : keeps s (t.dnpAuthFail i) := h.svCount.modDnp
theorem keeps.dnpAuthOk (h : keeps s t) {i r} : keeps s (t.dnpAuthOk i r) := h.modDnp.dnpRequest
theorem keeps.dnpCipher (h : keeps s t) {i a op slot dslot aad data tag} : keeps s (t.dnpCipher i a op slot dslot aad data tag) :=
  h.drew.drew.drew.cpAsk.modDnp
theorem keeps.dnpKeyStatus (h : keeps s t) {i r} : keeps s (t.dnpKeyStatus i r) := h.dnpCipher
theorem keeps.dnpG120 (h : keeps s t) {i r v seq b} : keeps s (t.dnpG120 i r v seq b) :=
  .ite h.modDnp.dnpCipher <| .ite (keeps.ite (keeps.ite h.dnpCipher h.dnpAuthFail) h) <| .ite h.dnpKeyStatus <| .ite h.dnpCipher <|
    .ite h h.iinSet.appSend
theorem keeps.svCipherEnd (h : keeps s t) {i stat rdata} : keeps s (t.svCipherEnd i stat rdata) := by
  unfold State.svCipherEnd
  dsimp only
  split
  · exact h
  · exact (keeps.ite (by
      split
      · exact h.dnpAuthOk
      · exact h.modDnp.dnpKeyStatus
      · exact h.modDnp.appSendObjs
      · exact h.modDnp.appSendObjs
      · exact h) (keeps.ite h.svFlag h).dnpAuthFail)
theorem keeps.svRandom (h : keeps s t) {i ws} : keeps s (t.svRandom i ws) := by
  unfold State.svRandom
  dsimp only
  split
  · exact h
  · exact .ite h.modDnp.appSendObjs h
theorem keeps.dnpFragment (h : keeps s t) {i r f late bcast} : keeps s (t.dnpFragment i r f late bcast) :=
  .ite h <| .ite (keeps.ite h.svCount.iinSet h.svCount).dnpConfirm <|
    .ite (keeps.ite (keeps.ite h.svCount.iinSet h.svCount).dnpG120 (keeps.ite h.svCount.iinSet h.svCount).iinSet.appSend) <|
    .ite (keeps.ite (keeps.ite h.svCount.iinSet h.svCount) <|
    .ite (keeps.ite (keeps.ite h.svCount.iinSet h.svCount).modDnp.dnpCipher (keeps.ite h.svCount.iinSet h.svCount).iinSet.appSend)
    (keeps.ite h.svCount.iinSet h.svCount).trAsk.modDnp) (keeps.ite h.svCount.iinSet h.svCount).dnpRequest
theorem keeps.dnpSegment (h : keeps s t) {i r d late bcast} : keeps s (t.dnpSegment i r d late bcast) := by
  unfold State.dnpSegment
  dsimp only
  split
  · exact h
  · split
    · exact h.modDnp
    · exact .ite (keeps.ite h.modDnp.dnpFragment h.modDnp) h.modDnp
theorem keeps.dnpFrame (h : keeps s t) {i r f late} : keeps s (t.dnpFrame i r f late) :=
  .ite (keeps.ite h.modDnp.dlPush <| .ite h.dlPush h) <| .ite (keeps.ite h.dnpSegment h) <| .ite h.modDnp.dlReply <|
    .ite (keeps.ite h.dlReply <| .ite h.modDnp.dlReply h.dlReply) <| .ite (keeps.ite h.dlReply <|
    .ite h.modDnp.dlReply.dnpSegment h.dlReply) <| .ite h.dnpSegment <| .ite h.dlReply h.dlReply
theorem keeps.modLk (h : keeps s t) {n f} : keeps s (t.modLk n f) := h.same
theorem keeps.lkDrop (h : keeps s t) {n kind} : keeps s (t.lkDrop n kind) := h.rcount.recBin
theorem keeps.lkRenew (h : keeps s t) {n} : keeps s (t.lkRenew n) := .ite h h.trAsk
theorem keeps.lkLine (h : keeps s t) {n ty f pay} : keeps s (t.lkLine n ty f pay) := (keeps.ite h h.rcount).modLk
theorem keeps.lkPut (h : keeps s t) {n ty f} : keeps s (t.lkPut n ty f) := .ite h.lkRenew <| .ite h.cpAsk.modLk h.modLk.lkLine
theorem keeps.lkSay (h : keeps s t) {n ty payload} : keeps s (t.lkSay n ty payload) := h.lkPut
theorem keeps.lkPumpN {n : Nat} : ∀ {k : Nat} {t : State}, keeps s t → keeps s (t.lkPumpN n k)
  | 0, _, h => h
  | k + 1, _, h => by
    unfold State.lkPumpN
    dsimp only
    refine .ite h ?_
    split
    · exact h
    · exact h.modLk.lkPut.lkPumpN
theorem keeps.lkPump (h : keeps s t) {n} : keeps s (t.lkPump n) := h.lkPumpN
theorem keeps.lkEnter (h : keeps s t) {n e} : keeps s (t.lkEnter n e) := h.modLk.lkPump
theorem keeps.takeCredit (h : keeps s t) {c} : keeps s (t.takeCredit c).2 := h.modChan
theorem keeps.lkOriginate (h : keeps s t) {ty dst chan payload origin} : keeps s (t.lkOriginate ty dst chan payload origin) :=
  .ite (h.each fun h1 _ => h1.lkEnter) (by
  split
  · exact (keeps.lkEnter (by
      split
      · exact h.takeCredit
      · exact h))
  · exact h)
theorem keeps.lkSendHead (h : keeps s t) {c} : keeps s (t.lkSendHead c) := by
  unfold State.lkSendHead
  dsimp only
  split
  · exact h
  · exact .ite (keeps.ite h.readWords.poolBads.modChan.lkOriginate h) <| .ite h <| .ite h.modChan.rset.recBin <|
      .ite h.readWords.poolBads.modChan.lkOriginate h
theorem keeps.lkSync (h : keeps s t) {c} : keeps s (t.lkSync c) := h.lkOriginate
theorem keeps.lkGrant (h : keeps s t) {c} : keeps s (t.lkGrant c) := h.modChan.lkOriginate
theorem keeps.lkPublish (h : keeps s t) {n c pay sec} : keeps s (t.lkPublish n c pay sec) := .ite h.lkDrop h.stage.publish.modChan
theorem keeps.lkCredit (h : keeps s t) {f sec} : keeps s (t.lkCredit f sec) := by
  unfold State.lkCredit
  split
  · exact .ite h.modChan h
  · exact h
theorem keeps.lkTakeSync (h : keeps s t) {n c pay} : keeps s (t.lkTakeSync n c pay) :=
  (keeps.ite h.modChan.rcount.rcount h.modChan.rcount.rcount.recPush).lkGrant
theorem keeps.lkTakeGrant (h : keeps s t) {c pay} : keeps s (t.lkTakeGrant c pay) := h.modChan
theorem keeps.frzCheck (h : keeps s t) : keeps s (t.frzCheck) := .ite h.same.freezeTrigger h
theorem keeps.lkDeliver (h : keeps s t) {n ty f sec} : keeps s (t.lkDeliver n ty f sec) := by
  unfold State.lkDeliver
  dsimp only
  split
  · exact .ite (keeps.ite h.lkCredit h).lkPublish (keeps.ite h.lkCredit h).lkDrop
  · exact .ite (keeps.ite h.lkCredit h).lkTakeSync (keeps.ite h.lkCredit h).lkDrop
  · exact .ite (keeps.ite h.lkCredit h).lkTakeGrant (keeps.ite h.lkCredit h).lkDrop
  · split
    · exact .ite (keeps.ite h.lkCredit h) (keeps.ite h.lkCredit h).lkDrop
    · exact (keeps.ite h.lkCredit h).lkDrop
  · exact .ite (keeps.ite h.lkCredit h).lkPublish (keeps.ite h.lkCredit h).lkDrop
  · exact .ite (keeps.ite h.lkCredit h).rset.same.frzCheck (keeps.ite h.lkCredit h).rset
  · exact (keeps.ite h.lkCredit h).same
  · exact .ite h.lkCredit h
theorem keeps.lkForward (h : keeps s t) {n m ty f} : keeps s (t.lkForward n m ty f) := .ite h.lkDrop <| .ite h.lkDrop h.lkEnter
theorem keeps.lkRoute (h : keeps s t) {n ty f} : keeps s (t.lkRoute n ty f) :=
  .ite (keeps.ite h.lkDeliver h) (keeps.ite (keeps.ite h.lkDeliver h.lkDrop) (keeps.ite (h.each fun h1 _ => h1.lkForward).lkDeliver
    (keeps.ite h.lkDeliver (by
  split
  · exact h.lkForward
  · exact h.lkDrop))))
theorem keeps.lkHello (h : keeps s t) {n} : keeps s (t.lkHello n) := .ite h h.lkPut
theorem keeps.castFree {c : Nat} : ∀ {k : Nat} {t : State}, keeps s t → keeps s (t.castFree c k)
  | 0, _, h => h
  | k + 1, _, h => by
    unfold State.castFree
    exact .ite h h.freeHead.castFree
theorem keeps.castSettle (h : keeps s t) {c} : keeps s (t.castSettle c) := .ite h.castFree <| .ite h h.modChan
theorem keeps.lkDown (h : keeps s t) {n} : keeps s (t.lkDown n) :=
  .ite ((h.modLk.foldl fun h1 _ => h1.lkDrop).each fun h _ => h.castSettle).rcount.recBin.pulse.frzCheck h
theorem keeps.lkAcked (h : keeps s t) {n e} : keeps s (t.lkAcked n e) := by
  unfold State.lkAcked
  dsimp only
  split
  · exact .ite h.modLk.rset h
  · exact .ite (keeps.ite h.modLk.rset h).castFree (keeps.ite h.modLk.rset h).freeHead
theorem keeps.lkAck (h : keeps s t) {n a} : keeps s (t.lkAck n a) := .ite (h.modLk.foldl fun h1 _ => h1.lkAcked).frzCheck h
theorem keeps.lkResend (h : keeps s t) {n e} : keeps s (t.lkResend n e) := h.rcount.modLk.lkPut
theorem keeps.lkUp (h : keeps s t) {n next} : keeps s (t.lkUp n next) :=
  (((h.modLk.lkAck.pulse.foldl fun h1 _ => h1.lkResend).each fun h1 _ => h1.modChan.lkSync).each fun h1 _ => h1.lkGrant).lkPump
theorem keeps.lkKeep (h : keeps s t) {n} : keeps s (t.lkKeep n) := h.modLk.foldl fun h1 _ => (by
  split
  · exact h1.lkRoute
  · exact h1)
theorem keeps.lkRestart (h : keeps s t) {n} : keeps s (t.lkRestart n) := h.lkKeep.modLk
theorem keeps.lkDiscard (h : keeps s t) {n} : keeps s (t.lkDiscard n) :=
  (h.rcount.modLk.foldl fun h1 _ => (by
  split
  · exact .ite h1.freeHead h1
  · exact h1)).each fun h _ => h.castSettle
theorem keeps.lkNewPeer (h : keeps s t) {n ses} : keeps s (t.lkNewPeer n ses) := by
  unfold State.lkNewPeer
  extract_lets s1 s2
  have h1 : keeps s s1 := h.lkDown
  have h2 : keeps s s2 := .ite h1 h1.rset
  exact h2.lkDiscard.modLk.lkRestart.lkHello
theorem keeps.lkTakeHello (h : keeps s t) {n f} : keeps s (t.lkTakeHello n f) := by
  unfold State.lkTakeHello
  extract_lets p id ses pses flags next s1 s2
  have h1 : keeps s s1 := h.setReg.setReg
  clear_value s1
  have h2 : keeps s s2 := .ite h1 h1.lkNewPeer
  exact .ite h.rset <| .ite h2.lkUp h2
theorem keeps.lkPass {n : Nat} : ∀ {k : Nat} {t : State}, keeps s t → keeps s (t.lkPass n k)
  | 0, _, h => h
  | k + 1, _, h => by
    unfold State.lkPass
    split
    · exact h
    · exact h.modLk.lkRoute.lkPass
theorem keeps.lkSeq (h : keeps s t) {n ty f} : keeps s (t.lkSeq n ty f) :=
  .ite h <| .ite h.modLk.lkPass <| .ite h.modLk h.modLk.modLk.lkSay
theorem keeps.lkSack (h : keeps s t) {n a bits} : keeps s (t.lkSack n a bits) :=
  .ite h.rcount (h.rcount.foldl fun h1 _ => (keeps.ite h1.lkResend h1))
theorem keeps.lkTime (h : keeps s t) {n p now bt} : keeps s (t.lkTime n p now bt) := by
  unfold State.lkTime
  extract_lets tsn rtsn nom tdep tarr l s1
  have h1 : keeps s s1 := h.modLk
  clear_value s1
  refine .ite h1.rset ?_
  split
  · exact h1
  · refine .ite h1 ?_
    extract_lets d
    clear_value d
    cases d with
    | none => exact h1
    | some d =>
      dsimp only
      have h2 {v} : keeps s ((if t.rbit (rLkCtl n) 1 then s1.drew else s1).setReg (rLkTest n) v) := (keeps.ite h1.drew h1).setReg
      exact .ite (keeps.same h2).rset <| .ite (keeps.same h2).btSample h2
theorem keeps.lkTake (h : keeps s t) {n ty f ct bt} : keeps s (t.lkTake n ty f ct bt) :=
  .ite h (keeps.ite h.rcount.modLk.lkTakeHello (keeps.ite h.rcount.modLk (keeps.lkPump (by
  split
  · exact .ite h.rcount.modLk.lkAck h.rcount.modLk.lkAck.lkSack
  · exact h.rcount.modLk.lkAck.lkTime
  · exact h.rcount.modLk.lkAck.lkSeq))))
theorem keeps.lkFrame (h : keeps s t) {n ty f} : keeps s (t.lkFrame n ty f) :=
  .ite h <| .ite h.rcount <| .ite h <| .ite h.cpAsk.modLk h.lkTake
theorem keeps.lkAuthBad (h : keeps s t) {n} : keeps s (t.lkAuthBad n) := h.rcount.recBin
theorem keeps.lkCipherEnd (h : keeps s t) {n stat rdata} : keeps s (t.lkCipherEnd n stat rdata) := by
  unfold State.lkCipherEnd
  dsimp only
  split
  · exact h
  · split
    · exact .ite (keeps.ite h.modLk.rset h.modLk).lkLine <| .ite h.modLk.rset h.modLk
    · exact .ite (keeps.ite (keeps.ite h.modLk.rset h.modLk).rset <| .ite h.modLk.rset h.modLk).lkAuthBad <|
        .ite (keeps.ite h.modLk.rset h.modLk).lkTake.modLk (keeps.ite h.modLk.rset h.modLk).lkAuthBad
theorem keeps.creditOn (h : keeps s t) {c n} (e : t.creditOn c n = some u) : keeps s u := by
  unfold State.creditOn at e
  dsimp only at e
  split at e <;> cases e
  exact h.takeCredit.modLk
theorem keeps.lkSession (h : keeps s t) {n w} : keeps s (t.lkSession n w) :=
  .ite h.trAsk (h.each fun h1 _ => (keeps.ite h1.lkDown.lkDiscard.lkRestart.modLk.lkHello h1.lkDown.lkDiscard.lkRestart.modLk))
theorem keeps.lkRefused (h : keeps s t) {m} : keeps s (t.lkRefused m) := by
  unfold State.lkRefused
  split
  · exact h.rset
  · exact h
theorem keeps.lkFreeze (h : keeps s t) {m key} : keeps s (t.lkFreeze m key) :=
  .ite h.lkRefused <| .ite (keeps.ite h.rset.lkOriginate.same.frzCheck h.rset.lkOriginate) h
theorem keeps.lkRtx (h : keeps s t) {m n len} : keeps s (t.lkRtx m n len) := .ite h.lkRefused <| .ite h.rset h.modLk.lkEnter
theorem keeps.lkResponse (h : keeps s t) {n f} : keeps s (t.lkResponse n f) := .ite h.rset (h.foldl fun h1 _ => h1.setReg).rset.rsetFld
theorem keeps.lkWrite (h : keeps s t) {m a v} : keeps s (t.lkWrite m a v) :=
  .ite h.lkFreeze (by
  split
  · exact .ite h.lkRtx <| .ite h h.lkRefused
  · exact (keeps.ite h.lkRefused <| .ite h.setReg <| .ite h.setReg <| .ite h.setReg <| .ite h.setReg h))
theorem keeps.setObj (h : keeps s t) {i o} : keeps s (t.setObj i o) := h.same
theorem keeps.modRec (h : keeps s t) {f} : keeps s (t.modRec f) := h.same
theorem keeps.askCommit (h : keeps s t) {crit} : keeps s (t.askCommit crit) := .ite h <| .ite h.modRec h.modRec
theorem keeps.create (h : keeps s t) {i a1} : keeps s (t.create i a1) :=
  .ite (keeps.ite h.setObj.modRec.pulse h.setObj.modRec) (by
  split
  · exact .ite (keeps.ite h.setObj.modRec.pulse h.setObj.modRec).askCommit.freezeTrigger (keeps.ite h.setObj.modRec.pulse
      h.setObj.modRec).askCommit
  · exact (keeps.ite h.setObj.modRec.pulse h.setObj.modRec).askCommit)
theorem keeps.applyUpd (h : keeps s t) {a0} : keeps s (t.applyUpd a0) := by
  unfold State.applyUpd
  dsimp only
  split
  · exact h.setObj.modRec
  · split
    · exact h.create
    · split
      · exact h.rcount.create
      · exact h.rcount
theorem keeps.latch (h : keeps s t) {i} : keeps s (t.latch i) := (h.foldl fun h1 _ => h1.setReg).rsetFld.rput
theorem keeps.cursorLoad (h : keeps s t) {i minsev} : keeps s (t.cursorLoad i minsev) := h.rsetFld.latch
theorem keeps.cursorNext (h : keeps s t) {i minsev} : keeps s (t.cursorNext i minsev) := by
  unfold State.cursorNext
  dsimp only
  split
  · exact h.rsetFld.rsetFld.latch.rclr
  · exact h.rsetFld.rsetFld.rset
theorem keeps.clrCtl (h : keeps s t) {v} : keeps s (t.clrCtl v) := .ite h.modRec.cpAsk h.rset
theorem keeps.clrChecked (h : keeps s t) {stat} : keeps s (t.clrChecked stat) := by
  unfold State.clrChecked
  dsimp only
  split
  · exact .ite h.trAsk.modRec <| .ite h.trAsk.modRec.rset h.trAsk.modRec.rset.recBin
  · exact h
theorem keeps.cmCtl (h : keeps s t) {m key} : keeps s (t.cmCtl m key) := .ite h.askCommit h.rset
theorem keeps.attempt (h : keeps s t) {from_ again} : keeps s (t.attempt from_ again) := by
  unfold State.attempt
  split
  · exact h.modRec.rset
  · exact h.modRec
theorem keeps.setCommit (h : keeps s t) {c} : keeps s (t.setCommit c) := h.modRec
theorem keeps.cmNext (h : keeps s t) {c} : keeps s (t.cmNext c) := by
  unfold State.cmNext
  split
  · exact h.setCommit
  · exact h.setCommit
theorem keeps.cmOk (h : keeps s t) {c data} : keeps s (t.cmOk c data) := by
  unfold State.cmOk
  dsimp only
  split
  · exact h.setCommit
  · exact h.setCommit
  · exact h.cmNext
  · exact .ite h.setCommit h.cmNext
  · exact h.setReg.rsetFld.rset.rset.modRec
  · exact h.attempt
theorem keeps.goodDown (h : keeps s t) : keeps s (t.goodDown) :=
  .ite (keeps.ite h.rsetFld.modRec.recBin h.rsetFld).modRec.recBin <| .ite h.rsetFld.modRec.recBin h.rsetFld
theorem keeps.cmFail (h : keeps s t) {c} : keeps s (t.cmFail c) := by
  unfold State.cmFail
  split
  · exact h.attempt
  · exact h.rset.goodDown.recBin.setCommit
theorem keeps.setFlash (h : keeps s t) {f} : keeps s (t.setFlash f) := h.same
theorem keeps.flIssue (h : keeps s t) {op second} : keeps s (t.flIssue op second) := h.same
theorem keeps.flashEnd (h : keeps s t) {data ok pulses} : keeps s (t.flashEnd data ok pulses) := by
  unfold State.flashEnd
  dsimp only
  split
  · exact h.setFlash
  · exact (keeps.ite (keeps.cmOk (by
      split
      · exact .ite h.setFlash.rsetFld.recVal.recBin h.setFlash.rsetFld.recVal
      · exact h.setFlash)) (keeps.cmFail (by
      split
      · exact .ite h.setFlash.rsetFld.recVal.recBin h.setFlash.rsetFld.recVal
      · exact h.setFlash)))
theorem keeps.sectFlags (h : keeps s t) {x} : keeps s (t.sectFlags x) :=
  .ite (keeps.ite h.rset h).rsetFld.rset (keeps.ite h.rset h).rsetFld
theorem keeps.erWrite (h : keeps s t) {m a v} : keeps s (t.erWrite m a v) :=
  .ite (keeps.ite h.cursorNext h.cursorLoad) <| .ite h.clrCtl <| .ite h.cmCtl <| .ite h.setReg <| .ite h.setReg h
theorem keeps.setView (h : keeps s t) {a0 v} : keeps s (t.setView a0 v) := h.same
theorem keeps.fireRoute (h : keeps s t) {r force} : keeps s (t.fireRoute r force) := by
  unfold State.fireRoute
  extract_lets s1
  have h1 : keeps s s1 := h.rset.rcount
  clear_value s1
  split
  · exact h1
  · extract_lets s2
    have h2 : keeps s s2 := h1.setView
    exact .ite h1.rset <| .ite h1.rset.rcount.rcount.recBin <| .ite h1.rset h2.same
theorem keeps.arrive (h : keeps s t) {a0} : keeps s (t.arrive a0) :=
  .ite (h.each fun h1 _ => h1.modThr) <| .ite h.sePend <| .ite (keeps.ite h.modTmr h.modTmr) h.rset
theorem keeps.clearInputs (h : keeps s t) {n} : keeps s (t.clearInputs n) := h.same
theorem keeps.evFire (h : keeps s t) {m key r} : keeps s (t.evFire m key r) := .ite h <| .ite h.rset h.rset.fireRoute
theorem keeps.evStatWrite (h : keeps s t) {m attn r v} : keeps s (t.evStatWrite m attn r v) :=
  .ite (keeps.ite h.modReg h.modReg) (by
  split
  · exact h.rset
  · exact h)
theorem keeps.threadRestore (h : keeps s t) {a0 halt} : keeps s (t.threadRestore a0 halt) := by
  unfold State.threadRestore
  dsimp only
  split
  · exact h
  · split
    · exact h
    · exact h.same.modThr
theorem keeps.seRestore (h : keeps s t) {r} : keeps s (t.seRestore r) :=
  (h.setReg.setReg.setReg.setReg.setReg.setReg.setReg.setReg.setReg.setReg.setReg.setReg.setReg.setReg.setReg.setReg.setReg.setReg
    |>.setReg |>.setReg |>.foldl fun h1 _ => h1.setReg).modSe
theorem keeps.setTaps (h : keeps s t) {n} : keeps s (t.setTaps n) := h.foldl fun h1 _ => h1.setReg
theorem keeps.seCommit (h : keeps s t) {r} : keeps s (t.seCommit r) := h.seRestore.setReg
theorem keeps.tmRestore (h : keeps s t) {r} : keeps s (t.tmRestore r) := h.setReg.setReg.setReg.setReg.setReg.modTmr
theorem keeps.evCommit (h : keeps s t) {r} : keeps s (t.evCommit r) := h.setReg
theorem keeps.evRestore (h : keeps s t) {r} : keeps s (t.evRestore r) := by
  unfold State.evRestore
  dsimp only
  split
  · exact .ite h.modReg h.modReg.setView
  · exact h.modReg
theorem keeps.bindPort (h : keeps s t) {ep recv c} : keeps s (t.bindPort ep recv c) := .ite h.modThr h
theorem keeps.chanCommit (h : keeps s t) {im base r} : keeps s (t.chanCommit im base r) := h.setReg.setChan.bindPort.bindPort
theorem keeps.chansCommit {im} : ∀ {l : List ChanRec} {base : Nat} {t : State}, keeps s t → keeps s (t.chansCommit im base l)
  | [], _, _, h => h
  | _ :: _, _, _, h => by
    unfold State.chansCommit
    exact h.chanCommit.chansCommit
theorem keeps.zoneSet (h : keeps s t) {z r locked} : keeps s (t.zoneSet z r locked) := h.setReg.setReg.setReg
theorem keeps.pinCommit (h : keeps s t) {r} : keeps s (t.pinCommit r) := h.setReg
theorem keeps.svCommit (h : keeps s t) {r} : keeps s (t.svCommit r) := h.setReg.setReg
theorem keeps.lkCommit (h : keeps s t) {r} : keeps s (t.lkCommit r) := h.setReg.setReg
theorem keeps.p1Resp (h : keeps s t) {src} : keeps s (t.p1Resp src) := h.setReg
theorem keeps.polClear (h : keeps s t) : keeps s (t.polClear) := h.each fun h _ => h.p1Resp
theorem keeps.polCommit (h : keeps s t) {p} : keeps s (t.polCommit p) := h.setReg
theorem keeps.engCommit (h : keeps s t) {im e} : keeps s (t.engCommit im e) := h.setReg
theorem keeps.engClass (h : keeps s t) {e} : keeps s (t.engClass e) := h.setReg.setReg
theorem keeps.clearRegs (h : keeps s t) {p} : keeps s (t.clearRegs p) :=
  h.trans ⟨rfl, fun ⟨hmem, hregs⟩ => ⟨hmem, Bank.wf_clear _ _ _ hregs⟩⟩
theorem keeps.commitImage (h : keeps s t) {im} : keeps s (t.commitImage im) := by
  unfold State.commitImage
  extract_lets im s0 s1 s2 s3 s4 s5 s6 s7 s8 s9 s10 s11 s12 s13 s14 s15 s16 s17 s18
  have h0 : keeps s s0 := h.clearRegs
  have h1 : keeps s s1 := h0.same
  clear_value s1
  have h2 : keeps s s2 := h1.foldl fun k _ => k.setReg
  clear_value s2
  have h3 : keeps s s3 := h2.foldl fun k _ => .ite k.setThr.setThr k.setThr
  clear_value s3
  have h4 : keeps s s4 := h3.foldl fun k _ => k.engCommit.engClass
  clear_value s4
  have h5 : keeps s s5 := h4.chansCommit.setReg
  clear_value s5
  have h6 : keeps s s6 := h5.foldl fun k _ => k.seCommit
  clear_value s6
  have h7 : keeps s s7 := h6.foldl fun k _ => k.tmRestore
  clear_value s7
  have h8 : keeps s s8 := (h7.foldl fun k _ => k.evCommit).rput
  clear_value s8
  have h9 : keeps s s9 := .ite (h8.foldl fun k _ => k.setReg) h8
  clear_value s9
  have h10 : keeps s s10 := h9.foldl fun k _ => .ite k k.zoneSet
  clear_value s10
  have h11 : keeps s s11 := (h10.foldl fun k _ => k.setReg).foldl fun k _ => k.pinCommit
  clear_value s11
  have h12 : keeps s s12 := h11.rsetFld.setReg
  clear_value s12
  have h13 : keeps s s13 := h12.foldl fun k _ => k.svCommit
  clear_value s13
  have h14 : keeps s s14 := (keeps.same h13).foldl fun k _ => by
    split
    · exact k.lkCommit
    · exact k.setReg.setReg
  clear_value s14
  have h15 : keeps s s15 := h14.setReg
  clear_value s15
  have h16 : keeps s s16 := by
    unfold s16
    split
    · exact h15.setReg
    · exact h15.setReg
  clear_value s16
  have h17 : keeps s s17 := h16.polClear.foldl fun k _ => k.polCommit
  clear_value s17
  have h18 : keeps s s18 := h17.setReg.setReg
  clear_value s18
  exact h18.setReg.rput
theorem keeps.modPin (h : keeps s t) {n f} : keeps s (t.modPin n f) := h.same
theorem keeps.modZone (h : keeps s t) {z f} : keeps s (t.modZone z f) := h.same
theorem keeps.chargeExempt (h : keeps s t) {z q} : keeps s (t.chargeExempt z q) :=
  .ite (keeps.ite h.modZone.rset h.modZone.rset.modZone.recBin) h.modZone
theorem keeps.exempt (h : keeps s t) {n f} : keeps s (t.exempt n f) := .ite (keeps.ite h.modPin.modPin h.modPin.chargeExempt) h.modPin
theorem keeps.chargeOwed (h : keeps s t) : keeps s (t.chargeOwed) := h.each fun h1 _ => h1.modPin.chargeExempt
theorem keeps.pinFs (h : keeps s t) {n} : keeps s (t.pinFs n) := h.exempt
theorem keeps.allFs (h : keeps s t) : keeps s (t.allFs) := h.each fun h _ => h.pinFs
theorem keeps.standFs (h : keeps s t) {st} : keeps s (t.standFs st) := h.each fun h _ => h.pinFs
theorem keeps.pinRelease (h : keeps s t) {n} : keeps s (t.pinRelease n) := h.setReg.exempt
theorem keeps.refuseFlag (h : keeps s t) {n bit} : keeps s (t.refuseFlag n bit) := h.rset.rset.recBin
theorem keeps.flagAll (h : keeps s t) {l} : keeps s (t.flagAll l) := .ite h (h.foldl fun h1 _ => h1.refuseFlag).pulse
theorem keeps.judgePart {isReg p} {j : Judged} (h : keeps s j.s) : keeps s (judgePart isReg j p).s := by
  unfold Machine.judgePart
  dsimp only
  split
  · exact h
  split
  · exact h
  · exact h.modPin
theorem keeps.judge (h : keeps s t) {isReg parts r} (e : t.judge isReg parts = .apply u r) : keeps s u := by
  have hparts : ∀ {l : List PinPart} {j : Judged}, keeps s j.s → keeps s (l.foldl (Machine.judgePart isReg) j).s := by
    intro l
    induction l with
    | nil => exact id
    | cons p l ih => exact fun hj => ih hj.judgePart
  unfold State.judge at e
  dsimp only at e
  split at e
  · cases e
  split at e
  · cases e
  split at e <;> cases e
  exact (hparts h).foldl fun h1 _ => h1.modZone

theorem keeps.govWrite (h : keeps s t) {n v} : keeps s (t.govWrite n v) := by
  unfold State.govWrite
  split
  · exact (h.judge ‹_›).modPin.flagAll
  · exact h.modPin.flagAll
  · exact (h.foldl fun h1 _ => h1.rset).modPin.pulse
theorem keeps.pinWrite (h : keeps s t) {n v} : keeps s (t.pinWrite n v) := .ite h.setReg <| .ite h.setReg.modPin h.setReg.govWrite
theorem keeps.pgOutWrite (h : keeps s t) {m n v} : keeps s (t.pgOutWrite m n v) :=
  .ite h.pinWrite (by
  split
  · exact h.rset
  · exact h)
theorem keeps.recOut (h : keeps s t) {n r} : keeps s (t.recOut n r) :=
  h.each fun h1 _ => (keeps.ite (keeps.ite h1.rput h1).rput <| .ite h1.rput h1)
theorem keeps.recPulses (h : keeps s t) {n r} : keeps s (t.recPulses n r) := h.each fun h1 _ => h1.pulse
theorem keeps.keepOut (h : keeps s t) (k1 : keeps s u1) {l} : keeps s (t.keepOut u1 l) := h.foldl fun h2 _ => h2.setReg
theorem keeps.sampleClamp (h : keeps s t) {n} : keeps s (t.sampleClamp n) := h.modPin.rset.rcount.modZone.pulse
theorem keeps.sampleHeldClamps (h : keeps s t) : keeps s (t.sampleHeldClamps) := h.each fun h _ => h.sampleClamp
theorem keeps.tapMoved (h : keeps s t) {p tap} : keeps s (t.tapMoved p tap) := h.each fun h1 _ => h1.rsetFld
theorem keeps.drainChan (h : keeps s t) {n c} : keeps s (t.drainChan n c) := .ite h.modChan <| .ite h.unstage h
theorem keeps.drainChans (h : keeps s t) {n} : keeps s (t.drainChans n) := h.each fun h1 _ => h1.drainChan
theorem keeps.standRestoreAll (h : keeps s t) {n} : keeps s (t.standRestoreAll n) := by
  unfold State.standRestoreAll
  dsimp only
  split
  · exact h
  · exact ((((((h.each fun h1 _ => h1.threadRestore).foldl fun h _ => h.seRestore).foldl fun h _ => h.tmRestore).foldl fun h1 _ =>
      h1.evRestore).foldl fun h1 _ => h1.modSe).clearInputs.foldl fun h1 _ => h1.modReg.modPin).setReg
theorem keeps.svRestart (h : keeps s t) {p} : keeps s (t.svRestart p) := by
  unfold State.svRestart
  split
  · exact h
  · exact (h.foldl fun h1 _ => h1.rcount.svBegin)
theorem keeps.wdLoad (h : keeps s t) {n} : keeps s (t.wdLoad n) := h.rsetFld
theorem keeps.seClocks (h : keeps s t) {l stopped} : keeps s (t.seClocks l stopped) := h.each fun h1 _ => h1.modSe
theorem keeps.seStart (h : keeps s t) {n} : keeps s (t.seStart n) := h.setReg.setReg.modSe
theorem keeps.standStart (h : keeps s t) {n} : keeps s (t.standStart n) := by
  unfold State.standStart
  dsimp only
  split
  · exact h
  · exact .ite ((((h.each fun h1 _ => h1.modThr).foldl fun h1 _ => (keeps.ite h1 h1.tmStart.tmWake)).foldl fun h1 _ =>
      h1.pinRelease).foldl fun h1 _ => h1.seStart).wdLoad.modStand ((((h.each fun h1 _ => h1.modThr).foldl fun h1 _ => (keeps.ite h1
      h1.tmStart.tmWake)).foldl fun h1 _ => h1.pinRelease).foldl fun h1 _ => h1.seStart).modStand
theorem keeps.standReleaseNow (h : keeps s t) {n} : keeps s (t.standReleaseNow n) :=
  (h.rsetFld.rsetFld.standStart.rcount.each fun h1 _ => h1.recBin).pulse.modStand.svRestart
theorem keeps.standGo (h : keeps s t) {n} : keeps s (t.standGo n) := .ite h.rsetFld h.standReleaseNow
theorem keeps.standRestored (h : keeps s t) {n} : keeps s (t.standRestored n) :=
  .ite h.standRestoreAll.modStand.rsetFld.recBin h.standRestoreAll.modStand
theorem keeps.stcCtl (h : keeps s t) {m n v} : keeps s (t.stcCtl m n v) := by
  unfold State.stcCtl
  dsimp only
  split
  · split
    · exact h.rset
    · exact h
  · exact .ite h <| .ite h.rset <| .ite (keeps.ite h.latchCause.modStand.standGo h.rset) <| .ite h.rset h.askStand
theorem keeps.wdKick (h : keeps s t) {m n key} : keeps s (t.wdKick m n key) :=
  .ite h (by
  split
  · exact .ite (keeps.ite h.wdLoad h) h.rset
  · exact h.rset)
theorem keeps.burnCut (h : keeps s t) : keeps s (t.burnCut) := by
  unfold State.burnCut
  dsimp only
  split
  · exact h
  · split
    · exact h
    · exact .ite h h.drew.same
theorem keeps.outside (h : keeps s t) : keeps s t.outside := h.trans ⟨rfl, fun _ => State.reset_canon⟩
theorem keeps.warmScope (h : keeps s t) {cause} : keeps s (t.warmScope cause) := by
  have h1 {u : State} (hq : u.pending = t.pending) (hm : u.mem = []) {p} (hr : u.regs = Bank.clear p t.regs) : keeps s u :=
    h.trans ⟨hq, fun ⟨_, hregs⟩ => ⟨by rw [hm]; rfl, hr ▸ Bank.wf_clear _ _ _ hregs⟩⟩
  unfold State.warmScope
  dsimp only
  refine keeps.setReg (keeps.modReg (keeps.modReg ?_))
  refine keeps.foldl (keeps.foldl (keeps.setReg (keeps.setReg (keeps.setReg ?_))) fun h2 _ => h2.setReg) fun h2 _ => h2.setReg
  exact h1 rfl rfl rfl
theorem keeps.alarmReset (h : keeps s t) {src frz frzal} : keeps s (t.alarmReset src frz frzal) := h.warmScope.rcount
theorem keeps.loadMirror (h : keeps s t) : keeps s (t.loadMirror) := (h.foldl fun h1 _ => h1.setReg).setReg
theorem keeps.fill (h : keeps s t) : keeps s t.fill := h.trans ⟨rfl, fun k => ⟨rfl, k.2⟩⟩
theorem keeps.recoveryLink (h : keeps s t) : keeps s (t.recoveryLink) := .ite h.same.modLk.trAsk h.same
theorem keeps.unitsOff (h : keeps s t) : keeps s (t.unitsOff) := h.same
theorem keeps.bootErr (h : keeps s t) {code src off} : keeps s (t.bootErr code src off) := h.setReg
theorem keeps.zonesBlank (h : keeps s t) : keeps s (t.zonesBlank) := h.foldl fun h1 _ => (keeps.ite h1 h1.zoneSet)
theorem keeps.enterRecovery (h : keeps s t) : keeps s t.enterRecovery := by
  unfold State.enterRecovery
  extract_lets s0 s1
  have h0 : keeps s s0 := h.allFs.fill
  clear_value s0
  have h1 : keeps s s1 := h0.same
  exact h1.zonesBlank.recoveryLink
theorem keeps.bootFail (h : keeps s t) {code src off} : keeps s (t.bootFail code src off) := h.enterRecovery.same.bootErr
theorem keeps.loadFields (h : keeps s t) : keeps s (t.loadFields) := h.rsetFld.rsetFld.rput.rput.rsetFld.rsetFld.rsetFld.setReg
theorem keeps.endP1 (h : keeps s t) : keeps s (t.endP1) :=
  (keeps.ite ((h.foldl fun h1 _ => (keeps.ite h1.zoneSet h1)).foldl fun h _ => h.p1Resp).raise ((h.foldl fun h1 _ => (keeps.ite h1.zoneSet
    h1)).foldl fun h _ => h.p1Resp)).each fun h _ => h.raise
theorem keeps.coppice (h : keeps s t) : keeps s (t.coppice) := .ite h <| .ite h.setReg.rset h.setReg
theorem keeps.takeKey (h : keeps s t) {ws} : keeps s (t.takeKey ws) := .ite h.same.rclr.endP1.trAsk h
theorem keeps.takeReserve (h : keeps s t) {ws} : keeps s (t.takeReserve ws) := h.same.rset
theorem keeps.alClear (h : keeps s t) {m mask} : keeps s (t.alClear m mask) := .ite h.modReg h
theorem keeps.askZero (h : keeps s t) {src frz} : keeps s (t.askZero src frz) := by
  unfold State.askZero
  dsimp only
  split
  · exact h.same
  · exact h.same
  · exact h.same
theorem keeps.shadowTaken (h : keeps s t) {g i flip} : keeps s (t.shadowTaken g i flip) := by
  unfold State.shadowTaken
  split
  · exact h.modReg
  · exact h.askZero
  · exact h
theorem keeps.alarmStands (h : keeps s t) {src mask} : keeps s (t.alarmStands src mask) := h.each fun h1 _ => h1.askStand
theorem keeps.alarmFreeze (h : keeps s t) {src} : keeps s (t.alarmFreeze src) := .ite h.same.freezeTrigger h.freezeTrigger
theorem keeps.zeroKey (h : keeps s t) : keeps s (t.zeroKey) :=
  .ite (keeps.ite h.setAside.same.rclr.recBin.rset h.setAside.same.rclr.recBin) (keeps.ite h.setAside.same.rclr.recBin.rset
    h.setAside.same.rclr.recBin).trAsk
theorem keeps.abandonCipher (h : keeps s t) : keeps s (t.abandonCipher) := h.cpQuit.each fun h1 _ => h1.modLk
theorem keeps.zeroLink (h : keeps s t) {n} : keeps s (t.zeroLink n) := h.cpDrop.lkDown.modLk
theorem keeps.dbgLocked (h : keeps s t) : keeps s (t.dbgLocked) := h.rset.recBin
theorem keeps.unlockFail (h : keeps s t) : keeps s (t.unlockFail) := .ite h.rcount.recBin.same.raise h.rcount.recBin.same
theorem keeps.dropChallenge (h : keeps s t) : keeps s (t.dropChallenge) := h.setReg.setReg
theorem keeps.unlockEnd (h : keeps s t) {stat} : keeps s (t.unlockEnd stat) := by
  unfold State.unlockEnd
  dsimp only
  split
  · exact h
  · exact .ite h.same.same.rsetFld h.same.unlockFail
theorem keeps.dbgCtl (h : keeps s t) {v} : keeps s (t.dbgCtl v) :=
  .ite h (by
  split
  · exact .ite h <| .ite h.dbgLocked h.trAsk
  · exact .ite h.dbgLocked <| .ite h.unlockFail <| .ite h h.dropChallenge.same.cpAsk
  · exact .ite h.same h
  · exact h)
theorem keeps.secWrite (h : keeps s t) {m a v} : keeps s (t.secWrite m a v) :=
  .ite h.alClear <| .ite h <| .ite h.modReg <| .ite h.modReg h
theorem keeps.secDbgWrite (h : keeps s t) {a v} : keeps s (t.secDbgWrite a v) := .ite h.dbgCtl <| .ite h.setReg <| .ite h.modReg h
theorem keeps.loadMem (h : keeps s t) {b} : keeps s (t.loadMem b) := h.foldl fun h1 _ => h1.writeBytes
theorem keeps.setLoad (h : keeps s t) {l} : keeps s (t.setLoad l) := h.same
theorem keeps.setImgState (h : keeps s t) {v} : keeps s (t.setImgState v) := h.rsetFld
theorem keeps.setImgBytes (h : keeps s t) {n} : keeps s (t.setImgBytes n) := h.rsetFld
theorem keeps.recovSay (h : keeps s t) {n dst op tag status ws} : keeps s (t.recovSay n dst op tag status ws) := h.lkEnter
theorem keeps.loadFail (h : keeps s t) {l code off say} : keeps s (t.loadFail l code off say) := by
  unfold State.loadFail
  dsimp only
  split
  · exact .ite (keeps.ite h.rset h).fill.setLoad.setImgState (keeps.ite h.rset h).fill.setLoad
  · exact (keeps.ite (keeps.ite h.rset h).bootFail (by
      split
      · exact .ite (keeps.ite h.rset h).fill.zonesBlank.same.setLoad.bootErr.setImgState.recovSay (keeps.ite h.rset
          h).fill.zonesBlank.same.setLoad.bootErr.setImgState
      · exact (keeps.ite h.rset h).fill.zonesBlank.same.setLoad.bootErr.setImgState))
theorem keeps.loadTake (h : keeps s t) {l b} : keeps s (t.loadTake l b) := by
  unfold State.loadTake
  dsimp only
  split
  · exact h.setLoad.setImgBytes.loadMem
  · exact h.setImgBytes.loadFail
  · exact (keeps.ite h.setLoad.setImgBytes.loadMem.setImgState h.setLoad.setImgBytes.loadMem).cpAsk
theorem keeps.loadNvm (h : keeps s t) {l nv} : keeps s (t.loadNvm l nv) :=
  .ite h.same.rclr.setImgBytes.loadFail (keeps.ite h.same.modReg.setImgBytes.loadFail (by
  split
  · exact h.same.modReg.loadTake
  · exact h.same.modReg.loadTake))
theorem keeps.flRead (h : keeps s t) {addr retries} : keeps s (t.flRead addr retries) := h.same
theorem keeps.flashReadEnd (h : keeps s t) {addr retries data} : keeps s (t.flashReadEnd addr retries data) := by
  unfold State.flashReadEnd
  dsimp only
  split
  · exact h.setFlash.rsetFld
  · split
    · exact h.setFlash.rsetFld.rset.loadFail
    · exact .ite h.setFlash.rsetFld.loadTake.flRead h.setFlash.rsetFld.loadTake
theorem keeps.imageEnd (h : keeps s t) {stat} : keeps s (t.imageEnd stat) := by
  unfold State.imageEnd
  split
  · split
    · exact .ite h.setLoad h.loadFail
    · exact h
  · exact h
theorem keeps.imageAgain (h : keeps s t) : keeps s (t.imageAgain) := by
  unfold State.imageAgain
  dsimp only
  split
  · exact .ite h.setLoad.setImgState h.setLoad
  · exact h
theorem keeps.loadBegin (h : keeps s t) {l st} : keeps s (t.loadBegin l st) := h.fill.setLoad.setImgState.setImgBytes
theorem keeps.srcLoad (h : keeps s t) : keeps s (t.srcLoad) := h.loadBegin
theorem keeps.imgCtl (h : keeps s t) {m v} : keeps s (t.imgCtl m v) :=
  .ite h (keeps.ite h.rset (keeps.ite h.rset.rset (keeps.ite h.rset (by
  split
  · exact .ite h.rset h.same.cpAsk
  · exact .ite h.rset.rset h.srcLoad
  · exact .ite h.rset.rset h.loadBegin
  · split
    · exact .ite h.setFlash.loadFail h
    · exact h))))
theorem keeps.imgIn (h : keeps s t) {v} : keeps s (t.imgIn v) := by
  unfold State.imgIn
  split
  · exact .ite h.loadTake h
  · exact h
theorem keeps.recovLoad (h : keeps s t) {n op tag src data} : keeps s (t.recovLoad n op tag src data) := by
  unfold State.recovLoad
  dsimp only
  split
  · exact (keeps.ite h.rset.rset <| .ite h.rset.rset h.loadBegin).recovSay
  · split
    · exact .ite h.loadTake h
    · exact h
  · exact (keeps.recovSay (by
      split
      · exact .ite h.loadFail h
      · exact h))
theorem keeps.otpEnd (h : keeps s t) {o} : keeps s (t.otpEnd o) := .ite h.same.loadMirror.rset h.same.rset
theorem keeps.otpBurn (h : keeps s t) {o} : keeps s (t.otpBurn o) := .ite h.otpEnd h.same
theorem keeps.otpCtl (h : keeps s t) {m v} : keeps s (t.otpCtl m v) :=
  .ite h (keeps.ite h.rset (keeps.ite h.rset (keeps.ite h.rset (by
  split
  · exact h.rset
  · exact (keeps.ite h.same.cpAsk h.otpBurn)))))
theorem keeps.tokenEnd (h : keeps s t) {rel stat} : keeps s (t.tokenEnd rel stat).1 := by
  unfold State.tokenEnd
  extract_lets s1
  have h1 : keeps s s1 := h.trAsk
  split
  · split
    · exact h1
    · split
      · exact h1.same
      · exact (keeps.same h1).rset
  · split
    · exact h1
    · split
      · exact h1.otpBurn
      · exact (keeps.same h1).rset
theorem keeps.timePass (h : keeps s t) {a} : keeps s (t.timePass a) :=
  .ite h <| .ite h.rsetFld.drew <| .ite (keeps.ite h.rcount.drew h) <| .ite (keeps.ite h.rsetFld.drew h) <|
    .ite (keeps.ite h.same.drew h) <| .ite (keeps.ite h.rcount.drew h) <| .ite h.seqPass <| .ite h.padsMove <| .ite h.padsMove h
theorem keeps.regRead (h : keeps s t) {m a1 a} : keeps s (t.regRead m a1 a).2 := by
  unfold State.regRead
  dsimp only
  split
  · exact h.mailGet
  · exact (keeps.ite h.timePass h.timePass.modReg).capReadAt
theorem keeps.pairRead (h : keeps s t) {m lo hi} : keeps s (t.pairRead m lo hi).2 := h.capReadAt
theorem keeps.rwlReject (h : keeps s t) {m a} : keeps s (t.rwlReject m a) := .ite h.rcount.rset h.rcount.modReg
theorem keeps.rwlCheck (h : keeps s t) {m a1 a v} : keeps s (t.rwlCheck m a1 a v) := .ite h.rwlReject h
theorem keeps.plainWrite (h : keeps s t) {m a1 a v} : keeps s (t.plainWrite m a1 a v) := h.rwlCheck.modReg
theorem keeps.seWrite (h : keeps s t) {m a1 a v} : keeps s (t.seWrite m a1 a v) := .ite h <| .ite h.seSetPc h.plainWrite
theorem keeps.tmWrite (h : keeps s t) {m a1 a v} : keeps s (t.tmWrite m a1 a v) :=
  .ite (keeps.ite h.btWriteOfsLo <| .ite h.btWriteOfsHi <| .ite h.btWriteAdj <| .ite h.btWriteDisc <|
    .ite (keeps.ite h.groupStart h) h.plainWrite) <| .ite h <| .ite h.rwlCheck.tmWriteCtl <| .ite h.tmWriteCmp h.plainWrite
theorem keeps.mailWrite (h : keeps s t) {m a v} : keeps s (t.mailWrite m a v) :=
  .ite h.mailAccess <| .ite h.mailAccess <| .ite h.mailStatWrite h
theorem keeps.regWrite (h : keeps s t) {m a1 a v} : keeps s (t.regWrite m a1 a v) :=
  .ite (keeps.ite h.imgCtl <| .ite h.imgIn <| .ite h.setReg <| .ite h.stcCtl <| .ite h.wdKick h.plainWrite) <|
    .ite (keeps.ite h.mailWrite h.plainWrite) <| .ite h.seWrite <| .ite h.tmWrite <| .ite (keeps.ite h.evStatWrite <| .ite h.evStatWrite <|
    .ite h.evFire h.plainWrite) <| .ite (keeps.ite h.spWrite h.plainWrite) <| .ite (keeps.ite h.pgOutWrite h.plainWrite) <|
    .ite (keeps.ite h.lkWrite h.plainWrite) <| .ite h.erWrite <| .ite (keeps.ite h.secWrite h.secDbgWrite) <| .ite h.otpCtl h.plainWrite
theorem keeps.regAccess (h : keeps s t) {m we a v} : keeps s (t.regAccess m we a v).2.2 := by
  unfold State.regAccess
  split
  · exact h
  · extract_lets refused r
    clear_value refused
    split
    · exact h
    · split
      · exact h.regWrite
      · exact h.regRead
theorem keeps.spAccess (h : keeps s t) {we a n v err} : keeps s (t.spAccess we a n v err).2.2 := by
  unfold State.spAccess
  dsimp only
  split
  · exact h.spRead
  · split
    · exact h.spRead.spWriteLE
    · exact h.spRead
theorem keeps.pmWrite (h : keeps s t) {m a n v} : keeps s (t.pmWrite m a n v) := .ite h.writeLE <| .ite h h.rwlReject
theorem keeps.busAccess (h : keeps s t) {m we a n v err} : keeps s (t.busAccess m we a n v err).2.2 := by
  unfold State.busAccess
  dsimp only
  split
  · exact h
  · split
    · split
      · exact h.spAccess
      · exact h.spAccess
    · split
      · split
        · exact h
        · split
          · exact h.pmWrite
          · exact h
      · split
        · exact h
        · exact h.regAccess
theorem keeps.dbgRefuse (h : keeps s t) {reason} : keeps s (t.dbgRefuse reason) := h.rset.rsetFld
theorem keeps.dbgDone (h : keeps s t) : keeps s (t.dbgDone) := h.rset
theorem keeps.dbgThread {n ok} {act : State → State} (h : keeps s t) (hact : ∀ {u}, keeps s u → keeps s (act u)) :
    keeps s (t.dbgThread n ok act) := .ite h (.ite h.dbgRefuse (.ite h.dbgRefuse (.ite h.dbgRefuse (hact h).dbgDone)))
theorem keeps.dbgStand {n ok} {act : State → State} (h : keeps s t) (hact : ∀ {u}, keeps s u → keeps s (act u)) :
    keeps s (t.dbgStand n ok act) := .ite h (.ite h.dbgRefuse (.ite h.dbgRefuse (.ite h.dbgRefuse (hact h).dbgDone)))
theorem keeps.resumeOne (h : keeps s t) {a0 step} : keeps s (t.resumeOne a0 step) := h.modThr
theorem keeps.resumeThread (h : keeps s t) {a0 step} : keeps s (t.resumeThread a0 step) := h.each fun h1 _ => h1.resumeOne
theorem keeps.dbgHaltT (h : keeps s t) {a0} : keeps s (t.dbgHaltT a0) := h.dbgThread (fun h1 => h1.haltThread)
theorem keeps.dbgResumeT (h : keeps s t) {a0} : keeps s (t.dbgResumeT a0) := h.dbgThread (fun h1 => h1.resumeThread)
theorem keeps.dbgStepT (h : keeps s t) {a0} : keeps s (t.dbgStepT a0) := h.dbgThread (fun h1 => h1.resumeThread)
theorem keeps.dbgReset (h : keeps s t) {a0} : keeps s (t.dbgReset a0) := h.dbgThread (fun h1 => h1.askRestart)
theorem keeps.dbgHaltS (h : keeps s t) {n} : keeps s (t.dbgHaltS n) := h.dbgStand (fun h1 => h1.haltStand)
theorem keeps.dbgResumeS (h : keeps s t) {n} : keeps s (t.dbgResumeS n) :=
  h.dbgStand (fun h1 => ((h1.rclr.each fun h2 _ => h2.resumeOne).each fun h _ => h.tmWake))
theorem keeps.dbgAbortT (h : keeps s t) {a0 p} : keeps s (t.dbgAbortT a0 p) :=
  h.dbgThread (fun h1 => (keeps.ite h1 <| .ite (h1.unstage.each fun h2 _ => h2.modThr) h1.unstage.modThr))
theorem keeps.dbgFreezeCmd (h : keeps s t) : keeps s (t.dbgFreezeCmd) := .ite h.freezeTrigger.dbgDone h
theorem keeps.letGo (h : keeps s t) : keeps s (t.letGo) := h.each fun h1 _ => h1.standReleaseNow
theorem keeps.seClockOn (h : keeps s t) {n} : keeps s (t.seClockOn n) := .ite h <| .ite h.modSe h
theorem keeps.otpResume (h : keeps s t) : keeps s (t.otpResume) := by
  unfold State.otpResume
  split
  · exact .ite h.otpEnd h
  · exact h
theorem keeps.unfreeze (h : keeps s t) : keeps s (t.unfreeze) :=
  ((keeps.ite h.same.rsetFld.setReg.setReg.rset h.same.rsetFld.setReg.setReg).chargeOwed.foldl fun h1 _ =>
    h1.alarmStands).otpResume.duePolicies.letGo.sampleHeldClamps.each fun h _ => h.seClockOn
theorem keeps.dbgResume (h : keeps s t) {high} : keeps s (t.dbgResume high) :=
  .ite h <| .ite h.dbgRefuse <| .ite h.dbgRefuse.rset h.unfreeze.dbgDone
theorem keeps.dbgCmd (h : keeps s t) {v} : keeps s (t.dbgCmd v) := by
  unfold State.dbgCmd
  dsimp only
  split
  · exact h.dbgHaltT
  · exact h.dbgResumeT
  · exact h.dbgStepT
  · exact h.dbgReset
  · exact h.dbgHaltS
  · exact h.dbgResumeS
  · exact h.dbgAbortT
  · exact h.dbgFreezeCmd
  · exact h.dbgResume
  · exact .ite h.drew.dbgRefuse h
theorem keeps.dbgTreg (h : keeps s t) {we r v} : keeps s (t.dbgTreg we r v).2 := by
  unfold State.dbgTreg
  dsimp only
  split
  · exact h.dbgRefuse
  · split
    · exact (h.each fun h1 _ => h1.modThr)
    · exact h
theorem keeps.dbgShold (h : keeps s t) {v} : keeps s (t.dbgShold v) := .ite h.setReg.letGo h.setReg
theorem keeps.recordWord (h : keeps s t) {sid inst a2} : keeps s (t.recordWord sid inst a2).2 := by
  unfold State.recordWord
  dsimp only
  split
  · exact h
  · split
    · exact h
    · split
      · exact h
      · split
        · exact .ite h.drew h
        · exact h.drew
theorem keeps.frRead (h : keeps s t) : keeps s (t.frRead).2.2 := by
  unfold State.frRead
  dsimp only
  split
  · exact h
  · split
    · exact h.same.rset
    · exact h.recordWord.rsetFld
theorem keeps.dbgRead (h : keeps s t) {a0 a} : keeps s (t.dbgRead a0 a).2 := by
  unfold State.dbgRead
  split
  · exact h.frRead
  · split
    · exact h.dbgTreg
    · split
      · exact h
      · split
        · exact h
        · exact h
theorem keeps.dbgWrite (h : keeps s t) {a0 a v} : keeps s (t.dbgWrite a0 a v) :=
  .ite h.dbgCmd <| .ite h.dbgShold <| .ite h.setReg.setReg <| .ite h.dbgTreg h.modReg
theorem keeps.dbgAccess (h : keeps s t) {we a v} : keeps s (t.dbgAccess we a v).2.2 := by
  unfold State.dbgAccess
  dsimp only
  split
  · exact h
  split
  · split
    · exact h.dbgWrite
    · exact h.dbgRead
  · split
    · exact h
    · exact h.busAccess
theorem keeps.tapLoad (h : keeps s t) {ir dr} : keeps s (t.tapLoad ir dr) := h.same
theorem keeps.dbgPort (h : keeps s t) {we a v} : keeps s (t.dbgPort we a v) := h.dbgAccess.same.tapLoad
theorem keeps.freezeDone (h : keeps s t) {cycles notack} : keeps s (t.freezeDone cycles notack) := by
  unfold State.freezeDone
  extract_lets ack s0 s1 s2 s3 s4
  have h0 : keeps s s0 := (keeps.same h).each fun k _ => k.timePass
  clear_value s0
  have h1 : keeps s s1 := h0.same
  have h2 : keeps s s2 := h1.rsetFld.setReg.setReg
  have h3 : keeps s s3 := h2.rcount.rsetFld
  clear_value s3
  exact (keeps.same h3).each fun k _ => k.modSe
theorem keeps.loadNow (h : keeps s t) {n a sz} : keeps s (t.loadNow n a sz).2 := by
  unfold State.loadNow
  split
  · exact h
  · split
    · exact h.regAccess
    · split
      next hi _ => exact h.pairRead (hi := hi)
      next => exact h
    · exact h
theorem keeps.storeNow (h : keeps s t) {a0 e} : keeps s (t.storeNow a0 e).2 := by
  unfold State.storeNow
  dsimp only
  split
  · exact h.regAccess
  · exact h
theorem keeps.busErr (h : keeps s t) {a0 a} : keeps s (t.busErr a0 a) := h.modThr
theorem keeps.loadReturn (h : keeps s t) {a0} : keeps s (t.loadReturn a0) := by
  unfold State.loadReturn
  dsimp only
  split
  · exact h
  · exact (keeps.modThr (by
      split
      · exact h.modThr
      · exact h.modThr.busErr))
theorem keeps.waitedLoads (h : keeps s t) {a0} : keeps s (t.waitedLoads a0) := .ite h (h.foldl fun h1 _ => h1.loadNow.modThr)
theorem keeps.sendLoad (h : keeps s t) {a0 d} : keeps s (t.sendLoad a0 d) :=
  .ite (keeps.ite h.modThr h).modThr <| .ite (keeps.ite h.modThr h).pushLane <|
    .ite (keeps.ite h.modThr h) (keeps.ite h.modThr h).loadNow.modThr
theorem keeps.enterStore (h : keeps s t) {a0 e} : keeps s (t.enterStore a0 e) :=
  .ite h.modThr.modThr <| .ite h.modThr.pushLane h.modThr
theorem keeps.sendNt (h : keeps s t) {a0 e} : keeps s (t.sendNt a0 e) :=
  .ite h.modThr <| .ite h.pushLane <| .ite h.storeNow h.storeNow.busErr
theorem keeps.sendAtom (h : keeps s t) {a0 d} : keeps s (t.sendAtom a0 d) := by
  unfold State.sendAtom
  split
  · exact h
  · exact .ite h.modThr <| .ite h.pushLane h.modThr
theorem keeps.sendHeldChan (h : keeps s t) {a0 op} : keeps s (t.sendHeldChan a0 op) := .ite h.modThr h.sendChan
theorem keeps.memLoad (h : keeps s t) {n d} (e : t.memLoad n d = some u) : keeps s u := by
  unfold State.memLoad at e
  dsimp only at e
  split at e
  · cases e; exact h.sendLoad
  · split at e <;> cases e
    exact h.modThr
theorem keeps.unholdOne (h : keeps s t) {n} (e : t.unholdOne n = some u) : keeps s u := by
  unfold State.unholdOne at e
  dsimp only at e
  split at e
  · cases e
  split at e
  · obtain ⟨v, hv, rfl⟩ := Option.map_eq_some_iff.1 e
    exact (h.modThr.modThr.memLoad hv).modThr
  all_goals split at e <;> cases e
  · exact h.modThr.enterStore
  · exact h.modThr.sendNt
  · exact h.modThr
  · exact h.modThr.modThr.sendAtom.modThr
  · exact h.modThr.sendHeldChan
theorem keeps.unholdN {n : Tid} : ∀ {k : Nat} {t : State}, keeps s t → keeps s (t.unholdN n k)
  | 0, _, h => h
  | k + 1, _, h => by
    unfold State.unholdN
    split
    · exact (h.unholdOne ‹_›).unholdN
    · exact h
theorem keeps.unhold (h : keeps s t) {a0} : keeps s (t.unhold a0) := h.unholdN
theorem keeps.storeAnswer (h : keeps s t) {a0 e ok} : keeps s (t.storeAnswer a0 e ok) :=
  h.each fun h1 _ => (keeps.ite h1.modThr <| .ite h1 h1.busErr)
theorem keeps.storeGrant (h : keeps s t) {a0} : keeps s (t.storeGrant a0) := by
  unfold State.storeGrant
  dsimp only
  split
  · exact h
  · exact (keeps.unhold (by
      split
      · exact h.modThr
      · exact h.modThr.busErr
      · exact (keeps.ite h.modThr.storeNow h.modThr.storeNow.busErr)))
theorem keeps.issueLoad (h : keeps s t) {i sz sx rd addr at_ post} : keeps s (t.issueLoad i sz sx rd addr at_ post) :=
  h.issueLater fun h0 _ => by
    dsimp only
    split
    · exact h0.modThr.wpStop.modThr
    · split
      · exact h0.modThr.wpStop.modThr.sendLoad
      · split
        · exact h0.modThr.wpStop.modThr
        · exact h0.modThr.wpStop.modThr
theorem keeps.issueAtom (h : keeps s t) {i op rs rd f} : keeps s (t.issueAtom i op rs rd f) :=
  h.issueLater (fun h1 _ => (keeps.ite h1.modThr.wpStop.modThr.sendAtom h1.modThr.wpStop.modThr))
theorem keeps.readCopy (h : keeps s t) : keeps s (t.readCopy).2 := h.drew.same
theorem keeps.waitRelease (h : keeps s t) {a0} : keeps s (t.waitRelease a0) := by
  unfold State.waitRelease
  dsimp only
  split
  · exact .ite h.modThr h
  · exact .ite h.modThr h
  · exact h.modThr
  · exact h.modThr
  · exact .ite h.modThr h
  · exact h
theorem keeps.hostGrant (h : keeps s t) {err} : keeps s (t.hostGrant err) := by
  unfold State.hostGrant
  split
  · exact h
  · extract_lets n a q ans s1
    have h1 : keeps s s1 := by
      unfold s1 q
      split
      · exact h
      · exact h.spAccess
    clear_value s1
    exact h1.same
theorem keeps.carryOut (h : keeps s t) {r err} : keeps s (t.carryOut r err) := by
  unfold State.carryOut
  dsimp only
  split
  · exact h.hostGrant
  · exact .ite h.modThr h.spRead.modThr
  · exact (keeps.ite h.spRead.spWriteLE h.spRead).storeAnswer
  · exact ((keeps.ite h.spRead.spWriteLE h.spRead).each fun h1 _ => h1.modThr)
theorem keeps.twinEffect (h : keeps s t) {a r} : keeps s (t.twinEffect a r) := by
  unfold State.twinEffect
  dsimp only
  split
  · exact .ite h.pushLane h.storeNow.storeAnswer
  · exact .ite h.pushLane (h.each fun h1 _ => h1.modThr)
  · exact (h.loadNow.each fun h1 _ => h1.modThr)
  · exact (h.readCopy.each fun h1 _ => h1.modThr)
  · exact h.sendChan
  · exact h
  · exact h
theorem keeps.unstagePorts (h : keeps s t) {a0} : keeps s (t.unstagePorts a0) := h.each fun h1 _ => (keeps.ite h1.unstage h1)
theorem keeps.twinUnstage (h : keeps s t) {a} : keeps s (t.twinUnstage a) := h.each fun h1 _ => (keeps.ite h1.unstage.modThr h1)
theorem keeps.twinFault (h : keeps s t) {a tmo} : keeps s (t.twinFault a tmo) :=
  (h.each fun h1 _ => h1.modThr).twinUnstage.rset.recBin.raise
theorem keeps.drainLanes (h : keeps s t) {a0} : keeps s (t.drainLanes a0) := h.same.setXq.fillLanes.foldl fun h1 _ => h1.carryOut
theorem keeps.drainStores (h : keeps s t) {a0} : keeps s (t.drainStores a0) := h.drainLanes.modThr.foldl fun h1 _ => h1.storeNow
theorem keeps.drainHeld (h : keeps s t) {a0} : keeps s (t.drainHeld a0) := h.modThr.foldl fun h1 _ => h1.unhold.drainStores
theorem keeps.restartCopy (h : keeps s t) {a0} : keeps s (t.restartCopy a0) := h.drainStores.unstagePorts.threadRestore.modThr.rcount
theorem keeps.standAccept (h : keeps s t) {n} : keeps s (t.standAccept n) := (h.each fun h1 _ => h1.latchCause).rsetFld.rclr.modStand
theorem keeps.drainThread (h : keeps s t) {a0} : keeps s (t.drainThread a0) := h.drainStores.drainHeld.modThr
theorem keeps.standFence (h : keeps s t) {n} : keeps s (t.standFence n) := (h.standFs.foldl fun h _ => h.drainThread).drainChans.modStand
theorem keeps.zeroStand (h : keeps s t) {n} : keeps s (t.zeroStand n) := h.modStand.standAccept.standFence.modStand
theorem keeps.dropUnits (h : keeps s t) : keeps s t.dropUnits := by
  unfold State.dropUnits
  extract_lets s1
  have h1 : keeps s s1 := h.cpQuit
  clear_value s1
  exact h1.same
theorem keeps.reloadNow (h : keeps s t) {v} : keeps s (t.reloadNow v) := by
  unfold State.reloadNow
  refine .ite h ?_
  extract_lets s1 s2 s3
  have h1 : keeps s s1 := h.each fun k _ => k.standAccept.standFence
  have h2 : keeps s s2 := h1.unitsOff.dropUnits.allFs
  clear_value s2
  have h3 : keeps s s3 := (keeps.same h2).recoveryLink
  exact .ite h3.srcLoad h3
theorem keeps.commandEnd (h : keeps s t) {rel stat} : keeps s (t.commandEnd rel stat) := by
  unfold State.commandEnd
  dsimp only
  split
  · exact h.tokenEnd.reloadNow
  · exact h.tokenEnd
theorem keeps.denied (h : keeps s t) {code bin} : keeps s (t.denied code bin) := .ite h.recBin h
theorem keeps.hostDo (h : keeps s t) {r} : keeps s (t.hostDo r).2 := by
  unfold State.hostDo
  dsimp only
  split
  · exact h.hostPairLow
  · split
    · exact h.hostPairHigh
    · exact h.busAccess
theorem keeps.hostAnswer (h : keeps s t) {a} : keeps s (t.hostAnswer a) := h.same
theorem keeps.hostSend (h : keeps s t) {a} : keeps s (t.hostSend a) := h.same.setLane
theorem keeps.hostPump : ∀ {n : Nat} {t : State}, keeps s t → keeps s (t.hostPump n)
  | 0, _, h => h
  | n + 1, _, h => by
    unfold State.hostPump
    refine .ite h ?_
    split
    · exact h
    · exact .ite h (.ite h.hostAnswer.denied.hostPump (.ite h (.ite h.hostSend h.hostDo.hostAnswer.denied.hostPump)))
theorem keeps.hostErr (h : keeps s t) {r code} : keeps s (t.hostErr r code) := .ite h <| .ite h.rset h.modReg
theorem keeps.recovOne (h : keeps s t) {n f} : keeps s (t.recovOne n f) :=
  .ite (keeps.ite h.lkResponse h) (keeps.ite h.recovSay (by
  split
  · exact h.busAccess.denied.recovSay
  · exact h.busAccess.denied.recovSay
  · exact h.recovLoad
  · exact h.recovLoad
  · exact h.recovLoad
  · exact h))
theorem keeps.recovServe (h : keeps s t) : keeps s (t.recovServe) := h.same.foldl fun h1 _ => h1.recovOne
theorem keeps.frameIn (h : keeps s t) {n ty f} : keeps s (t.frameIn n ty f) := h.gated h.lkFrame.recovServe
theorem keeps.recovIn (h : keeps s t) {n f p} : keeps s (t.recovIn n f p) := .ite h.frameIn h
theorem keeps.cpEnd (h : keeps s t) {r stat rdata} : keeps s (t.cpEnd r stat rdata) := by
  unfold State.cpEnd
  split
  · exact h.imageEnd
  · exact h.commandEnd
  · exact h.clrChecked
  · exact h.unlockEnd
  · exact h.lkCipherEnd.recovServe
  · exact h.svCipherEnd
  · exact h
theorem keeps.cpFree (h : keeps s t) : keeps s (t.cpFree) := h.same
theorem keeps.cpFault1 (h : keeps s t) : keeps s (t.cpFault1) := h.rset.pulse
theorem keeps.cpFault (h : keeps s t) {r tmo} : keeps s (t.cpFault r tmo) :=
  .ite (keeps.ite h.rcount.rset h.rcount).cpFault1.cpFree.cpEnd <|
    .ite (keeps.ite (keeps.ite h.rcount.rset h.rcount).cpFault1.cpFree.imageAgain (keeps.ite h.rcount.rset h.rcount).cpFault1.same)
    (keeps.ite h.rcount.rset h.rcount).rset.raise.cpFree.cpEnd
theorem keeps.trGive (h : keeps s t) {a0 ws} : keeps s (t.trGive a0 ws) := by
  unfold State.trGive
  dsimp only
  split
  · exact h.takeKey
  · exact h.takeReserve
  · exact h.setReg.setReg
  · exact h.setReg.setReg
  · exact h.same.setReg.setReg
  · exact h.lkSession
  · exact h.svRandom
theorem keeps.bridgeWords {sec : Bool} : ∀ {n : Nat} {t : State} {a : Nat}, keeps s t → keeps s (t.bridgeWords sec n a).2.2
  | 0, _, _, h => h
  | n + 1, _, _, h => by
    unfold State.bridgeWords
    dsimp only
    split
    · exact h.busAccess.denied
    · exact h.busAccess.bridgeWords
theorem keeps.bridgePut {sec : Bool} : ∀ {l : List Word} {t : State} {a : Nat}, keeps s t → keeps s (t.bridgePut sec l a).2.2
  | [], _, _, h => h
  | _ :: _, _, _, h => by
    unfold State.bridgePut
    dsimp only
    split
    · exact h.busAccess.denied
    · exact h.busAccess.bridgePut
theorem keeps.bridgeCount (h : keeps s t) {i code} : keeps s (t.bridgeCount i code) := .ite h h.svCount
theorem keeps.bridgeDo (h : keeps s t) {i r m sec} : keeps s (t.bridgeDo i r m sec) := by
  unfold State.bridgeDo
  dsimp only
  split
  · exact .ite h.svCount.svAnswer h.bridgeWords.bridgeCount.svAnswer
  · exact .ite h.svCount.svAnswer h.bridgePut.bridgeCount.svAnswer
  · exact .ite h.svCount.svAnswer h.svAnswer
  · exact h.svCount.svAnswer
theorem keeps.bridgeServe (h : keeps s t) {i opc} : keeps s (t.bridgeServe i opc) := by
  unfold State.bridgeServe
  dsimp only
  split
  · exact h
  · split
    · exact h
    · split
      · exact h
      · exact (keeps.ite h (by
          split
          · have h1 := keeps.snd (keeps.svTake h) ‹_›
            exact h1
          · have h1 := keeps.snd (keeps.svTake h) ‹_›
            exact h1.svCount.bridgeDo))
theorem keeps.shiftK (h : keeps s t) {i rd ra a3 f} : keeps s (shiftK i rd ra a3 f t) := h.issueVal
theorem keeps.cmpWide (h : keeps s t) {i wide rd ra rb f g} : keeps s (cmpWide i wide rd ra rb f g t) := .ite h.issueVal h.issueVal
theorem keeps.cmpRR (h : keeps s t) {i rd ra rb f} : keeps s (cmpRR i rd ra rb f t) := h.aluRR
theorem keeps.cmpRI (h : keeps s t) {i rd ra imm f} : keeps s (cmpRI i rd ra imm f t) := h.aluR
theorem keeps.descForm (h : keeps s t) {i rd ra d f} : keeps s (descForm i rd ra d f t) := h.issueVal
theorem keeps.bitForm (h : keeps s t) {i rd ra a3 f} : keeps s (bitForm i rd ra a3 f t) := h.issueVal
theorem exec_addi_keeps (s : State) {iss m rd ra imm} : answers (.addi iss m rd ra imm) s (keeps s) := by
  have h := keeps.refl s
  refine ⟨_, rfl, ?_⟩
  split
  · exact h.issuePair
  · exact h.issueVal
  · exact h.issueVal
theorem exec_st_keeps (s : State) {iss sz nt rs form} : answers (.st iss sz nt rs form) s (keeps s) := by
  have h := keeps.refl s
  refine ⟨_, rfl, ?_⟩
  exact h.issue (fun h1 _ => (keeps.ite (keeps.ite h1.modThr.wpStop.sendNt h1.modThr.wpStop.modThr) <|
    .ite h1.modThr.wpStop.enterStore h1.modThr.wpStop.modThr))
theorem exec_impreciseTrap_keeps (s : State) {t} : answers (.impreciseTrap t) s (keeps s) := by
  have h := keeps.refl s
  refine ⟨_, rfl, ?_⟩
  exact .ite (keeps.trapTo (by
    split
    · exact h.modThr.setTfa
    · exact h.modThr)) h
theorem exec_twinRecordMatch_keeps (s : State) {pair} : answers (.twinRecordMatch pair) s (keeps s) := by
  have h := keeps.refl s
  refine ⟨_, rfl, ?_⟩
  exact h.gated (by
    split
    · exact .ite h <| .ite (h.each fun h1 _ => h1.modThr).twinEffect h.twinFault
    · exact h)
theorem exec_channelResponse_keeps (s : State) {t} : answers (.channelResponse t) s (keeps s) := by
  have h := keeps.refl s
  refine ⟨_, rfl, ?_⟩
  exact h.gated (by
    split
    · exact h
    · split
      · exact h.modThr.uncount.preciseTrap
      · exact h.modThr.writeAns)
theorem exec_parkedOpRedecide_keeps (s : State) {t} : answers (.parkedOpRedecide t) s (keeps s) := by
  have h := keeps.refl s
  refine ⟨_, rfl, ?_⟩
  exact h.gated (by
    split
    · exact h
    · split
      · exact .ite (keeps.ite h h.svFlush).modThr.svFlag.askRestart <| .ite h h.svFlush
      · exact (keeps.ite h.answer (by
          split
          · have h1 := keeps.poolDecide h ‹_›
            exact h1.answer
          · exact (keeps.ite h.answer h))))
theorem exec_channelTimeout_keeps (s : State) {t} : answers (.channelTimeout t) s (keeps s) := by
  have h := keeps.refl s
  refine ⟨_, rfl, ?_⟩
  exact h.gated (by
    split
    · exact h
    · exact (keeps.ite h (by
        split
        · have h1 := keeps.poolDecide h ‹_›
          exact h1.answer
        · exact h.answer)))
theorem exec_btrd_keeps (s : State) {iss rd} : answers (.btrd iss rd) s (keeps s) := by
  have h := keeps.refl s
  refine ⟨_, rfl, ?_⟩
  exact h.issueLater (fun h1 _ => (by
    split
    · exact h1.modThr
    · exact h1.readCopy.modThr))
theorem exec_seStallComplete_keeps (s : State) (n : Fin 32) (cycles : Nat) (pins : Word) :
    answers (.seStallComplete n cycles pins) s (keeps s) := by
  have h := keeps.refl s
  refine ⟨_, rfl, h.gated ?_⟩
  dsimp only
  split
  · exact h.seePads
  · next l _ =>
    have h1 : keeps s (if l.stall = 5 then (s.seePads n pins).rcount (rSeOstall n) 0 32 cycles else s.seePads n pins) :=
      .ite h.seePads.rcount h.seePads
    refine .ite h.seePads <| .ite h1.seFirst ?_
    split
    · exact h1.seStallWith
    · exact .ite h1.seStallWith (h1.seTry_done ‹_›).seFinish
theorem exec_tapMoveApply_keeps (s : State) {n iss} : answers (.tapMoveApply n iss) s (keeps s) := by
  have h := keeps.refl s
  refine ⟨_, rfl, ?_⟩
  exact h.gated (by
    split
    · exact h
    · exact (keeps.ite h h.setCal.tapMoved.rcount))
theorem exec_ppsEdge_keeps (s : State) (cycles : Nat) : answers (.ppsEdge cycles) s (keeps s) := by
  have h := keeps.refl s
  refine ⟨_, rfl, h.gated ?_⟩
  extract_lets s0 cap s1 nom bt1 s2 bt2 p
  have h1 : keeps s s1 := h.same.setReg.setReg.pulse
  clear_value s1
  have h2 : keeps s s2 := h1.same
  refine .ite h1 <| .ite (keeps.same h2).rset ?_
  clear_value s2
  split
  · exact h2.btSample
  · exact .ite h2.btSample <| .ite h2.btSample h2.rset
theorem exec_tmnCapRead_keeps (s : State) {n m wide} : answers (.tmnCapRead n m wide) s (keeps s) := by
  have h := keeps.refl s
  refine ⟨_, rfl, ?_⟩
  exact h.gated (by
    split
    · exact .ite h.hostPairLow h.hostPairHigh
    · exact h.tmReadCap.same)
theorem exec_poolScrub_keeps (s : State) {row r} : answers (.poolScrub row r) s (keeps s) := by
  have h := keeps.refl s
  refine ⟨_, rfl, ?_⟩
  exact h.gated (by
    split
    · exact h.readRow
    · exact h.readRow.rcount
    · exact .ite h.readRow.setPool.modChan h.readRow
    · exact (keeps.ite h.readRow.setPool h.readRow))
theorem exec_spAccessGrant_keeps (s : State) {bank err wait} : answers (.spAccessGrant bank err wait) s (keeps s) := by
  have h := keeps.refl s
  refine ⟨_, rfl, ?_⟩
  exact .ite h (by
    split
    · exact h
    · have h1 := keeps.arbitrate h ‹_›
      exact (keeps.ite h1.p3Late h1).carryOut)
theorem exec_wordClearDone_keeps (s : State) : answers .wordClearDone s (keeps s) := by
  have h := keeps.refl s
  refine ⟨_, rfl, ?_⟩
  dsimp only
  split
  · exact h
  · exact .ite h.same.wordZero.rset h
theorem exec_retireCopyDone_keeps (s : State) {errs} : answers (.retireCopyDone errs) s (keeps s) := by
  have h := keeps.refl s
  refine ⟨_, rfl, ?_⟩
  dsimp only
  split
  · exact h
  · exact .ite h.copyRest.rset.recBin.same h
theorem exec_governorWindowStart_keeps (s : State) : answers .governorWindowStart s (keeps s) := by
  have h := keeps.refl s
  refine ⟨_, rfl, ?_⟩
  exact .ite ((h.each fun h1 _ => (keeps.ite h1.setReg.setReg h1.setReg).modZone).each fun h1 _ => (by
    split
    · exact h1.govWrite
    · exact h1)) h
theorem exec_laneRecordApply_keeps (s : State) (n : Fin 32) : answers (.laneRecordApply n) s (keeps s) := by
  have h := keeps.refl s
  refine ⟨_, rfl, ?_⟩
  split
  · exact h
  · refine .ite h ?_
    dsimp only
    split
    · exact ((h.judge ‹_›).modSe.recOut.keepOut h).recPulses.flagAll
    · exact h.modSe.recPulses.flagAll
    · exact (h.foldl fun h1 _ => h1.rset).rset.pulse
theorem exec_serviceInit_keeps (s : State) {iss} : answers (.serviceInit iss) s (keeps s) := by
  have h := keeps.refl s
  refine ⟨_, rfl, ?_⟩
  dsimp only
  split
  · exact h
  · exact .ite h <| .ite (keeps.ite (h.foldl fun h1 _ => h1.wordZero).svReads (h.foldl fun h1 _ =>
      h1.wordZero).svReads.svFlag).rsetFld.modDnp.unsol (keeps.ite (h.foldl fun h1 _ => h1.wordZero).svReads (h.foldl fun h1 _ =>
      h1.wordZero).svReads.svFlag).rsetFld.modDnp
theorem exec_uartSend_keeps (s : State) {iss} : answers (.uartSend iss) s (keeps s) := by
  have h := keeps.refl s
  refine ⟨_, rfl, ?_⟩
  dsimp only
  split
  · exact h
  · split
    · have h1 := keeps.snd (keeps.svTake h) ‹_›
      exact h1
    · have h1 := keeps.snd (keeps.svTake h) ‹_›
      exact .ite h1.svCount.modSvc.svAnswer h1.svAnswer
theorem exec_uartData_keeps (s : State) {iss chars parity framing brk overrun} : answers
  (.uartData iss chars parity framing brk overrun) s (keeps s) := by
  have h := keeps.refl s
  refine ⟨_, rfl, ?_⟩
  dsimp only
  split
  · exact h
  · exact .ite (keeps.ite (keeps.ite h.svFlush.svCount.modSvc h.svFlush).uartChars.svCount.svFlag (keeps.ite h.svFlush.svCount.modSvc
      h.svFlush).uartChars).uartFlush <|
      .ite (keeps.ite h.svFlush.svCount.modSvc h.svFlush).uartChars.svCount.svFlag (keeps.ite h.svFlush.svCount.modSvc h.svFlush).uartChars
theorem exec_uartIdleFlush_keeps (s : State) {iss} : answers (.uartIdleFlush iss) s (keeps s) := by
  have h := keeps.refl s
  refine ⟨_, rfl, ?_⟩
  split
  · exact h
  · exact .ite h h.uartFlush
theorem exec_modbusFrame_keeps (s : State) {iss frame bad} : answers (.modbusFrame iss frame bad) s (keeps s) := by
  have h := keeps.refl s
  refine ⟨_, rfl, ?_⟩
  dsimp only
  split
  · exact h
  · exact (keeps.ite (keeps.ite h.svCount.svFlag.svCount h.svCount.svFlag) (keeps.ite h.svCount (keeps.ite h (by
      split
      · exact (keeps.ite (by
          split
          · exact h.mbPerform.svTry
          · exact h.mbPerform) (keeps.ite (by
          split
          · exact h.mbPerform.svTry
          · exact h.mbPerform) (keeps.modSvc (by
          split
          · exact h.mbPerform.svTry
          · exact h.mbPerform)).svCount).svCount)
      · exact (keeps.ite (by
          split
          · exact h.mbPerform.svTry
          · exact h.mbPerform) (keeps.modSvc (by
          split
          · exact h.mbPerform.svTry
          · exact h.mbPerform)).svCount)))))
theorem exec_dnp3LinkFrame_keeps (s : State) {iss frame late} : answers (.dnp3LinkFrame iss frame late) s (keeps s) := by
  have h := keeps.refl s
  refine ⟨_, rfl, ?_⟩
  dsimp only
  split
  · exact h
  · split
    · exact h.svCount.svFlag
    · exact .ite h.svCount.dnpFrame h.svCount
theorem exec_dnp3Control_keeps (s : State) {iss} : answers (.dnp3Control iss) s (keeps s) := by
  have h := keeps.refl s
  refine ⟨_, rfl, ?_⟩
  split
  · exact h
  · split
    · split
      · exact h
      · have h1 := keeps.putMsg h ‹_›
        exact h1.modDnp
    · exact h
theorem exec_dnp3ControlReply_keeps (s : State) {iss} : answers (.dnp3ControlReply iss) s (keeps s) := by
  have h := keeps.refl s
  refine ⟨_, rfl, ?_⟩
  dsimp only
  split
  · exact h
  · split
    · have h1 := keeps.snd (keeps.svTake h) ‹_›
      exact h1
    · have h1 := keeps.snd (keeps.svTake h) ‹_›
      exact .ite h1.svFlag <| .ite h1.ctlDone h1
theorem exec_dnp3ApprspTimeout_keeps (s : State) {iss} : answers (.dnp3ApprspTimeout iss) s (keeps s) := by
  have h := keeps.refl s
  refine ⟨_, rfl, ?_⟩
  split
  · exact h
  · exact .ite h.ctlDone h
theorem exec_dnp3Event_keeps (s : State) {iss} : answers (.dnp3Event iss) s (keeps s) := by
  have h := keeps.refl s
  refine ⟨_, rfl, ?_⟩
  dsimp only
  split
  · exact h
  · split
    · have h1 := keeps.snd (keeps.svTake h) ‹_›
      exact h1
    · have h1 := keeps.snd (keeps.svTake h) ‹_›
      exact (keeps.ite h1.svFlag (by
        split
        · have h2 := keeps.snd (keeps.svRead h1) ‹_›
          exact h2.svFlag
        · have h2 := keeps.snd (keeps.svRead h1) ‹_›
          exact (keeps.ite h2 h2.dnpStore)))
theorem exec_dnp3UnsolHold_keeps (s : State) {iss} : answers (.dnp3UnsolHold iss) s (keeps s) := by
  have h := keeps.refl s
  refine ⟨_, rfl, ?_⟩
  split
  · exact h
  · exact .ite h.unsol h
theorem exec_dnp3ConfirmTimeout_keeps (s : State) {iss} : answers (.dnp3ConfirmTimeout iss) s (keeps s) := by
  have h := keeps.refl s
  refine ⟨_, rfl, ?_⟩
  split
  · exact h
  · split
    · exact h
    · exact .ite h.unsol h.modDnp
theorem exec_dnp3SessionKeyExpiry_keeps (s : State) {iss} : answers (.dnp3SessionKeyExpiry iss) s (keeps s) := by
  have h := keeps.refl s
  refine ⟨_, rfl, ?_⟩
  split
  · exact h
  · exact h.modDnp
theorem exec_dnp3LinkConfirmTimeout_keeps (s : State) {iss} : answers (.dnp3LinkConfirmTimeout iss) s (keeps s) := by
  have h := keeps.refl s
  refine ⟨_, rfl, ?_⟩
  split
  · exact h
  · split
    · exact h
    · exact .ite h.modDnp.dlPush h.modDnp
theorem exec_sdi12Raw_keeps (s : State) {iss rs} : answers (.sdi12Raw iss rs) s (keeps s) := by
  have h := keeps.refl s
  refine ⟨_, rfl, ?_⟩
  dsimp only
  split
  · exact h
  · split
    · have h1 := keeps.snd (keeps.svTake h) ‹_›
      exact h1
    · have h1 := keeps.snd (keeps.svTake h) ‹_›
      exact (keeps.ite h (keeps.ite h1.svAnswer (by
        split
        · exact h1.sdiCounts.modSvc.svAnswer
        · exact (keeps.ite h.sdiCounts.modSvc h1.sdiCounts.sdiFail))))
theorem exec_sdi12Measure_keeps (s : State) {iss rs} : answers (.sdi12Measure iss rs) s (keeps s) := by
  have h := keeps.refl s
  refine ⟨_, rfl, ?_⟩
  dsimp only
  split
  · exact h
  · split
    · have h1 := keeps.snd (keeps.svTake h) ‹_›
      exact h1
    · have h1 := keeps.snd (keeps.svTake h) ‹_›
      exact (keeps.ite h (keeps.ite h1.svAnswer (by
        split
        · exact h1.sdiCounts.sdiFail
        · split
          · exact h1.sdiCounts.svCount.modSvc.sdiFail
          · exact h1.sdiCounts.svCount.modSvc.svAnswerMore)))
theorem exec_sdi12ResponseTimeout_keeps (s : State) {iss} : answers (.sdi12ResponseTimeout iss) s (keeps s) := by
  have h := keeps.refl s
  refine ⟨_, rfl, ?_⟩
  split
  · exact h
  · split
    · have h1 := keeps.snd (keeps.svTake h) ‹_›
      exact h1
    · have h1 := keeps.snd (keeps.svTake h) ‹_›
      exact .ite h.svFlush.svCount.svCount.modSvc h1.svCount.sdiFail
theorem exec_spiXfer_keeps (s : State) {iss miso} : answers (.spiXfer iss miso) s (keeps s) := by
  have h := keeps.refl s
  refine ⟨_, rfl, ?_⟩
  dsimp only
  split
  · exact h
  · split
    · have h1 := keeps.snd (keeps.svTake h) ‹_›
      exact h1
    · have h1 := keeps.snd (keeps.svTake h) ‹_›
      exact .ite h1.svCount.svCount.modSvc.svAnswer h1.svAnswer
theorem exec_i2cXfer_keeps (s : State) {iss nack busy read} : answers (.i2cXfer iss nack busy read) s (keeps s) := by
  have h := keeps.refl s
  refine ⟨_, rfl, ?_⟩
  dsimp only
  split
  · exact h
  · split
    · have h1 := keeps.snd (keeps.svTake h) ‹_›
      exact h1
    · have h1 := keeps.snd (keeps.svTake h) ‹_›
      exact (keeps.ite (keeps.ite h1.svCount.modSvc.svCount.svFlag.svAnswer (by
        split
        · exact h1.svCount.modSvc.svCount.svAnswer
        · exact h1.svCount.modSvc.svAnswer)) h1.svAnswer)
theorem exec_i2cStretchTimeout_keeps (s : State) {iss} : answers (.i2cStretchTimeout iss) s (keeps s) := by
  have h := keeps.refl s
  refine ⟨_, rfl, ?_⟩
  split
  · exact h
  · split
    · have h1 := keeps.snd (keeps.svTake h) ‹_›
      exact h1
    · have h1 := keeps.snd (keeps.svTake h) ‹_›
      exact .ite h1.svCount.svCount.svAnswer h1.svAnswer
theorem exec_pulseReport_keeps (s : State) {iss samples lost} : answers (.pulseReport iss samples lost) s (keeps s) := by
  have h := keeps.refl s
  refine ⟨_, rfl, ?_⟩
  dsimp only
  split
  · exact h
  · exact (keeps.ite h (by
      split
      · exact (keeps.modSvc (by
          split
          · exact (h.foldl fun h1 _ => h1.freeHead)
          · exact h)).svReads.svTrap
      · exact (keeps.ite (keeps.spWriteLE (by
          split
          · exact (keeps.modSvc (by
              split
              · exact (h.foldl fun h1 _ => h1.freeHead)
              · exact h)).svReads.spWriteLE.spWriteLE.spWriteLE
          · exact (keeps.modSvc (by
              split
              · exact (h.foldl fun h1 _ => h1.freeHead)
              · exact h)).svReads.spWriteLE.spWriteLE)).spWriteLE.spWriteLE.svTry.svCount.svCount.svCount (keeps.spWriteLE (by
          split
          · exact (keeps.modSvc (by
              split
              · exact (h.foldl fun h1 _ => h1.freeHead)
              · exact h)).svReads.spWriteLE.spWriteLE.spWriteLE
          · exact (keeps.modSvc (by
              split
              · exact (h.foldl fun h1 _ => h1.freeHead)
              · exact h)).svReads.spWriteLE.spWriteLE)).spWriteLE.spWriteLE.svTry.svCount.svCount.svCount.svCount)))
theorem exec_retransmitTimeout_keeps (s : State) {n} : answers (.retransmitTimeout n) s (keeps s) := by
  have h := keeps.refl s
  refine ⟨_, rfl, ?_⟩
  exact .ite (by
    split
    · exact h
    · exact (keeps.ite h.lkDown h.lkResend)) h
theorem exec_linkCreditReturn_keeps (s : State) (c : Fin 4096) : answers (.linkCreditReturn c) s (keeps s) := by
  have h := keeps.refl s
  refine ⟨_, rfl, h.gated (.ite ?_ h)⟩
  split
  next n _ =>
    cases e : s.creditOn c n with
    | none => exact h
    | some u => exact h.creditOn e
  next => exact h
theorem exec_creditTimeout_keeps (s : State) (c : Fin 4096) : answers (.creditTimeout c) s (keeps s) := by
  have h := keeps.refl s
  refine ⟨_, rfl, .ite ?_ h⟩
  extract_lets q dst
  have h1 : keeps s q.2 := h.takeCredit
  clear_value q
  split
  · exact h1.lkEnter
  · exact h
theorem exec_staleFrameDrop_keeps (s : State) {n} : answers (.staleFrameDrop n) s (keeps s) := by
  have h := keeps.refl s
  refine ⟨_, rfl, ?_⟩
  exact h.gated (by
    split
    · exact h
    · exact h.modLk.lkDrop)
theorem exec_recorderUpdateApply_keeps (s : State) {bad} : answers (.recorderUpdateApply bad) s (keeps s) := by
  have h := keeps.refl s
  refine ⟨_, rfl, ?_⟩
  dsimp only
  split
  · exact h
  · exact (keeps.ite h (by
      split
      · exact h
      · exact (h.modRec.foldl fun h1 _ => (keeps.ite h1.setObj.recBin h1)).applyUpd))
theorem exec_recorderClearPass_keeps (s : State) : answers .recorderClearPass s (keeps s) := by
  have h := keeps.refl s
  refine ⟨_, rfl, ?_⟩
  dsimp only
  split
  · exact .ite h <| .ite h.modRec.rset.recBin (keeps.ite ((h.modRec.foldl fun h1 _ => h1.setObj).foldl fun h1 _ => h1.setReg).setReg
      (h.modRec.foldl fun h1 _ => h1.setObj)).applyUpd.askCommit.rset
  · exact h
theorem exec_operatingSecond_keeps (s : State) : answers (.operatingSecond) s (keeps s) := by
  have h := keeps.refl s
  refine ⟨_, rfl, .ite h ?_⟩
  extract_lets a s1
  have h1 : keeps s s1 := h.modRec
  clear_value s1
  exact .ite h1.same <| .ite h1.same h1
theorem exec_recorderRestore_keeps (s : State) (reads : List SectorRead) : answers (.recorderRestore reads) s (keeps s) := by
  have h := keeps.refl s
  refine ⟨_, rfl, .ite h ?_⟩
  extract_lets sects found marked lost sr s0 done
  have h0 : keeps s s0 := (h.foldl fun k _ => k.sectFlags).modRec
  have hdone : ∀ {u : State} {bad : Nat}, keeps s u → keeps s (done u bad) := fun k => k.rsetFld.rsetFld.modRec
  clear_value s0 done
  split
  · next k c _ =>
    extract_lets head s1 s2 s3 s4 a
    have h1 : keeps s s1 := h0.foldl fun k _ => .ite k.setObj k
    have h3 : keeps s s3 := (h1.modRec.foldl fun k _ => k.setReg).setReg
    have h4 : keeps s s4 := (hdone h3).setReg.rsetFld.rset
    clear_value s4
    exact .ite h4.same.recBin.rset h4
  · exact .ite (hdone h0) <| .ite (hdone h0).recBin.rset.recBin (hdone h0).recBin.rset
theorem exec_flashReadResponse_keeps (s : State) {stat data} : answers (.flashReadResponse stat data) s (keeps s) := by
  have h := keeps.refl s
  refine ⟨_, rfl, ?_⟩
  dsimp only
  split
  · exact .ite h <| .ite h.flashReadEnd <| .ite (keeps.ite h.rset.setFlash h.rset.flashReadEnd) h.flashReadEnd
  · exact h
theorem exec_flashIndetRetry_keeps (s : State) : answers .flashIndetRetry s (keeps s) := by
  have h := keeps.refl s
  refine ⟨_, rfl, ?_⟩
  split
  · exact .ite h.flRead.rsetFld h
  · exact h
theorem exec_flashProgramErase_keeps (s : State) : answers .flashProgramErase s (keeps s) := by
  have h := keeps.refl s
  refine ⟨_, rfl, ?_⟩
  dsimp only
  split
  · exact h
  · exact (keeps.ite h (by
      split
      · exact h.flIssue
      · exact h.flIssue
      · exact h))
theorem exec_flashStatusPoll_keeps (s : State) {st} : answers (.flashStatusPoll st) s (keeps s) := by
  have h := keeps.refl s
  refine ⟨_, rfl, ?_⟩
  split
  · exact .ite h <| .ite (keeps.ite h.rset.flashEnd h.rsetFld.setFlash) <| .ite h.rset.flashEnd h.flashEnd
  · exact h
theorem exec_flashPeTimeout_keeps (s : State) {pulses} : answers (.flashPeTimeout pulses) s (keeps s) := by
  have h := keeps.refl s
  refine ⟨_, rfl, ?_⟩
  split
  · exact .ite h.rset.flashEnd h
  · exact h
theorem exec_fuseLoad_keeps (s : State) (fuses : List (Fin 512 × Word)) : answers (.fuseLoad fuses) s (keeps s) := by
  have h := keeps.refl s
  refine ⟨_, rfl, .ite h ?_⟩
  extract_lets s0 s1 lw sec s2
  have h0 : keeps s s0 := h.foldl fun k _ => k.same
  clear_value s0
  have h1 : keeps s s1 := h0.same.loadMirror
  clear_value s1
  have h2 : keeps s s2 := h1.same.rsetFld.rput
  clear_value s2
  refine .ite h2.bootFail ?_
  split
  · exact h2.bootFail
  · exact h2.loadFields.coppice.trAsk
theorem exec_memoryFill_keeps (s : State) (recBad : Bool) : answers (.memoryFill recBad) s (keeps s) := by
  have h := keeps.refl s
  refine ⟨_, rfl, .ite h ?_⟩
  extract_lets s0 s1
  have h1 : keeps s s1 := keeps.same (t := s0) h.fill
  exact .ite h1.modRec h1
theorem exec_imageLoad_keeps (s : State) {nv} : answers (.imageLoad nv) s (keeps s) := by
  have h := keeps.refl s
  refine ⟨_, rfl, ?_⟩
  dsimp only
  split
  · exact h
  · exact .ite h.loadNvm <| .ite h.setLoad.flRead h
theorem exec_imageCommit_keeps (s : State) : answers (.imageCommit) s (keeps s) := by
  have h := keeps.refl s
  refine ⟨_, rfl, ?_⟩
  split
  · next l _ =>
    split
    · next im _ =>
      have h1 : keeps s ((s.commitImage im).rsetFld rBcBootErr 8 2 l.src) := h.commitImage.rsetFld
      exact .ite h <| .ite (keeps.same (t := State.setLoad _ none) h1.setLoad) h1.setLoad
    · exact h
  · exact h
theorem exec_release_keeps (s : State) (us : Word) (stopped : List (Fin 32)) : answers (.release us stopped) s (keeps s) := by
  have h := keeps.refl s
  refine ⟨_, rfl, ?_⟩
  split
  · exact h
  · next im _ =>
    extract_lets s0 s1 s2 s3 bt s4 s5 rec s6 s7
    have h0 : keeps s s0 := h.seClocks
    clear_value s0
    have h1 : keeps s s1 := h0.same.bootErr
    clear_value s1
    have h3 : keeps s s3 := h1.setReg.foldl fun k _ => .ite k.rsetFld.standStart k.rsetFld
    clear_value s3
    have h4 : keeps s s4 := h3.same
    clear_value s4
    have h5 : keeps s s5 := h4.foldl fun k _ => k.svBegin
    clear_value s5
    have h6 : keeps s s6 := h5.same.spRelease
    clear_value s6
    have h7 : keeps s s7 := h6.each fun k _ => k.each fun k _ => k.lkSync
    exact .ite h h7.pulse.trAsk.trAsk.trAsk
theorem exec_otpBurnStepDone_keeps (s : State) {missed} : answers (.otpBurnStepDone missed) s (keeps s) := by
  have h := keeps.refl s
  refine ⟨_, rfl, ?_⟩
  dsimp only
  split
  · exact h
  · split
    · exact h
    · exact .ite h <| .ite h.same.otpEnd h.same.same
theorem exec_bcImginWrite_keeps (s : State) {m v} : answers (.bcImginWrite m v) s (keeps s) := by
  have h := keeps.refl s
  refine ⟨_, rfl, ?_⟩
  exact h.gated (by
    split
    · exact .ite h.imgIn h
    · exact h.imgIn)
theorem exec_streamIdleTimeout_keeps (s : State) : answers .streamIdleTimeout s (keeps s) := by
  have h := keeps.refl s
  refine ⟨_, rfl, ?_⟩
  exact h.gated (by
    split
    · exact .ite h.loadFail h
    · exact h)
theorem exec_imageAccept_keeps (s : State) : answers .imageAccept s (keeps s) := by
  have h := keeps.refl s
  refine ⟨_, rfl, ?_⟩
  dsimp only
  split
  · exact .ite h.same.setImgState h
  · exact h
theorem exec_alarmResponse_keeps (s : State) : answers .alarmResponse s (keeps s) := by
  have h := keeps.refl s
  refine ⟨_, rfl, ?_⟩
  dsimp only
  split
  · exact h
  · exact .ite h <| .ite h.same <| .ite h.same.alarmReset <| .ite (keeps.ite h.same.pulse.askZero <|
      .ite h.same.pulse.alarmFreeze h.same.pulse).alarmStands <| .ite h.same.pulse.askZero <| .ite h.same.pulse.alarmFreeze h.same.pulse
theorem exec_zeroiseClear_keeps (s : State) : answers (.zeroiseClear) s (keeps s) := by
  have h := keeps.refl s
  refine ⟨_, rfl, .ite h ?_⟩
  extract_lets sp s1 s2 s3 s4
  have h1 : keeps s s1 := h.trans ⟨rfl, fun ⟨hmem, hregs⟩ => ⟨Bank.wf_filter _ _ _ hmem, hregs⟩⟩
  clear_value s1
  have h2 : keeps s s2 := h1.each fun k _ => k.zeroLink
  clear_value s2
  have h3 : keeps s s3 := .ite h2.trAsk h2
  clear_value s3
  have h4 : keeps s s4 := .ite h3.alarmFreeze h3
  clear_value s4
  exact .ite h4.same h4.same.rset
theorem exec_zeroiseRestore_keeps (s : State) {stopped} : answers (.zeroiseRestore stopped) s (keeps s) := by
  have h := keeps.refl s
  refine ⟨_, rfl, ?_⟩
  exact .ite h (h.each fun h1 _ => (keeps.ite h1.modStand.standRestored.seClocks.standGo h1.modStand.standRestored)).same.rset
theorem exec_freezeRequest_keeps (s : State) : answers (.freezeRequest) s (keeps s) := by
  have h := keeps.refl s
  refine ⟨_, rfl, .ite h ?_⟩
  extract_lets s1 s2
  have h2 : keeps s s2 := h.setReg.rsetFld.setReg.setReg
  clear_value s2
  exact h2.same
theorem exec_freezeAlarm_keeps (s : State) : answers (.freezeAlarm) s (keeps s) := by
  have h := keeps.refl s
  refine ⟨_, rfl, .ite h ?_⟩
  split
  · exact h
  · next src rest _ =>
    extract_lets r s1 s2 sec
    have h1 : keeps s s1 := h.same
    clear_value s1
    have h2 : keeps s s2 := .ite h1.alarmFreeze h1
    clear_value s2
    exact .ite h.same.alarmReset <| .ite h2.same h2
theorem exec_registerWrite_keeps (s : State) {m a v} : answers (.registerWrite m a v) s (keeps s) := by
  have h := keeps.refl s
  refine ⟨_, rfl, ?_⟩
  split
  · exact .ite h.dbgAccess h
  · exact (h.gated (keeps.ite h h.regAccess))
theorem exec_stoppedClockStart_keeps (s : State) {d} : answers (.stoppedClockStart d) s (keeps s) := by
  have h := keeps.refl s
  refine ⟨_, rfl, ?_⟩
  exact .ite (keeps.ite (keeps.ite h.same.modSe h.same).rset h) (keeps.ite (keeps.hostPump (by
    split
    · exact .ite ((keeps.ite h.modSe h).seClockOn.foldl fun h1 _ => h1.waitedLoads.unhold) ((keeps.ite h.modSe h).seClockOn.foldl fun
        h1 _ => h1.waitedLoads.unhold).dbgPort
    · exact ((keeps.ite h.modSe h).seClockOn.foldl fun h1 _ => h1.waitedLoads.unhold))) h)
theorem exec_hostResponse_keeps (s : State) : answers (.hostResponse) s (keeps s) := by
  have h := keeps.refl s
  refine ⟨_, rfl, .ite h ?_⟩
  extract_lets s0
  have h0 : keeps s s0 := h.hostPump
  clear_value s0
  split
  · split
    · exact h0.same.hostErr.hostPump
    · exact h0
  · exact h0
theorem exec_cipherRequest_keeps (s : State) : answers .cipherRequest s (keeps s) := by
  have h := keeps.refl s
  refine ⟨_, rfl, ?_⟩
  exact .ite h (by
    split
    · exact h
    · exact (keeps.ite h.same.cpEnd h.same.same))
theorem exec_cipherResult_keeps (s : State) {a} : answers (.cipherResult a) s (keeps s) := by
  have h := keeps.refl s
  refine ⟨_, rfl, ?_⟩
  split
  · exact h
  · exact .ite h <| .ite h.cpFree <| .ite h.cpFree.cpEnd <| .ite h.rset.cpFree.cpEnd <| .ite h.rset.cpFree.cpEnd h.cpFault
theorem exec_cipherTimeout_keeps (s : State) : answers .cipherTimeout s (keeps s) := by
  have h := keeps.refl s
  refine ⟨_, rfl, ?_⟩
  split
  · exact h
  · exact .ite h <| .ite h.cpFree h.cpFault
theorem exec_trngWord_keeps (s : State) (w : Word) : answers (.trngWord w) s (keeps s) := by
  have h := keeps.refl s
  refine ⟨_, rfl, .ite h ?_⟩
  extract_lets s1 ports s0
  have h1 : keeps s s1 := .ite h.rset h
  clear_value s1
  have h0 : keeps s s0 := h1.same
  clear_value s0
  split
  · exact h0
  · exact .ite h0.same h0.same.trGive
theorem exec_trngWaitTimeout_keeps (s : State) : answers .trngWaitTimeout s (keeps s) := by
  have h := keeps.refl s
  refine ⟨_, rfl, ?_⟩
  exact .ite h (by
    split
    · exact h.bootFail
    · exact h.rset.raise
    · exact h)

/-- No command does harm to storage, and none touches the queue. -/
theorem exec_keeps (c : Instr) (s : State) : answers c s (keeps s) := by
  have h := keeps.refl s
  cases c with
  | add | sub | shl => exact ⟨_, rfl, h.aluArith⟩
  | and | or | xor | shr | sra => exact ⟨_, rfl, h.aluWide⟩
  | ror | div | divu | rem | remu | min | max | minu | maxu | andn | extr | pack => exact ⟨_, rfl, h.aluRR⟩
  | mul | mulh | mulhu | muli | mac | msu | maddi => exact ⟨_, rfl, h.issueDelayed⟩
  | sel | lea | xlea | xget | mft | insr | crcb | crcw => exact ⟨_, rfl, h.issueVal⟩
  | mov => exact ⟨_, rfl, .ite h.issuePair h.aluR⟩
  | not | neg | abs | clz | popc | bswap | rsubi | andi | ori | xori | mini | maxi | brev | par => exact ⟨_, rfl, h.aluR⟩
  | addi => exact exec_addi_keeps ..
  | shli | shri | srai | rori => exact ⟨_, rfl, h.shiftK⟩
  | movi => exact ⟨_, rfl, .ite h.issuePair h.issueVal⟩
  | seq | sne | slt | sltu => exact ⟨_, rfl, h.cmpWide⟩
  | sle | sleu | stst => exact ⟨_, rfl, h.cmpRR⟩
  | seqi | snei | slti | sltui | slei | sleui | sgti | sgtui | ststi => exact ⟨_, rfl, h.cmpRI⟩
  | ld | ldpc => exact ⟨_, rfl, h.issueLoad⟩
  | st => exact exec_st_keeps ..
  | fence | xadv | xset | yield | evclr | mtt | nop => exact ⟨_, rfl, h.issueThr⟩
  | atomSwap | atomAdd | atomAnd | atomOr | atomXor | atomMinu | atomMaxu | atomCas => exact ⟨_, rfl, h.issueAtom⟩
  | bz | bnz | br => exact ⟨_, rfl, h.branchIf⟩
  | call | jmp | jal | rett | bdec | sig => exact ⟨_, rfl, h.issue (fun h1 _ => h1.modThr)⟩
  | impreciseTrap => exact exec_impreciseTrap_keeps ..
  | loadDataReturn => exact ⟨_, rfl, h.gated h.waitedLoads.loadReturn⟩
  | storeGrant => exact ⟨_, rfl, h.gated h.storeGrant⟩
  | lateAccessMark => exact ⟨_, rfl, h.gated (keeps.ite h.modThr <| .ite h.modThr h)⟩
  | engineHoldStall | romFetchReturn => exact ⟨_, rfl, h.gated (keeps.ite h.modThr h)⟩
  | twinRecordMatch => exact exec_twinRecordMatch_keeps ..
  | twinTimeout => exact ⟨_, rfl, h.gated (keeps.ite h.twinFault h)⟩
  | put | pute | chEnd | get | getn | drop | abt | tput | tpute | tend | tget | tgetn | chs => exact ⟨_, rfl, h.issueChan⟩
  | channelResponse => exact exec_channelResponse_keeps ..
  | parkedOpRedecide => exact exec_parkedOpRedecide_keeps ..
  | channelTimeout => exact exec_channelTimeout_keeps ..
  | waitev | waitt => exact ⟨_, rfl, h.issueWait⟩
  | sleep => exact ⟨_, rfl, h.issue (fun h1 _ => h1.same.modThr)⟩
  | waitRelease => exact ⟨_, rfl, h.gated (keeps.ite h.waitRelease (h.each fun h _ => h.waitRelease))⟩
  | btrd => exact exec_btrd_keeps ..
  | ext | exts | ins | clrf | setf => exact ⟨_, rfl, h.descForm⟩
  | bset | bclr | binv | btst => exact ⟨_, rfl, h.bitForm⟩
  | deftrap | illegalInstruction => exact ⟨_, rfl, h.issue (fun h1 _ => h1)⟩
  | mull | mullu | macl | maclu => exact ⟨_, rfl, h.issueDelayedPair⟩
  | seBr | seWait | seSample | seCopy => exact ⟨_, rfl, h.seePads.seExec⟩
  | seEmit | sePull | sePush | seDrive | seLoadl | seSignal | seIdle => exact ⟨_, rfl, h.seExec⟩
  | seIllegal => exact ⟨_, rfl, .ite h.seIllegalAt h⟩
  | seStallComplete => exact exec_seStallComplete_keeps ..
  | seEventIn => exact ⟨_, rfl, h.gated (keeps.ite h.setView.sePend.same h)⟩
  | senCtlEnWrite => exact ⟨_, rfl, h.gated (keeps.ite h.seSetEn h)⟩
  | senProgWrite => exact ⟨_, rfl, h.gated (keeps.ite h.seSetProg h)⟩
  | senPcWrite => exact ⟨_, rfl, h.gated (keeps.ite h.seSetPc h)⟩
  | senLWrite => exact ⟨_, rfl, h.gated (keeps.ite h.setReg h)⟩
  | calObservation => exact ⟨_, rfl, h.gated (keeps.ite h <| .ite h.rcount <| .ite h.setCal h.calDecide)⟩
  | tapMoveApply => exact exec_tapMoveApply_keeps ..
  | ppsEdge => exact exec_ppsEdge_keeps ..
  | btHoldover => exact ⟨_, rfl, h.gated (keeps.ite h.same.setReg.pulse h)⟩
  | timerMatch => exact ⟨_, rfl, .ite h.tmSet.modTmr.tmFire h⟩
  | timerWrap => exact ⟨_, rfl, .ite h.tmSet.modTmr.tmWrap.tmEval h⟩
  | timerCapture => exact ⟨_, rfl, h.gated (keeps.ite h.modTmr.tmCapture h)⟩
  | timerCountEvent => exact ⟨_, rfl, h.gated (keeps.ite (keeps.ite (keeps.ite h.modTmr.tmAdvance.tmEval h) h.modTmr) h)⟩
  | timerCompareInput => exact ⟨_, rfl, h.gated h.tmCompareIn⟩
  | tmnCapRead => exact exec_tmnCapRead_keeps ..
  | tmnCmpWrite => exact ⟨_, rfl, h.gated h.tmWriteCmp⟩
  | tmnCtlWrite => exact ⟨_, rfl, h.gated h.tmWriteCtl⟩
  | tmGstart => exact ⟨_, rfl, h.gated (keeps.ite h.groupStart h)⟩
  | btOfshiWrite => exact ⟨_, rfl, h.gated h.btWriteOfsHi⟩
  | btAdjWrite => exact ⟨_, rfl, h.gated h.btWriteAdj⟩
  | hostPairLowRead => exact ⟨_, rfl, h.gated h.hostPairLow⟩
  | hostPairHighRead => exact ⟨_, rfl, h.gated h.hostPairHigh⟩
  | routeFire => exact ⟨_, rfl, h.gated (keeps.ite h.same.fireRoute h)⟩
  | eventDelivery => exact ⟨_, rfl, h.gated (keeps.ite h.same.arrive h)⟩
  | busyViewClear => exact ⟨_, rfl, h.gated (keeps.ite h.setView h)⟩
  | evFire => exact ⟨_, rfl, h.evFire⟩
  | evStatWrite => exact ⟨_, rfl, h.gated h.evStatWrite⟩
  | deadlockSnapshot | testEntry => exact ⟨_, rfl, .ite h.same h⟩
  | deadlockAnalysisEnd => exact ⟨_, rfl, h.gated (keeps.ite ((h.same.foldl fun h _ => h.actDead).foldl fun h _ => h.actHeld) h)⟩
  | poolScrub => exact exec_poolScrub_keeps ..
  | unitEndpointTransfer => exact ⟨_, rfl, .ite h <| .ite (keeps.ite h.toTxQueue h.fromRxQueue) <| .ite h.tmCompareIn <|
    .ite h.lkSendHead h⟩
  | mcHput | mcHpute => exact ⟨_, rfl, h.gated h.mailAccess⟩
  | mcHget => exact ⟨_, rfl, h.gated h.mailGet⟩
  | mcHstatEnd | mcHstatAbt | mcHstatDrop => exact ⟨_, rfl, h.gated h.mailStatWrite⟩
  | spAccessGrant => exact exec_spAccessGrant_keeps ..
  | scrubGrant => exact ⟨_, rfl, .ite (keeps.ite h.same h.same.checkWord) h⟩
  | scrubLapEnd => exact ⟨_, rfl, .ite (keeps.ite h.setReg.setReg h.setReg).same.lapStart.recVal h⟩
  | lapAlarm => exact ⟨_, rfl, .ite h.same.setReg.rset.pulse.recBin h⟩
  | ttStart => exact ⟨_, rfl, h.gated h.ttStart⟩
  | ttStop => exact ⟨_, rfl, h.gated h.ttStop⟩
  | testRegionDone => exact ⟨_, rfl, .ite (keeps.ite h.ttFail.ttRestore.rset.same.ttBegin h.ttFail.ttRestore.rset.same) h⟩
  | spWclr => exact ⟨_, rfl, h.gated h.wclr⟩
  | wordClearDone => exact exec_wordClearDone_keeps ..
  | retire => exact ⟨_, rfl, h.gated h.retirePage⟩
  | retireCopyDone => exact exec_retireCopyDone_keeps ..
  | padClampPulse => exact ⟨_, rfl, .ite h.modPin h.sampleClamp⟩
  | surgeEnd => exact ⟨_, rfl, h.gated (keeps.ite h h.modZone.recBin.recVal)⟩
  | pgnOutWrite => exact ⟨_, rfl, h.gated h.pgOutWrite⟩
  | governorWindowStart => exact exec_governorWindowStart_keeps ..
  | laneRecordApply => exact exec_laneRecordApply_keeps ..
  | serviceInit => exact exec_serviceInit_keeps ..
  | uartSend => exact exec_uartSend_keeps ..
  | uartData => exact exec_uartData_keeps ..
  | uartIdleFlush => exact exec_uartIdleFlush_keeps ..
  | modbusFrame => exact exec_modbusFrame_keeps ..
  | dnp3LinkFrame => exact exec_dnp3LinkFrame_keeps ..
  | dnp3Control => exact exec_dnp3Control_keeps ..
  | dnp3ControlReply => exact exec_dnp3ControlReply_keeps ..
  | dnp3ApprspTimeout => exact exec_dnp3ApprspTimeout_keeps ..
  | dnp3Event => exact exec_dnp3Event_keeps ..
  | dnp3UnsolHold => exact exec_dnp3UnsolHold_keeps ..
  | dnp3ConfirmTimeout => exact exec_dnp3ConfirmTimeout_keeps ..
  | dnp3SessionKeyExpiry => exact exec_dnp3SessionKeyExpiry_keeps ..
  | dnp3LinkConfirmTimeout => exact exec_dnp3LinkConfirmTimeout_keeps ..
  | sdi12Raw => exact exec_sdi12Raw_keeps ..
  | sdi12Measure => exact exec_sdi12Measure_keeps ..
  | sdi12ResponseTimeout => exact exec_sdi12ResponseTimeout_keeps ..
  | spiXfer => exact exec_spiXfer_keeps ..
  | i2cXfer => exact exec_i2cXfer_keeps ..
  | i2cStretchTimeout => exact exec_i2cStretchTimeout_keeps ..
  | pulseReport => exact exec_pulseReport_keeps ..
  | bridgeRead | bridgeWrite | bridgePing => exact ⟨_, rfl, h.bridgeServe⟩
  | helloFrame | ackFrame | cdataFrame | creditFrame | syncFrame | grantFrame | bdataFrame | freezeFrame | timeFrame => exact ⟨_, rfl,
    h.frameIn⟩
  | recovRead | recovWrite | recovStream | recovImage | recovAbort | recovResponse => exact ⟨_, rfl, h.recovIn⟩
  | helloPeriod => exact ⟨_, rfl, .ite h.lkHello h⟩
  | linkKeepalive => exact ⟨_, rfl, .ite h.lkSay h⟩
  | linkSilenceTimeout => exact ⟨_, rfl, .ite h.lkDown h⟩
  | retransmitTimeout => exact exec_retransmitTimeout_keeps ..
  | ackDelay => exact ⟨_, rfl, .ite h.lkSay.modLk h.modLk⟩
  | linkCreditReturn => exact exec_linkCreditReturn_keeps ..
  | creditTimeout => exact exec_creditTimeout_keeps ..
  | staleFrameDrop => exact exec_staleFrameDrop_keeps ..
  | syncWaitTimeout => exact ⟨_, rfl, .ite h.lkSync h⟩
  | timePeriod => exact ⟨_, rfl, .ite h.lkSay.modLk h⟩
  | freezeAckWait => exact ⟨_, rfl, h.gated (keeps.ite h.same.freezeTrigger h)⟩
  | sessionRenewal => exact ⟨_, rfl, .ite h.lkRenew h⟩
  | lkFrzcmd => exact ⟨_, rfl, h.gated h.lkFreeze⟩
  | rtxSend => exact ⟨_, rfl, h.gated h.lkRtx⟩
  | linkLockFall => exact ⟨_, rfl, .ite (keeps.ite h.rcount h).modLk.lkDown h⟩
  | recorderUpdateApply => exact exec_recorderUpdateApply_keeps ..
  | erCursorLoad => exact ⟨_, rfl, h.gated h.cursorLoad⟩
  | erCursorNext => exact ⟨_, rfl, h.gated h.cursorNext⟩
  | erClrctl => exact ⟨_, rfl, h.gated h.clrCtl⟩
  | recorderClearPass => exact exec_recorderClearPass_keeps ..
  | erCmctl => exact ⟨_, rfl, h.gated h.cmCtl⟩
  | periodicCommit => exact ⟨_, rfl, h.gated h.modRec.askCommit⟩
  | commit => exact ⟨_, rfl, .ite (keeps.ite h.modRec.attempt h.modRec) h⟩
  | operatingSecond => exact exec_operatingSecond_keeps ..
  | recorderRestore => exact exec_recorderRestore_keeps ..
  | flashReadResponse => exact exec_flashReadResponse_keeps ..
  | flashIndetRetry => exact exec_flashIndetRetry_keeps ..
  | flashProgramErase => exact exec_flashProgramErase_keeps ..
  | flashStatusPoll => exact exec_flashStatusPoll_keeps ..
  | flashPeTimeout => exact exec_flashPeTimeout_keeps ..
  | coldReset => exact ⟨_, rfl, h.outside.same.setReg.rsetFld⟩
  | pwrOkFall => exact ⟨_, rfl, h.outside.same.rsetFld⟩
  | aonOkFall => exact ⟨_, rfl, h.drew.drew.drew.same⟩
  | warmReset => exact ⟨_, rfl, .ite h.warmScope.rcount h⟩
  | fuseLoad => exact exec_fuseLoad_keeps ..
  | memoryFill => exact exec_memoryFill_keeps ..
  | imageLoad => exact exec_imageLoad_keeps ..
  | imageCommit => exact exec_imageCommit_keeps ..
  | delayLineLock => exact ⟨_, rfl, .ite h (h.each fun h _ => h.setTaps).same⟩
  | dlockTimeout => exact ⟨_, rfl, .ite h.unitsOff.bootFail h⟩
  | release => exact exec_release_keeps ..
  | burngen | arbraise | lock1 | lock2 | zoneburn | testdis => exact ⟨_, rfl, h.gated h.otpCtl⟩
  | otpBurnStepDone => exact exec_otpBurnStepDone_keeps ..
  | reload | srcload | stream | imgAbort => exact ⟨_, rfl, h.gated h.imgCtl⟩
  | bcImginWrite => exact exec_bcImginWrite_keeps ..
  | streamIdleTimeout => exact exec_streamIdleTimeout_keeps ..
  | imageAccept => exact exec_imageAccept_keeps ..
  | threadRestart => exact ⟨_, rfl, .ite (keeps.ite h.restartCopy.restartCopy h.restartCopy).svRestart h⟩
  | standRestart => exact ⟨_, rfl, .ite h.standAccept.standFence h⟩
  | standRestore => exact ⟨_, rfl, .ite h.standRestored h⟩
  | standRelease => exact ⟨_, rfl, .ite h.seClocks.standGo h⟩
  | restart | unpark => exact ⟨_, rfl, h.gated h.stcCtl⟩
  | wdkick => exact ⟨_, rfl, h.gated h.wdKick⟩
  | watchdogExpiry => exact ⟨_, rfl, .ite h.rsetFld.askStand h⟩
  | stormDecay => exact ⟨_, rfl, .ite h.rsetFld h⟩
  | alarmInput => exact ⟨_, rfl, .ite (keeps.ite h.allFs.rput.rset.rclr h.allFs.rput.rset.rclr.raise) h.allFs.rput⟩
  | alarmRearm => exact ⟨_, rfl, h.rclr.rset⟩
  | shadowMismatch => exact ⟨_, rfl, .ite h <| .ite h.same.shadowTaken h.same.shadowTaken.rset.recBin.raise⟩
  | alarmResponse => exact exec_alarmResponse_keeps ..
  | zeroise => exact ⟨_, rfl, .ite h (keeps.ite (h.zeroKey.abandonCipher.each fun h _ => h.zeroStand) h.zeroKey.abandonCipher).same⟩
  | zeroiseClear => exact exec_zeroiseClear_keeps ..
  | zeroiseRestore => exact exec_zeroiseRestore_keeps ..
  | lk2FreezeReset => exact ⟨_, rfl, .ite h.alarmReset h⟩
  | newch | unlock | relock => exact ⟨_, rfl, h.dbgCtl⟩
  | debugLockoutEnd | tapReset => exact ⟨_, rfl, h.same⟩
  | secAlstatClear => exact ⟨_, rfl, .ite h.alClear (h.gated h.alClear)⟩
  | bypass | idcode => exact ⟨_, rfl, h.tapLoad⟩
  | dbgacc => exact ⟨_, rfl, .ite h.tapLoad <| .ite h <| .ite h.same.tapLoad h.dbgPort⟩
  | frread => exact ⟨_, rfl, .ite h.tapLoad h.frRead.tapLoad⟩
  | haltt => exact ⟨_, rfl, h.dbgHaltT⟩
  | resumet => exact ⟨_, rfl, h.dbgResumeT⟩
  | stept => exact ⟨_, rfl, h.dbgStepT⟩
  | treset => exact ⟨_, rfl, h.dbgReset⟩
  | halts => exact ⟨_, rfl, h.dbgHaltS⟩
  | resumes => exact ⟨_, rfl, h.dbgResumeS⟩
  | dbgAbort => exact ⟨_, rfl, h.dbgAbortT⟩
  | dbgFreeze => exact ⟨_, rfl, h.dbgFreezeCmd⟩
  | resume => exact ⟨_, rfl, h.dbgResume⟩
  | dbgTregAccess => exact ⟨_, rfl, .ite h.dbgTreg.same h⟩
  | dbgSholdWrite => exact ⟨_, rfl, .ite h.dbgShold h⟩
  | freezeRequest => exact exec_freezeRequest_keeps ..
  | freezeComplete | freezeAckTimeout => exact ⟨_, rfl, .ite h.freezeDone h⟩
  | freezeAlarm => exact exec_freezeAlarm_keeps ..
  | dbgFrselWrite => exact ⟨_, rfl, .ite h.setReg.setReg h⟩
  | dbgFrdataRead => exact ⟨_, rfl, .ite h.frRead.same h⟩
  | registerWrite => exact exec_registerWrite_keeps ..
  | freezeNLow => exact ⟨_, rfl, h.freezeTrigger⟩
  | stoppedClockStart => exact exec_stoppedClockStart_keeps ..
  | hostRequest => exact ⟨_, rfl, .ite h h.same.hostPump⟩
  | hostResponse => exact exec_hostResponse_keeps ..
  | cipherRequest => exact exec_cipherRequest_keeps ..
  | cipherResult => exact exec_cipherResult_keeps ..
  | cipherTimeout => exact exec_cipherTimeout_keeps ..
  | cipherResumeReissue => exact ⟨_, rfl, .ite h h.same⟩
  | trngWord => exact exec_trngWord_keeps ..
  | trngWaitTimeout => exact exec_trngWaitTimeout_keeps ..
  | trHealthFail => exact ⟨_, rfl, h.gated h.same.rset⟩

/-- The queue empty or not, a step leads to a state that keeps the canonical form. -/
theorem step_keeps_canon (s : State) : ∃ t, step s = .next t ∧ (s.canon → t.canon) := by
  unfold step
  split
  · exact ⟨_, rfl, (keeps.refl s).tclk.2⟩
  · next c r _ =>
    obtain ⟨t, ht, hkeep⟩ := exec_keeps c { s with pending := r }
    exact ⟨t, ht, hkeep.2⟩

/-- Settles O60, from `exec_keeps`: the last command of a chain of operations that keep the queue and the canonical form. -/
theorem everyStepGoesOnInCanonicalForm : Obligations.EveryStepGoesOnInCanonicalForm := by
  refine ⟨fun s => ?_, fun s t hs h => ?_, fun c s t h => ?_⟩
  · obtain ⟨t, ht, -⟩ := step_keeps_canon s
    exact ⟨t, ht⟩
  · obtain ⟨u, hu, hcanon⟩ := step_keeps_canon s
    obtain rfl : u = t := by simpa [h] using hu.symm
    exact hcanon hs
  · obtain ⟨u, hu, hkeep⟩ := exec_keeps c s
    obtain rfl : u = t := by simpa [h] using hu.symm
    exact hkeep.1

end Machine
end Sys2Proof
end

section
/-! THEOREM. O57 and O58: a step runs the command at the front of the queue, and with none one tick of TCLK passes. -/
namespace Sys2Proof
namespace Machine

/-- Settles O57: `step` of a queue with a command in front. -/
theorem stepRunsTheFrontCommand : Obligations.StepRunsTheFrontCommand := by
  intro c s q h
  simp [step, h]

/-- Block time, channels, memory, the queue, and of a thread everything but what it waits for are as they were: what a tick's work on
timers leaves. -/
def timersOnly (s t : State) : Prop :=
  t.bt = s.bt ∧ t.chans = s.chans ∧ t.mem = s.mem ∧ t.pending = s.pending ∧ ∀ k, t.thr k = { s.thr k with stall := (t.thr k).stall }

theorem timersOnly.refl (s : State) : timersOnly s s := ⟨rfl, rfl, rfl, rfl, fun _ => rfl⟩

theorem timersOnly.trans {s t u : State} (h : timersOnly s t) (k : timersOnly t u) : timersOnly s u := by
  obtain ⟨hbt, hchans, hmem, hpending, hthr⟩ := h
  obtain ⟨kbt, kchans, kmem, kpending, kthr⟩ := k
  exact ⟨kbt.trans hbt, kchans.trans hchans, kmem.trans hmem, kpending.trans hpending, fun n => by rw [kthr n, hthr n]⟩

/-- An operation that names registers, timers or routes alone. -/
theorem timersOnly.same {s t u : State} (h : timersOnly s t) (hbt : u.bt = t.bt := by rfl) (hchans : u.chans = t.chans := by rfl)
    (hmem : u.mem = t.mem := by rfl) (hpending : u.pending = t.pending := by rfl) (hthr : u.threads = t.threads := by rfl) :
    timersOnly s u :=
  h.trans ⟨hbt, hchans, hmem, hpending, fun k => by simp [State.thr, hthr]⟩

theorem timersOnly.each {s t : State} {l : List Nat} {f : State → Nat → State} (h : timersOnly s t)
    (hf : ∀ {u}, timersOnly s u → ∀ n, timersOnly s (f u n)) : timersOnly s (t.each l f) := by
  unfold State.each
  induction l generalizing t with
  | nil => exact h
  | cons n l ih => exact ih (hf h n)

theorem timersOnly.modThr_stall {s t : State} (h : timersOnly s t) (i : Nat) (f : Thread → Thread)
    (hf : ∀ x, f x = { x with stall := (f x).stall }) : timersOnly s (t.modThr i f) := by
  refine h.trans ⟨rfl, rfl, rfl, rfl, fun k => ?_⟩
  rw [State.thr_modThr]
  split
  · next e => rw [e]; exact hf _
  · rfl

theorem timersOnly.tmRelease {s t : State} (h : timersOnly s t) {n : Nat} {v : Word} : timersOnly s (t.tmRelease n v) :=
  h.each fun k i => k.modThr_stall i _ fun x => by
    split
    · split <;> rfl
    · rfl

theorem timersOnly.tmFire {s t : State} (h : timersOnly s t) {n : Nat} : timersOnly s (t.tmFire n) :=
  (h.same (u := (((t.rset (rTmStat n) 0).modTmr n fun x => { x with armed := true }).pulse (128 + 2 * n)))).tmRelease

theorem timersOnly.tmEval {s t : State} (h : timersOnly s t) {n : Nat} : timersOnly s (t.tmEval n) := by
  unfold State.tmEval
  dsimp only
  split
  · exact (h.same (u := t.modTmr n _)).tmFire
  · exact h.same

theorem timersOnly.tmSet {s t : State} (h : timersOnly s t) {n : Nat} {r : Nat → Nat} {v : Nat} : timersOnly s (t.tmSet n r v) := by
  unfold State.tmSet
  dsimp only
  split <;> exact h.same

theorem timersOnly.tmAdvance {s t : State} (h : timersOnly s t) {n : Nat} : timersOnly s (t.tmAdvance n) := by
  have hincr {u : State} (k : timersOnly s u) : timersOnly s (u.tmIncr n) := by
    unfold State.tmIncr
    extract_lets v u1
    have h1 : timersOnly s u1 := k.tmSet
    clear_value u1
    split
    · exact h1.same
    · exact h1
  unfold State.tmAdvance
  split
  · exact hincr h.same
  · exact h.same

theorem timersOnly.tmTick {s t : State} (h : timersOnly s t) {n : Nat} : timersOnly s (t.tmTick n) := by
  unfold State.tmTick
  dsimp only
  split
  · split
    · exact h.tmEval
    · exact h.tmAdvance.tmEval
  · exact h

theorem State.tmIncr_unlinked {s : State} {n : Nat} (h : s.tmLinked n = false) :
    (s.tmIncr n).reg (rTmCnt n) = s.reg (rTmCnt n) + 1#32 ∧ (s.tmIncr n).tmrs = s.tmrs := by
  have hsum : BitVec.ofNat 32 (((s.reg (rTmCnt n)).toNat + 1) % 2 ^ 32) = s.reg (rTmCnt n) + 1#32 := by
    apply BitVec.eq_of_toNat_eq
    simp
  simp only [State.tmIncr, State.tmSet_unlinked h, State.tmVal_unlinked h, h, Bool.false_eq_true, if_false, hsum]
  split
  · have hflag : ((s.setReg (rTmCnt n) (s.reg (rTmCnt n) + 1#32)).rset (rTmStat n) 3).reg (rTmCnt n) = s.reg (rTmCnt n) + 1#32 := by
      simp [rTmCnt_ne_rTmStat]
    exact ⟨hflag, rfl⟩
  · exact ⟨by simp, rfl⟩

/-- R310: a running timer that is not linked and does not count events counts when its prescaler has reached PRESC. -/
theorem State.tmTick_count {s : State} {n : Nat} (hruns : s.tmRuns n = true) (hlink : s.tmLinked n = false)
    (hmode : s.rbit (rTmCtl n) 1 = false) :
    ((s.tmr n).p = s.rfld (rTmCtl n) 16 16 →
      (s.tmTick n).reg (rTmCnt n) = s.reg (rTmCnt n) + 1#32 ∧ ((s.tmTick n).tmr n).p = 0) ∧
    ((s.tmr n).p ≠ s.rfld (rTmCtl n) 16 16 →
      (s.tmTick n).reg (rTmCnt n) = s.reg (rTmCnt n) ∧ ((s.tmTick n).tmr n).p = (s.tmr n).p + 1) := by
  have hstat := rTmCnt_ne_rTmStat n n
  have htick : s.tmTick n = (s.tmAdvance n).tmEval n := by simp [State.tmTick, hruns, hmode]
  rw [htick, State.tmEval_sameRegs _ _ _ hstat, State.tmEval_p]
  refine ⟨fun hp => ?_, fun hp => ?_⟩
  · have hlink' : (s.modTmr n fun t => { t with p := 0 }).tmLinked n = false := hlink
    obtain ⟨hcount, htmrs⟩ := State.tmIncr_unlinked hlink'
    rw [State.tmAdvance, if_pos hp, hcount]
    exact ⟨rfl, by rw [State.tmr, htmrs, ← State.tmr]; simp⟩
  · rw [State.tmAdvance, if_neg hp]
    exact ⟨rfl, by simp [State.tmr_modTmr]⟩

/-- Settles O58: a tick moves block time, and each timer with a record by `State.tmTick`. -/
theorem emptyQueueStepIsOneTick : Obligations.EmptyQueueStepIsOneTick := by
  intro s n hq T
  have hstep : step s = .next s.tclk := by simp [step, hq]
  refine ⟨_, hstep, ?_⟩
  let s0 : State := { s with bt := s.bt.advance (s.reg rBtAdj) 1 }
  have hT : s.bt.frac.toNat + 1 * ((2 ^ 32 : Int) + (s.reg rBtAdj).toInt).toNat = T := by simp [T]
  by_cases hm : s.mode = .halted
  · have ht : s.tclk = s := by simp [State.tclk, State.gated, hm]
    rw [ht]
    exact ⟨rfl, rfl, fun _ => rfl, hq, fun _ => rfl, fun _ => rfl, fun h => absurd hm h, fun _ hruns => by
      simp [State.tmRuns, hm] at hruns⟩
  · have ht : s.tclk = s0.each (s.tmrs.map Prod.fst) fun s n => s.tmTick n := by simp [State.tclk, State.gated, hm, s0]
    obtain ⟨hbt, hchans, hmem, hpending, hthr⟩ : timersOnly s0 s.tclk := by
      rw [ht]
      exact (timersOnly.refl s0).each fun k _ => k.tmTick
    refine ⟨hchans, hmem, hthr, hpending.trans hq, fun h => absurd h hm, fun hon => ?_, fun _ hon => ?_, fun htmrs hruns hlink hmode => ?_⟩
    · rw [hbt]
      simp [s0, BlockTime.advance, hon]
    · rw [hbt]
      simp only [s0, BlockTime.advance, if_pos hon, hT, and_self]
    · have htick : s.tclk = s0.tmTick n := by rw [ht, htmrs]; rfl
      rw [htick]
      exact State.tmTick_count (s := s0) hruns hlink hmode

end Machine
end Sys2Proof
end

section
/-! THEOREM. O32: the scratchpad code corrects one wrong stored symbol. Multiplication by α^p is doubling `p` times (`gfMul_gfPow`), and
no symbol but 0 comes back to itself in fewer than 20 doublings (`gfDouble_iterate_fixed`); so the syndromes of one wrong symbol name
its position among the first 20. -/
namespace Sys2Proof
namespace Machine

/-! ### Doubling and products -/

theorem gfDouble_xor (a b : Byte) : gfDouble (a ^^^ b) = gfDouble a ^^^ gfDouble b := by
  have hshift : (a ^^^ b) <<< 1 = (a <<< 1) ^^^ (b <<< 1) := BitVec.shiftLeft_xor_distrib ..
  unfold gfDouble
  rw [BitVec.getLsbD_xor, hshift]
  cases a.getLsbD 7 <;> cases b.getLsbD 7 <;> simp only [bne_self_eq_false, Bool.bne_false, Bool.false_bne, if_true, if_false,
    Bool.false_eq_true]
  · ac_rfl
  · ac_rfl
  · rw [show a <<< 1 ^^^ 0x1D#8 ^^^ (b <<< 1 ^^^ 0x1D#8) = a <<< 1 ^^^ b <<< 1 ^^^ (0x1D#8 ^^^ 0x1D#8) by ac_rfl]
    simp

theorem gfDouble_eq_zero {a : Byte} (h : gfDouble a = 0#8) : a = 0#8 := by
  revert a
  decide

theorem gfDouble_injective : Function.Injective gfDouble := fun a b h =>
  BitVec.xor_eq_zero_iff.mp (gfDouble_eq_zero (by rw [gfDouble_xor, h, BitVec.xor_self]))

/-- The symbol where a bit of the other factor is 1. -/
def gfIf (c : Bool) (a : Byte) : Byte := if c then a else 0#8

theorem gfDouble_gfIf (c : Bool) (a : Byte) : gfDouble (gfIf c a) = gfIf c (gfDouble a) := by
  cases c
  · exact (by decide : gfDouble 0#8 = 0#8)
  · rfl
theorem gfIf_xor (c d : Bool) (a : Byte) : gfIf (c ^^ d) a = gfIf c a ^^^ gfIf d a := by cases c <;> cases d <;> simp [gfIf]
theorem gfIf_of_xor (c : Bool) (a b : Byte) : gfIf c (a ^^^ b) = gfIf c a ^^^ gfIf c b := by cases c <;> simp [gfIf]

/-- The product as a sum: a symbol doubled `k` times for each bit `k` of the other. -/
theorem gfMul_eq_sum (a b : Byte) : gfMul a b = gfIf (b.getLsbD 7) (gfDouble^[7] a) ^^^ gfIf (b.getLsbD 6) (gfDouble^[6] a) ^^^
    gfIf (b.getLsbD 5) (gfDouble^[5] a) ^^^ gfIf (b.getLsbD 4) (gfDouble^[4] a) ^^^ gfIf (b.getLsbD 3) (gfDouble^[3] a) ^^^
    gfIf (b.getLsbD 2) (gfDouble^[2] a) ^^^ gfIf (b.getLsbD 1) (gfDouble^[1] a) ^^^ gfIf (b.getLsbD 0) (gfDouble^[0] a) := by
  have hsucc (n : Nat) : gfMulN a b (n + 1) = gfDouble (gfMulN a b n) ^^^ gfIf (b.getLsbD (7 - n)) a := rfl
  have hzero : gfDouble (gfMulN a b 0) = 0#8 := (by decide : gfDouble 0#8 = 0#8)
  simp only [gfMul, hsucc, hzero, gfDouble_xor, gfDouble_gfIf, Function.iterate_succ_apply', Function.iterate_zero_apply,
    BitVec.zero_xor, Nat.reduceSub]

/-- The field's polynomial: α^8 = α^4 + α^3 + α^2 + 1 (R358). -/
theorem gfDouble_eight (a : Byte) : gfDouble^[8] a = gfDouble^[4] a ^^^ gfDouble^[3] a ^^^ gfDouble^[2] a ^^^ a := by
  revert a
  decide

theorem gfDouble_bit (b : Byte) (k : Nat) :
    (gfDouble b).getLsbD k = ((b <<< 1).getLsbD k ^^ (b.getLsbD 7 && (0x1D#8).getLsbD k)) := by
  unfold gfDouble
  cases b.getLsbD 7 <;> simp

theorem gfMul_gfDouble (a b : Byte) : gfMul a (gfDouble b) = gfDouble (gfMul a b) := by
  have hbits : (gfDouble b).getLsbD 0 = b.getLsbD 7 ∧ (gfDouble b).getLsbD 1 = b.getLsbD 0 ∧
      (gfDouble b).getLsbD 2 = (b.getLsbD 1 ^^ b.getLsbD 7) ∧ (gfDouble b).getLsbD 3 = (b.getLsbD 2 ^^ b.getLsbD 7) ∧
      (gfDouble b).getLsbD 4 = (b.getLsbD 3 ^^ b.getLsbD 7) ∧ (gfDouble b).getLsbD 5 = b.getLsbD 4 ∧
      (gfDouble b).getLsbD 6 = b.getLsbD 5 ∧ (gfDouble b).getLsbD 7 = b.getLsbD 6 := by
    simp only [gfDouble_bit, BitVec.getLsbD_shiftLeft]
    simp
  obtain ⟨h0, h1, h2, h3, h4, h5, h6, h7⟩ := hbits
  rw [gfMul_eq_sum, gfMul_eq_sum, h0, h1, h2, h3, h4, h5, h6, h7]
  simp only [gfDouble_xor, gfDouble_gfIf, gfIf_xor, ← Function.iterate_succ_apply' gfDouble, Nat.succ_eq_add_one, Nat.reduceAdd]
  rw [gfDouble_eight, gfIf_of_xor, gfIf_of_xor, gfIf_of_xor, Function.iterate_zero_apply]
  ac_rfl

theorem gfMul_one (a : Byte) : gfMul a 1#8 = a := by
  revert a
  decide

theorem gfMul_gfPow (a : Byte) (p : Nat) : gfMul a (gfPow p) = gfDouble^[p] a := by
  induction p with
  | zero => exact gfMul_one a
  | succ p ih => rw [gfPow, gfMul_gfDouble, ih, Function.iterate_succ_apply']

/-- α^d = 1 for no d from 1 to 19. -/
theorem gfDouble_iterate_fixed (d : Fin 19) (a : Byte) (h : gfDouble^[d.val + 1] a = a) : a = 0#8 := by
  revert d a
  decide +kernel

theorem gfDouble_iterate_ne {p q : Nat} (hpq : p < q) (hq : q < 20) {a : Byte} (ha : a ≠ 0#8) : gfDouble^[p] a ≠ gfDouble^[q] a := by
  intro h
  obtain ⟨d, rfl⟩ := Nat.exists_eq_add_of_lt hpq
  rw [Nat.add_assoc, Function.iterate_add_apply] at h
  exact ha (gfDouble_iterate_fixed ⟨d, by omega⟩ a (gfDouble_injective.iterate p h).symm)

/-! ### Errors of one symbol -/

theorem syndrome_one (p j : Nat) (v : Byte) : syndrome [(p, v)] j = gfDouble^[(p * j) % 255] v := by
  simp [syndrome, gfMul_gfPow]

theorem syndromes_one_injective {p q : Nat} (hpq : p < q) (hq : q < 20) {v : Byte} (hv : v ≠ 0#8) :
    syndromes [(p, v)] ≠ syndromes [(q, v)] := by
  intro h
  have hone : syndrome [(p, v)] 1 = syndrome [(q, v)] 1 := by
    injection h with _ h
    injection h
  rw [syndrome_one, syndrome_one, Nat.mul_one, Nat.mul_one, Nat.mod_eq_of_lt (by omega), Nat.mod_eq_of_lt (by omega)] at hone
  exact gfDouble_iterate_ne hpq hq hv hone

theorem oneErr_syndromes_one (p q : Nat) {v : Byte} (hv : v ≠ 0#8) :
    oneErr (syndromes [(q, v)]) p = if syndromes [(p, v)] = syndromes [(q, v)] then some [(p, v)] else none := by
  have hzero : syndrome [(q, v)] 0 = v := by rw [syndrome_one]; rfl
  have hhead : syndromes [(q, v)] = v :: [syndrome [(q, v)] 1, syndrome [(q, v)] 2, syndrome [(q, v)] 3] := by rw [syndromes, hzero]
  rw [hhead]
  simp [oneErr, hv]

theorem leastErr_syndromes_one {q : Nat} (hq : q < 20) {v : Byte} (hv : v ≠ 0#8) :
    leastErr (syndromes [(q, v)]) = some [(q, v)] := by
  have hfind : (List.range 255).findSome? (oneErr (syndromes [(q, v)])) = some [(q, v)] := by
    refine List.findSome?_eq_some_iff.mpr ⟨List.range q, q, (List.range (254 - q)).map (q + 1 + ·), ?_, ?_, fun p hp => ?_⟩
    · have hlen : 255 = q + 1 + (254 - q) := by omega
      rw [hlen, List.range_add, List.range_succ]
      simp
    · rw [oneErr_syndromes_one q q hv, if_pos rfl]
    · rw [oneErr_syndromes_one p q hv, if_neg (syndromes_one_injective (List.mem_range.mp hp) hq hv)]
  rw [leastErr, hfind]

/-- Settles O32: a nonzero syndrome S_0, and the wrong symbol's position the first that explains all four. -/
theorem codeCorrectsOneStoredSymbol : Obligations.CodeCorrectsOneStoredSymbol := by
  intro j v hv
  have hdirty : (syndromes [(j.val, v)]).all (· == 0#8) = false := by
    have hzero : syndrome [(j.val, v)] 0 = v := by rw [syndrome_one]; rfl
    simp [syndromes, hzero, hv]
  have hj := j.isLt
  have hdata : decide (23 ≤ j.val) = false ∧ (j.val == 20) = false ∧ (j.val == 21) = false ∧ (j.val == 22) = false := by
    simp only [decide_eq_false_iff_not, beq_eq_false_iff_ne]
    omega
  obtain ⟨h23, h20, h21, h22⟩ := hdata
  simp [decode, hdirty, leastErr_syndromes_one hj hv, h23, h20, h21, h22]

end Machine
end Sys2Proof
end

section
/-! What the shared operations of the units leave unchanged: recorder updates, bytes written, alarm sources. -/
namespace Sys2Proof
namespace Machine

/-- A recorder update changes the recorder's queue, or counts itself as lost. -/
@[simp] theorem State.recPush_fields (s : State) (u : RecUpd) :
    (s.recPush u).threads = s.threads ∧ (s.recPush u).chans = s.chans ∧ (s.recPush u).mem = s.mem ∧ (s.recPush u).mode = s.mode ∧
    (s.recPush u).sp = s.sp ∧ (s.recPush u).sec = s.sec ∧ (s.recPush u).raised = s.raised ∧ (s.recPush u).fires = s.fires ∧
    (s.recPush u).frzTrig = s.frzTrig ∧ (s.recPush u).stands = s.stands ∧ (s.recPush u).ports = s.ports ∧ (s.recPush u).dbg = s.dbg ∧
    (s.recPush u).phase = s.phase ∧ (s.recPush u).kind = s.kind ∧ (s.recPush u).pool = s.pool ∧ (s.recPush u).links = s.links ∧
    (s.recPush u).svcs = s.svcs ∧ (s.recPush u).pins = s.pins := by
  rw [State.recPush_frame]
  exact ⟨rfl, rfl, rfl, rfl, rfl, rfl, rfl, rfl, rfl, rfl, rfl, rfl, rfl, rfl, rfl, rfl, rfl, rfl⟩
@[simp] theorem State.reg_recPush (s : State) (u : RecUpd) {a : Nat} (h : a ≠ rErQlost) : (s.recPush u).reg a = s.reg a :=
  s.recPush_regs u a h
@[simp] theorem State.reg_recBin (s : State) (unit metric index bin sev : Nat) {a : Nat} (h : a ≠ rErQlost) :
    (s.recBin unit metric index bin sev).reg a = s.reg a := s.recPush_regs _ a h
@[simp] theorem State.reg_recVal (s : State) (unit metric index v sev : Nat) {a : Nat} (h : a ≠ rErQlost) :
    (s.recVal unit metric index v sev).reg a = s.reg a := s.recPush_regs _ a h
theorem State.recBin_eq (s : State) (unit metric index bin sev : Nat) : s.recBin unit metric index bin sev =
    s.recPush { key := { unit := unit, metric := metric, index := index }, sev := sev, dat := .bin bin 1 } := rfl
theorem State.recVal_eq (s : State) (unit metric index v sev : Nat) : s.recVal unit metric index v sev =
    s.recPush { key := { unit := unit, metric := metric, index := index }, sev := sev, dat := .value v } := rfl

@[simp] theorem getElem_setBit (w : Word) (k b : Nat) (h : b < 32) : (setBit w k)[b] = (w[b] || decide (b = k)) := by
  rw [← BitVec.getLsbD_eq_getElem, getLsbD_setBit _ _ _ h, BitVec.getLsbD_eq_getElem]
@[simp] theorem getElem_clrBit (w : Word) (k b : Nat) (h : b < 32) : (clrBit w k)[b] = (w[b] && !decide (b = k)) := by
  rw [← BitVec.getLsbD_eq_getElem, getLsbD_clrBit _ _ _ h, BitVec.getLsbD_eq_getElem]
@[simp] theorem getElem_putBit (w : Word) (k b : Nat) (x : Bool) (h : b < 32) : (putBit w k x)[b] = if b = k then x else w[b] := by
  rw [← BitVec.getLsbD_eq_getElem, getLsbD_putBit _ _ _ _ h, BitVec.getLsbD_eq_getElem]

theorem State.byte_congr {s t : State} (h : t.mem = s.mem) (a : Nat) : t.byte a = s.byte a := by simp only [State.byte, h]

end Machine
end Sys2Proof
end

section
/-! THEOREM. O33: scrub grants check their row (R362, R367, R368), laps end and alarm (R369). -/
namespace Sys2Proof
namespace Machine

/-! ### Corrections -/

theorem fixByte_eq_xor (j : Nat) (e : ErrPat) : ∀ v : Byte, fixByte v j e = v ^^^ fixByte 0#8 j e := by
  induction e with
  | nil => exact fun v => BitVec.xor_zero.symm
  | cons p e ih =>
    intro v
    have hcons (u : Byte) : fixByte u j (p :: e) = fixByte (if p.1 = 4 + j then u ^^^ p.2 else u) j e := rfl
    rw [hcons, hcons, ih (ite ..), ih (ite (p.1 = 4 + j) (0#8 ^^^ p.2) _)]
    split <;> simp [BitVec.xor_assoc]
/-- A correction by the error itself gives the byte as it was written. -/
theorem fixByte_twice (v : Byte) (j : Nat) (e : ErrPat) : fixByte v j (e ++ e) = v := by
  have happend : fixByte v j (e ++ e) = fixByte (fixByte v j e) j e := by simp [fixByte]
  rw [happend, fixByte_eq_xor j e (fixByte v j e), fixByte_eq_xor j e v, BitVec.xor_assoc, BitVec.xor_self, BitVec.xor_zero]

/-! ### A word read -/

theorem State.rekey_none {s : State} (h : s.sp.under = none) (w : Nat) : s.rekey w = s := by simp only [State.rekey, h]

theorem State.readAt_clean {s : State} {w : Nat} {err : WordErr} (hkey : s.sp.under = none) (he : s.readErr w err = []) (lw : Nat)
    (f : Finder) : ∃ t, s.readAt w lw err f = (.clean, t) ∧ s.sameContents t := by
  have hread : s.readAt w lw err f = (.clean, (List.range 16).foldl
      (fun (t : State) j => t.setByte (16 * w + j) (t.byte (16 * w + j))) s) := by
    simp only [State.readAt, State.rekey_none hkey, he, decode_nil, State.spCount, fixByte, List.append_nil, List.foldl_nil]
  exact ⟨_, hread, State.sameContents_rewrite _ _ s⟩

theorem State.readAt_corr {s : State} {w : Nat} {err : WordErr} (hkey : s.sp.under = none)
    (he : decode (s.readErr w err) = (.corr, s.readErr w err)) (lw : Nat) (f : Finder) :
    ∃ t, s.readAt w lw err f = (.corr, t) ∧ (s.spCount lw .corr f).sameContents t := by
  have hread : s.readAt w lw err f = (.corr, (List.range 16).foldl
      (fun (t : State) j => t.setByte (16 * w + j) (t.byte (16 * w + j))) (s.spCount lw .corr f)) := by
    simp only [State.readAt, State.rekey_none hkey, he, fixByte_twice]
  exact ⟨_, hread, State.sameContents_rewrite _ _ _⟩

theorem State.readAt_uncorr {s : State} {w : Nat} {err : WordErr} (hkey : s.sp.under = none)
    (he : (decode (s.readErr w err)).1 = .uncorr) (lw : Nat) (f : Finder) :
    s.readAt w lw err f = (.uncorr, (s.spCount lw .uncorr f).setBad w true) := by
  simp only [State.readAt, State.rekey_none hkey, he]

/-! ### What a word found bad leaves -/

/-- The hard-fault tracker flags a row and records it, and moves nothing else. -/
theorem State.trackHard_cases (s : State) (row page bank : Nat) : ∃ track,
    s.trackHard row page bank = { s with sp := { s.sp with track := track } } ∨
    s.trackHard row page bank =
      (({ s with sp := { s.sp with track := track } } : State).recBin 0x08 0x02 page (bank / 2) 2).rset rSpStat 5 := by
  unfold State.trackHard
  dsimp only
  split
  · split
    · exact ⟨_, .inl rfl⟩
    · split
      · exact ⟨_, .inr rfl⟩
      · exact ⟨_, .inl rfl⟩
  · split
    · exact ⟨_, .inl rfl⟩
    · split
      · exact ⟨_, .inr rfl⟩
      · exact ⟨_, .inl rfl⟩

/-- A corrected word: counted and flagged, and the tracker met; no byte changes. -/
theorem State.checkWord_corr {s : State} {w : Nat} {err : WordErr} (hkey : s.sp.under = none)
    (he : decode (s.readErr w err) = (.corr, s.readErr w err)) (f : Finder) :
    (s.checkWord w err f).threads = s.threads ∧ (s.checkWord w err f).chans = s.chans ∧ (s.checkWord w err f).sp.scrub = s.sp.scrub ∧
    sameBytes s (s.checkWord w err f) (fun _ => False) ∧ ticked (s.reg rSpErrCnt) ((s.checkWord w err f).reg rSpErrCnt) 0 16 ∧
    ((s.checkWord w err f).reg rSpStat).getLsbD 0 = true ∧
    sameRegs s (s.checkWord w err f) (fun a => a = rSpErrCnt ∨ a = rSpStat ∨ a = rErQlost) := by
  obtain ⟨u, hread, hframe, hbytes⟩ := State.readAt_corr hkey he (s.logWord w) f
  have hcheck : s.checkWord w err f =
      u.trackHard (wordBank w * s.rowsN + s.physRow (wordBank w) (wordRow w)) (wordPage (s.logWord w)) (wordBank w) := by
    simp only [State.checkWord, hread, if_true]
  have hreg (a : Nat) : u.reg a = (s.spCount (s.logWord w) .corr f).reg a := State.reg_eq_of_regs_eq (by rw [hframe]) a
  have hthreads : u.threads = s.threads := by rw [hframe]; simp [State.spCount, State.recBin_eq]
  have hchans : u.chans = s.chans := by rw [hframe]; simp [State.spCount, State.recBin_eq]
  have hsp : u.sp = s.sp := by rw [hframe]; simp [State.spCount, State.recBin_eq]
  have hbyte (a : Nat) : u.byte a = s.byte a := (hbytes a).trans (State.byte_congr (by simp [State.spCount, State.recBin_eq]) a)
  have hcnt : ticked (s.reg rSpErrCnt) (u.reg rSpErrCnt) 0 16 := by
    rw [hreg]
    simpa (disch := decide) [State.spCount, rSpErrCnt, rSpStat, rSp, State.reg_recBin] using s.rcount_ticked rSpErrCnt 0 16 (by decide)
  have hstat : (u.reg rSpStat).getLsbD 0 = true := by
    rw [hreg]
    simp (disch := decide) [State.spCount]
  have hsame : sameRegs s u (fun a => a = rSpErrCnt ∨ a = rSpStat ∨ a = rErQlost) := by
    intro a ha
    simp only [not_or] at ha
    obtain ⟨h1, h2, h3⟩ := ha
    rw [hreg]
    simp [State.spCount, State.reg_recBin _ _ _ _ _ _ h3, h1, h2]
  rw [hcheck]
  generalize wordBank w * s.rowsN + s.physRow (wordBank w) (wordRow w) = row
  obtain ⟨track, h | h⟩ := u.trackHard_cases row (wordPage (s.logWord w)) (wordBank w)
  · rw [h]
    exact ⟨hthreads, hchans, by rw [← hsp], fun a _ => hbyte a, hcnt, hstat, hsame⟩
  · let u1 : State := { u with sp := { u.sp with track := track } }
    have h1 : u.trackHard row (wordPage (s.logWord w)) (wordBank w) =
        (u1.recBin 0x08 0x02 (wordPage (s.logWord w)) (wordBank w / 2) 2).rset rSpStat 5 := h
    rw [h1]
    have hreg1 {a : Nat} (ha : a ≠ rErQlost) : (u1.recBin 0x08 0x02 (wordPage (s.logWord w)) (wordBank w / 2) 2).reg a = u.reg a :=
      State.reg_recBin _ _ _ _ _ _ ha
    refine ⟨by simpa [State.recBin_eq] using hthreads, by simpa [State.recBin_eq] using hchans, by simp [State.recBin_eq, u1, hsp],
      fun a _ => (State.byte_congr (by simp [State.recBin_eq, u1]) a).trans (hbyte a), ?_, ?_, ?_⟩
    · rw [State.reg_rset, if_neg (by decide), hreg1 (by decide)]
      exact hcnt
    · rw [State.reg_rset, if_pos rfl, hreg1 (by decide)]
      simp [hstat]
    · intro a ha
      simp only [not_or] at ha
      obtain ⟨h1, h2, h3⟩ := ha
      rw [State.reg_rset, if_neg h2, hreg1 h3]
      exact hsame a (by simp [h1, h2, h3])

theorem State.spErrAddr_fields (s : State) (w kind : Nat) (maint : Bool) :
    (s.spErrAddr w kind maint).threads = s.threads ∧ (s.spErrAddr w kind maint).chans = s.chans ∧ (s.spErrAddr w kind maint).mem = s.mem ∧
    (s.spErrAddr w kind maint).sp = s.sp ∧ ∀ a, a ≠ rSpErrAddr → (s.spErrAddr w kind maint).reg a = s.reg a := by
  have hset (v : Word) : (s.setReg rSpErrAddr v).threads = s.threads ∧ (s.setReg rSpErrAddr v).chans = s.chans ∧
      (s.setReg rSpErrAddr v).mem = s.mem ∧ (s.setReg rSpErrAddr v).sp = s.sp ∧
      ∀ a, a ≠ rSpErrAddr → (s.setReg rSpErrAddr v).reg a = s.reg a := ⟨rfl, rfl, rfl, rfl, fun a ha => by simp [ha]⟩
  unfold State.spErrAddr
  split
  · exact hset _
  · exact hset _

/-- A word that the code gives up becomes a poisoned row with data 0 (R359). -/
theorem State.setBad_true {s : State} (hkey : s.sp.under = none) (w : Nat) :
    (s.setBad w true).threads = s.threads ∧ (s.setBad w true).chans = s.chans ∧ (s.setBad w true).regs = s.regs ∧
    (s.setBad w true).sp.scrub = s.sp.scrub ∧ (s.setBad w true).badAt w = true ∧
    (∀ a, 16 * w ≤ a → a < 16 * w + 16 → (s.setBad w true).byte a = 0#8) ∧
    sameBytes s (s.setBad w true) (fun a => 16 * w ≤ a ∧ a < 16 * w + 16) := by
  let s1 : State := { s with sp := { s.sp with bad := Bank.put (fun _ => false) s.sp.bad w true } }
  have hset : s.setBad w true = s1.writeLE (16 * w) 16 0 := by simp only [State.setBad, State.rekey_none hkey, if_true]; rfl
  rw [hset]
  refine ⟨by rw [State.writeLE_frame], by rw [State.writeLE_frame], by rw [State.writeLE_frame], by rw [State.writeLE_frame], ?_, ?_, ?_⟩
  · rw [State.writeLE_frame]
    simp [State.badAt, s1]
  · intro a hlo hhi
    obtain ⟨k, rfl⟩ := Nat.exists_eq_add_of_le hlo
    rw [State.byte_writeLE_same _ _ _ _ _ (by omega)]
    simp
  · intro a ha
    rw [State.byte_writeLE_other _ _ _ _ _ (by omega)]
    rfl

theorem State.checkWord_uncorr {s : State} {w : Nat} {err : WordErr} (hkey : s.sp.under = none)
    (he : (decode (s.readErr w err)).1 = .uncorr) (f : Finder) :
    (s.checkWord w err f).threads = s.threads ∧ (s.checkWord w err f).chans = s.chans ∧ (s.checkWord w err f).sp.scrub = s.sp.scrub ∧
    (∀ a, 16 * w ≤ a → a < 16 * w + 16 → (s.checkWord w err f).byte a = 0#8) ∧
    sameBytes s (s.checkWord w err f) (fun a => 16 * w ≤ a ∧ a < 16 * w + 16) ∧ (s.checkWord w err f).badAt w = true ∧
    ticked (s.reg rSpErrCnt) ((s.checkWord w err f).reg rSpErrCnt) 16 16 ∧ ((s.checkWord w err f).reg rSpStat).getLsbD 1 = true := by
  let u := s.spCount (s.logWord w) .uncorr f
  have hcheck : s.checkWord w err f = u.setBad w true := by
    simp only [State.checkWord, State.readAt_uncorr hkey he]
    rfl
  obtain ⟨ethreads, echans, emem, esp, ereg⟩ :=
    ((s.rcount rSpErrCnt 16 16 1).rset rSpStat 1).spErrAddr_fields (s.logWord w) 1 (decide (f ≠ .master))
  have husp : u.sp = s.sp := by simp only [u, State.spCount, State.recBin_eq, State.recPush_fields, esp, State.rset_sp, State.rcount_sp]
  have hreg {a : Nat} (h1 : a ≠ rErQlost) (h2 : a ≠ rSpErrAddr) : u.reg a = ((s.rcount rSpErrCnt 16 16 1).rset rSpStat 1).reg a :=
    (State.reg_recBin _ _ _ _ _ _ h1).trans (ereg a h2)
  obtain ⟨hthreads, hchans, hregs, hscrub, hbad, hzero, hother⟩ := State.setBad_true (s := u) (husp ▸ hkey) w
  have hbyte (a : Nat) : u.byte a = s.byte a := State.byte_congr (by simp only [u, State.spCount, State.recBin_eq, State.recPush_fields, emem, State.rset_mem, State.rcount_mem]) a
  rw [hcheck]
  refine ⟨?_, ?_,
    by rw [hscrub, husp], hzero, fun a ha => (hother a ha).trans (hbyte a), hbad, ?_, ?_⟩
  · rw [hthreads]
    simp only [u, State.spCount, State.recBin_eq, State.recPush_fields, ethreads, State.rset_threads, State.rcount_threads]
  · rw [hchans]
    simp only [u, State.spCount, State.recBin_eq, State.recPush_fields, echans, State.rset_chans, State.rcount_chans]
  · rw [State.reg_eq_of_regs_eq hregs, hreg (by decide) (by decide), State.reg_rset, if_neg (by decide)]
    exact s.rcount_ticked _ _ _ (by decide)
  · rw [State.reg_eq_of_regs_eq hregs, hreg (by decide) (by decide)]
    simp

/-! ### The commands -/

/-- The state of a scrub grant that has moved the bank's pointer on. -/
def State.scrubMoved (s : State) (b : Nat) : State :=
  { s with sp := { s.sp with scrub := Bank.put (fun _ => 0) s.sp.scrub b (s.scrubPtr b + 1) } }

theorem State.scrubPtr_of_moved {s t : State} {b : Nat} (h : t.sp.scrub = (s.scrubMoved b).sp.scrub) :
    t.scrubPtr b = s.scrubPtr b + 1 ∧ ∀ q, q ≠ b → t.scrubPtr q = s.scrubPtr q := by
  simp only [State.scrubPtr, h, State.scrubMoved]
  exact ⟨Bank.get_put_same _ _ _ _, fun q hq => Bank.get_put_other _ _ _ hq⟩

theorem exec_scrubLapEnd {s : State} (us : Word) (hrun : s.mode = .run) (h : ∀ q, q < 32 → s.rowsN ≤ s.scrubPtr q) :
    answers (.scrubLapEnd us) s fun t => t.reg rSpLapLast = us ∧ t.reg rSpLapNow = 0#32 ∧
      (t.reg rSpLapMax).toNat = max (s.reg rSpLapMax).toNat us.toNat ∧ (∀ q, t.scrubPtr q = 0) ∧ t.sp.lapAlarmed = false ∧ dataKept s t ∧
      sameRegs s t (fun a => a = rSpLapLast ∨ a = rSpLapNow ∨ a = rSpLapMax ∨ a = rErQlost) := by
  have hall : ((List.range 32).all fun b => decide (s.rowsN ≤ s.scrubPtr b)) = true := by simpa using h
  let s1 := s.setReg rSpLapLast us
  let s2 := if (s1.reg rSpLapMax).toNat < us.toNat then s1.setReg rSpLapMax us else s1
  let kept := (s2.sp.track.filter fun e => e.2.2).map fun e => (e.1, e.2.1, false)
  let s3 : State := { s2 with sp := { s2.sp with track := kept } }
  have hexec : exec (.scrubLapEnd us) s = .next (s3.lapStart.recVal 0x08 0x06 0 us.toNat 0) := by
    have hif : (decide (s.mode = .run) && (List.range 32).all fun b => decide (s.rowsN ≤ s.scrubPtr b)) = true := by simp [hrun, hall]
    show execScrubLapEnd us s = _
    unfold execScrubLapEnd
    rw [if_pos hif]
  have h2 : s2.threads = s.threads ∧ s2.chans = s.chans ∧ s2.mem = s.mem := by
    unfold s2
    split <;> exact ⟨rfl, rfl, rfl⟩
  have hreg {a : Nat} (h1 : a ≠ rErQlost) : (s3.lapStart.recVal 0x08 0x06 0 us.toNat 0).reg a =
      if a = rSpLapNow then 0#32 else s2.reg a := (State.reg_recVal _ _ _ _ _ _ h1).trans (State.reg_setReg ..)
  obtain ⟨hthreads, hchans, hmem⟩ := h2
  refine ⟨_, hexec, ?_, ?_, ?_, ?_, ?_, ⟨?_, ?_, ?_⟩, ?_⟩
  · rw [hreg (by decide), if_neg (by decide)]
    unfold s2
    split <;> simp [s1, rSpLapLast, rSpLapMax, rSp]
  · rw [hreg (by decide), if_pos rfl]
  · rw [hreg (by decide), if_neg (by decide)]
    have hmax : s1.reg rSpLapMax = s.reg rSpLapMax := by simp [s1, rSpLapLast, rSpLapMax, rSp]
    unfold s2
    rw [hmax]
    split
    · rw [State.reg_setReg, if_pos rfl]; omega
    · rw [hmax]; omega
  · intro q
    simp [State.scrubPtr, State.recVal_eq, State.lapStart, Bank.get]
  · simp [State.recVal_eq, State.lapStart]
  · simpa [State.recVal_eq, State.lapStart] using hthreads
  · simpa [State.recVal_eq, State.lapStart] using hchans
  · simpa [State.recVal_eq, State.lapStart] using hmem
  · intro a ha
    simp only [not_or] at ha
    obtain ⟨h1, h2, h3, h4⟩ := ha
    rw [hreg h4, if_neg h2]
    unfold s2
    split <;> simp [s1, h1, h3]

theorem exec_lapAlarm {s : State} (us : Word) (hrun : s.mode = .run) (hen : s.rbit rSpCfg 0 = true) (hlim : s.reg rSpLapAlarm ≠ 0#32)
    (hlt : (s.reg rSpLapAlarm).toNat < us.toNat) (hfirst : s.sp.lapAlarmed = false) : answers (.lapAlarm us) s fun t =>
      t.sp = { s.sp with lapAlarmed := true } ∧ (t.reg rSpStat).getLsbD 4 = true ∧ t.reg rSpLapNow = us ∧
      t.fires = (s.pulse 262).fires ∧ dataKept s t := by
  have hpos : 0 < (s.reg rSpLapAlarm).toNat := Nat.pos_of_ne_zero fun h => hlim (BitVec.eq_of_toNat_eq h)
  let s1 : State := { s with sp := { s.sp with lapAlarmed := true } }
  let s2 := (s1.setReg rSpLapNow us).rset rSpStat 4
  have hexec : exec (.lapAlarm us) s = .next ((s2.pulse 262).recBin 0x08 0x07 0 0 2) := by
    have hif : (decide (s.mode = .run) && s.rbit rSpCfg 0 && decide (0 < (s.reg rSpLapAlarm).toNat) &&
        decide ((s.reg rSpLapAlarm).toNat < us.toNat) && !s.sp.lapAlarmed) = true := by simp [hrun, hen, hpos, hlt, hfirst]
    show execLapAlarm us s = _
    unfold execLapAlarm
    dsimp only
    rw [if_pos hif]
  have hreg2 {a : Nat} (h1 : a ≠ rSpStat) (h2 : a ≠ rSpLapNow) : s2.reg a = s.reg a := by
    simp only [s2, State.reg_rset, if_neg h1, State.reg_setReg, if_neg h2]
    rfl
  have hroutes : s2.routesOf 262 = s.routesOf 262 :=
    State.routesOf_congr (fun a hlo hhi => hreg2 (by simp only [rSpStat, rSp]; omega) (by simp only [rSpLapNow, rSp]; omega)) (by decide)
  have hreg {a : Nat} (h : a ≠ rErQlost) : ((s2.pulse 262).recBin 0x08 0x07 0 0 2).reg a = s2.reg a := State.reg_recBin _ _ _ _ _ _ h
  refine ⟨_, hexec, by rw [State.recBin_eq]; simp [State.pulse, s2, s1], ?_, ?_, ?_, ⟨?_, ?_, ?_⟩⟩
  · rw [hreg (by decide)]
    simp [s2]
  · rw [hreg (by decide)]
    simp [s2, rSpStat, rSpLapNow, rSp]
  · rw [State.recBin_eq]
    simp only [State.recPush_fields, State.pulse, hroutes]
    rfl
  · rw [State.recBin_eq]; simp [State.pulse, s2, s1]
  · rw [State.recBin_eq]; simp [State.pulse, s2, s1]
  · rw [State.recBin_eq]; simp [State.pulse, s2, s1]

/-- Settles O33: the pointer moves and the row is checked, by its three outcomes; a lap ends and alarms. -/
theorem scrubChecksEveryRow : Obligations.ScrubChecksEveryRow := by
  intro s b row err us hrun hen hkey p w moved turn
  have hgrant (hrow : s.physRow b row = p) (hturn : turn) : exec (.scrubGrant b row err) s = .next
      (if s.underTest b p || s.scrubSkips (row / 8) then s.scrubMoved b else (s.scrubMoved b).checkWord w err .scrub) := by
    obtain ⟨hp, hlow, hidle, hrest, hcopy, hclr⟩ := hturn
    have hif : (decide (s.mode = .run) && s.rbit rSpCfg 0 && decide (s.scrubPtr b < s.rowsN) && decide (row.val < s.rowsN) &&
        decide (s.physRow b row = s.scrubPtr b) && s.bankIdle b && !s.restoreIn b && !s.copyIn b && !s.wclrIn b) = true := by
      simp [hrun, hen, hlow, hidle, hrest, hcopy, hclr, hrow, p, hp]
    show execScrubGrant b row err s = _
    unfold execScrubGrant
    dsimp only
    rw [if_pos hif]
    rfl
  have hchecked (hturn : turn) (hrow : s.physRow b row = p) (htest : s.underTest b p = false) (hskip : s.scrubSkips (row.val / 8) = false) :
      exec (.scrubGrant b row err) s = .next ((s.scrubMoved b).checkWord w err .scrub) := by
    rw [hgrant hrow hturn]
    simp [htest, hskip]
  refine ⟨fun hrow => ?_, fun hturn hrow hpass => ?_, fun hturn hrow htest hskip => ⟨fun he => ?_, fun he => ?_, fun he => ?_⟩,
    exec_scrubLapEnd us hrun, exec_lapAlarm us hrun hen⟩
  · refine ⟨s, ?_, rfl⟩
    show execScrubGrant b row err s = _
    unfold execScrubGrant
    dsimp only
    rw [if_neg]
    simp [p] at hrow
    simp [hrow]
  · rw [answers, hgrant hrow hturn]
    have hif : (s.underTest b p || s.scrubSkips (row.val / 8)) = true := by simpa using hpass
    rw [if_pos hif]
    obtain ⟨hmove, hother⟩ := State.scrubPtr_of_moved (s := s) (t := s.scrubMoved b) (b := b) rfl
    exact ⟨_, rfl, ⟨hmove, hother, rfl, rfl⟩, rfl, rfl⟩
  · obtain ⟨t, hread, hframe, hbytes⟩ := State.readAt_clean (s := s.scrubMoved b) hkey he ((s.scrubMoved b).logWord w) .scrub
    have hcheck : (s.scrubMoved b).checkWord w err .scrub = t := by simp [State.checkWord, hread]
    obtain ⟨hmove, hother⟩ := State.scrubPtr_of_moved (s := s) (t := t) (b := b) (by rw [hframe])
    refine ⟨t, by rw [hchecked hturn hrow htest hskip, hcheck], ⟨hmove, hother, ?_, ?_⟩, fun a _ => hbytes a, ?_, ?_⟩ <;> rw [hframe] <;> rfl
  · obtain ⟨hthreads, hchans, hscrub, hbytes, hcnt, hstat, hregs⟩ := State.checkWord_corr (s := s.scrubMoved b) hkey he .scrub
    obtain ⟨hmove, hother⟩ := State.scrubPtr_of_moved hscrub
    exact ⟨_, hchecked hturn hrow htest hskip, ⟨hmove, hother, hthreads, hchans⟩, hbytes, hcnt, hstat, hregs⟩
  · obtain ⟨hthreads, hchans, hscrub, hzero, hbytes, hbad, hcnt, hstat⟩ := State.checkWord_uncorr (s := s.scrubMoved b) hkey he .scrub
    obtain ⟨hmove, hother⟩ := State.scrubPtr_of_moved hscrub
    exact ⟨_, hchecked hturn hrow htest hskip, ⟨hmove, hother, hthreads, hchans⟩, hzero, hbytes, hbad, hcnt, hstat⟩

end Machine
end Sys2Proof
end

section
/-! THEOREM. O34: maintenance of the scratchpad is keyed (R366, R373, R375, R377–R380), and tests, word clears and copies complete (R367,
R370, R372, R375, R379). -/
namespace Sys2Proof
namespace Machine

/-! ### The keyed commands -/

theorem BitVec16_toNat_ne {key : BitVec 16} {n : Nat} (hn : n < 2 ^ 16) (h : key ≠ BitVec.ofNat 16 n) : key.toNat ≠ n := fun e =>
  h (BitVec.eq_of_toNat_eq (by rw [e, BitVec.toNat_ofNat, Nat.mod_eq_of_lt hn]))

/-- A refused retire command: its reason shown, and in two cases recorded. -/
theorem State.retRefuse_leaves (s : State) {reason : Nat} (hr : reason < 8) :
    ((s.retRefuse reason).reg rSpRetStat).getLsbD 2 = true ∧ fld ((s.retRefuse reason).reg rSpRetStat) 4 3 = reason ∧
    sameRegs s (s.retRefuse reason) (fun a => a = rSpRetStat ∨ a = rErQlost) ∧ (s.retRefuse reason).sp = s.sp ∧
    dataKept s (s.retRefuse reason) := by
  let s1 := (s.rset rSpRetStat 2).rsetFld rSpRetStat 4 3 reason
  have hreg : s1.reg rSpRetStat = setFld (setBit (s.reg rSpRetStat) 2) 4 3 reason := by simp [s1]
  have hbit : (s1.reg rSpRetStat).getLsbD 2 = true := by
    rw [hreg, getLsbD_setFld _ _ _ _ _ (by decide)]
    simp
  have hfld : fld (s1.reg rSpRetStat) 4 3 = reason := by
    rw [hreg, fld_setFld_same _ _ _ _ (by decide)]
    exact Nat.mod_eq_of_lt hr
  have hsame : sameRegs s s1 (fun a => a = rSpRetStat) := fun a ha => by simp [s1, ha]
  have hrecorded (bin : Nat) : ((s1.recBin 0x08 0x09 0 bin 3).reg rSpRetStat).getLsbD 2 = true ∧
      fld ((s1.recBin 0x08 0x09 0 bin 3).reg rSpRetStat) 4 3 = reason ∧
      sameRegs s (s1.recBin 0x08 0x09 0 bin 3) (fun a => a = rSpRetStat ∨ a = rErQlost) ∧ (s1.recBin 0x08 0x09 0 bin 3).sp = s.sp ∧
      dataKept s (s1.recBin 0x08 0x09 0 bin 3) := by
    rw [State.reg_recBin _ _ _ _ _ _ (by decide)]
    refine ⟨hbit, hfld, fun a ha => ?_, by simp [State.recBin_eq, s1], by simp [State.recBin_eq, dataKept, s1]⟩
    rw [not_or] at ha
    rw [State.reg_recBin _ _ _ _ _ _ ha.2, hsame a ha.1]
  unfold State.retRefuse
  dsimp only
  split
  · exact hrecorded 0
  · split
    · exact hrecorded 1
    · exact ⟨hbit, hfld, fun a ha => hsame a fun h => ha (.inl h), rfl, rfl, rfl, rfl⟩

theorem rSpRet_ne_rSpRetStat (e : Nat) : rSpRet e ≠ rSpRetStat := by simp only [rSpRet, rSpRetStat, rSp]; omega
theorem rSpSpareBad_ne_rSpRet {i : Nat} (hi : i < 2) (e : Nat) : rSpSpareBad i ≠ rSpRet e := by
  simp only [rSpSpareBad, rSpRet, rSp]; omega
theorem rSpSpareBad_ne_rSpRetStat (i : Nat) : rSpSpareBad i ≠ rSpRetStat := by simp only [rSpSpareBad, rSpRetStat, rSp]; omega

theorem State.copyBegin_leaves (s : State) (e page d src : Nat) :
    (s.copyBegin e page d src).sp = { s.sp with copy := some e, copyFrom := src, copied := 0 } ∧
    (s.copyBegin e page d src).reg (rSpRet e) = BitVec.ofNat 32 (page + d * 2 ^ 10 + 2 ^ 31) ∧ dataKept s (s.copyBegin e page d src) ∧
    sameRegs s (s.copyBegin e page d src) (fun a => a = rSpRet e ∨ a = rSpRetStat) := by
  obtain ⟨v, hv⟩ : ∃ v, BitVec.ofNat 32 (page + d * 2 ^ 10 + 2 ^ 31) = v := ⟨_, rfl⟩
  let s1 := (s.setReg (rSpRet e) v).rsetFld rSpRetStat 24 8 0
  have hbegin : s.copyBegin e page d src = { s1 with sp := { s.sp with copy := some e, copyFrom := src, copied := 0 } } := by
    simp only [State.copyBegin, hv]
    rfl
  have hreg {a : Nat} : s1.reg a = if a = rSpRetStat then setFld ((s.setReg (rSpRet e) v).reg rSpRetStat) 24 8 0 else
      if a = rSpRet e then v else s.reg a := by simp [s1]
  rw [hbegin, hv]
  refine ⟨rfl, ?_, ⟨rfl, rfl, rfl⟩, fun a ha => ?_⟩
  · exact hreg.trans (by rw [if_neg (rSpRet_ne_rSpRetStat e), if_pos rfl])
  · rw [not_or] at ha
    exact hreg.trans (by rw [if_neg ha.2, if_neg ha.1])

theorem fld_lt_two_of_six (w : Word) : fld w 10 6 / 32 < 2 := by
  have := fld_lt w 10 6
  omega

theorem State.ttBegin_free {s : State} {b k : Nat} (hb : b < 32) (hk : k < 128) (h : s.copyInRegion b k = false) :
    (s.ttBegin b k).sp = { s.sp with ttStep := 2 } ∧ fld ((s.ttBegin b k).reg rSpTtStat) 3 5 = b ∧
    fld ((s.ttBegin b k).reg rSpTtStat) 8 7 = k ∧ sameRegs s (s.ttBegin b k) (fun a => a = rSpTtStat) ∧ dataKept s (s.ttBegin b k) := by
  let v := setFld (setFld (s.reg rSpTtStat) 3 5 b) 8 7 k
  have hbegin : s.ttBegin b k = { s.setReg rSpTtStat v with sp := { s.sp with ttStep := 2 } } := by
    simp only [State.ttBegin, h, Bool.false_eq_true, if_false]
    rfl
  have hv : (s.setReg rSpTtStat v).reg rSpTtStat = v := by simp
  rw [hbegin]
  refine ⟨rfl, ?_, ?_, fun a ha => (show (s.setReg rSpTtStat v).reg a = s.reg a by simp [ha]), rfl, rfl, rfl⟩
  · show fld ((s.setReg rSpTtStat v).reg rSpTtStat) 3 5 = b
    rw [hv, fld_setFld_other _ _ _ _ _ _ (by decide) (by decide), fld_setFld_same _ _ _ _ (by decide)]
    exact Nat.mod_eq_of_lt hb
  · show fld ((s.setReg rSpTtStat v).reg rSpTtStat) 8 7 = k
    rw [hv, fld_setFld_same _ _ _ _ (by decide)]
    exact Nat.mod_eq_of_lt hk

/-! ### The end of a region's test -/

theorem exec_testRegionDone_clean {s : State} (hrun : s.mode = .run) (hidle : s.bankIdle (s.rfld rSpTtStat 3 5) = true)
    (hstep : s.sp.ttStep = 4 ∨ 2 ≤ s.sp.ttStep ∧ s.copyIn (s.rfld rSpTtStat 3 5) = false ∧ s.wclrIn (s.rfld rSpTtStat 3 5) = false)
    (hwalk : s.sp.walk = false) {march : List (Fin 64 × Fin 8192 × List (BitVec 160))}
    (hmarch : march.all (fun r => s.ttRow r.1 r.2.1) = true) {u : State}
    (hu : s.ttFail ((march.filter (fun r => marchFails r.2.2)).map (fun r => (r.1, r.2.1))) = u) (hpois : u.ttPoisoned [] = [])
    (hsp : u.sp = s.sp) :
    exec (.testRegionDone march []) s = .next { u.rset rSpTtStat 19 with sp := { s.sp with ttStep := 0 } } := by
  have hstep2 : 2 ≤ s.sp.ttStep := by omega
  have hfree : (decide (s.sp.ttStep = 4) || (!s.copyIn (s.rfld rSpTtStat 3 5) && !s.wclrIn (s.rfld rSpTtStat 3 5))) = true := by
    rcases hstep with h | ⟨-, hc, hw⟩
    · simp [h]
    · simp [hc, hw]
  have hrest : u.ttRestore [] = u := by simp [State.ttRestore, hpois]
  show execTestRegionDone march [] s = _
  unfold execTestRegionDone
  dsimp only
  rw [if_pos (by simp [hrun, hstep2, hidle, hfree, hmarch]), hu, hrest]
  rw [if_neg (by simp [hsp, hwalk])]
  simp only [State.rset_sp, hsp]

/-- A row that the march finds failing is recorded; the region under test is the same. -/
theorem State.ttFail_one (s : State) (off : Fin 64) (row : Fin 8192) :
    (s.ttFail [(off, row)]).sp = s.sp ∧ (s.ttFail [(off, row)]).kind = s.kind ∧ dataKept s (s.ttFail [(off, row)]) ∧
    (s.ttFail [(off, row)]).reg rSpTtStat = setBit (s.reg rSpTtStat) 16 ∧
    (s.ttFail [(off, row)]).reg rSpTtRes = setFld (setFld (setFld (satFld (s.reg rSpTtRes) 24 8 1) 0 6 off) 8 5 (s.rfld rSpTtStat 3 5)) 16 7
      (s.rfld rSpTtStat 8 7) := by
  simp only [State.ttFail, List.foldl_cons, List.foldl_nil]
  refine ⟨by simp [State.recBin_eq], by simp [State.recBin_eq], by simp [State.recBin_eq, dataKept], ?_, ?_⟩
  · rw [State.reg_recBin _ _ _ _ _ _ (by decide)]
    simp [rSpTtStat, rSpTtRes, rSp]
  · rw [State.reg_recBin _ _ _ _ _ _ (by decide)]
    simp [rSpTtStat, rSpTtRes, rSp]

theorem fld_setBit_other (w : Word) {k lo n : Nat} (hk : k < lo ∨ lo + n ≤ k) (h : lo + n ≤ 32) : fld (setBit w k) lo n = fld w lo n := by
  apply Nat.eq_of_testBit_eq
  intro b
  rw [testBit_fld, testBit_fld]
  by_cases hb : b < n
  · rw [getLsbD_setBit _ _ _ (by omega), decide_eq_false (by omega : ¬ lo + b = k), Bool.or_false]
  · simp [hb]

theorem State.ttPoisoned_congr {s t : State} (hsp : t.sp = s.sp) (hkind : t.kind = s.kind)
    (hb : t.rfld rSpTtStat 3 5 = s.rfld rSpTtStat 3 5) (hk : t.rfld rSpTtStat 8 7 = s.rfld rSpTtStat 8 7) :
    t.ttPoisoned [] = s.ttPoisoned [] := by
  simp only [State.ttPoisoned, hsp, hb, hk, State.physRow, State.rowsN, hkind]
  rfl

/-! ### A word cleared and a page copied -/

theorem State.setBad_false {s : State} (hkey : s.sp.under = none) (w : Nat) :
    s.setBad w false = { s with sp := { s.sp with bad := Bank.put (fun _ => false) s.sp.bad w false } } := by
  simp only [State.setBad, State.rekey_none hkey, Bool.false_eq_true, if_false]

/-- Bytes written as they were read elsewhere. -/
theorem State.ofNat_readLE_div (s : State) (n : Nat) : ∀ a k, k < n → BitVec.ofNat 8 (s.readLE a n / 256 ^ k) = s.byte (a + k) := by
  induction n with
  | zero => intro a k hk; omega
  | succ n ih =>
    intro a k hk
    cases k with
    | zero =>
      apply BitVec.eq_of_toNat_eq
      have := (s.byte a).isLt
      simp only [State.readLE, Nat.pow_zero, Nat.div_one, BitVec.toNat_ofNat, Nat.add_zero]
      omega
    | succ k =>
      have hdiv : s.readLE a (n + 1) / 256 ^ (k + 1) = s.readLE (a + 1) n / 256 ^ k := by
        have hbyte : (s.byte a).toNat < 256 := (s.byte a).isLt
        rw [State.readLE, Nat.pow_succ', ← Nat.div_div_eq_div_mul, Nat.add_mul_div_left _ _ (by decide), Nat.div_eq_of_lt hbyte, Nat.zero_add]
      rw [hdiv, ih (a + 1) k (by omega), Nat.add_assoc, Nat.add_comm 1]

theorem State.copyGrant_clean {s : State} {e : Nat} (hkey : s.sp.under = none) (hbad : s.badAt (s.copySrc s.sp.copied) = false) :
    s.copyGrant e [] = { s with
      mem := (s.copyGrant e []).mem,
      sp := { s.sp with bad := (s.copyGrant e []).sp.bad, copied := s.sp.copied + 1 } } ∧
    (∀ w, w ≠ s.copyDst e s.sp.copied → (s.copyGrant e []).badAt w = s.badAt w) ∧
    (∀ j, j < 16 → (s.copyGrant e []).byte (16 * s.copyDst e s.sp.copied + j) = s.byte (16 * s.copySrc s.sp.copied + j)) ∧
    sameBytes s (s.copyGrant e []) (fun a => 16 * s.copyDst e s.sp.copied ≤ a ∧ a < 16 * s.copyDst e s.sp.copied + 16) := by
  have herr : s.readErr (s.copySrc s.sp.copied) [] = [] := by simp [State.readErr, hbad]
  obtain ⟨u, hread, hframe, hbytes⟩ := State.readAt_clean hkey herr (s.logWord (s.copyDst e s.sp.copied)) .copy
  have hukey : u.sp.under = none := by rw [hframe]; exact hkey
  have husp : u.sp = s.sp := by rw [hframe]
  let dst := s.copyDst e s.sp.copied
  let u1 : State := { u with sp := { u.sp with bad := Bank.put (fun _ => false) u.sp.bad dst false } }
  let u2 := u1.writeLE (16 * dst) 16 (u.readLE (16 * s.copySrc s.sp.copied) 16)
  have hgrant : s.copyGrant e [] = { u2 with sp := { u2.sp with copied := s.sp.copied + 1 } } := by
    simp only [State.copyGrant, hread, SpOut.good, decide_true, Bool.true_or, if_true, State.setBad_false hukey]
    rfl
  have hu2 : u2 = { u1 with mem := u2.mem } := State.writeLE_frame _ _ _ _
  have hbyte (a : Nat) : (s.copyGrant e []).byte a = u2.byte a := State.byte_congr (by rw [hgrant]) a
  refine ⟨?_, fun w hw => ?_, fun j hj => ?_, fun a ha => ?_⟩
  · rw [hgrant, hu2]
    simp only [u1, husp]
    rw [hframe]
  · have hsp : (s.copyGrant e []).sp.bad = Bank.put (fun _ => false) s.sp.bad dst false := by
      rw [hgrant, hu2]
      simp only [u1, husp]
    rw [State.badAt, hsp, Bank.get_put_other _ _ _ hw]
    rfl
  · rw [hbyte, State.byte_writeLE_same _ _ _ _ _ hj, State.ofNat_readLE_div _ _ _ _ hj, hbytes]
  · rw [hbyte, State.byte_writeLE_other _ _ _ _ _ (by omega)]
    exact hbytes a

/-- The words left over of a page that its source's code delivers clean come to the spare page. -/
theorem State.copyRest_clean {e : Nat} : ∀ (n : Nat) {s : State}, s.sp.under = none → s.retDst e ≠ s.sp.copyFrom → s.sp.copied + n ≤ 256 →
    (∀ i, s.sp.copied ≤ i → i < s.sp.copied + n → s.badAt (s.copySrc i) = false) →
    s.copyRest e [] n = { s with
      mem := (s.copyRest e [] n).mem,
      sp := { s.sp with bad := (s.copyRest e [] n).sp.bad, copied := s.sp.copied + n } } ∧
    (∀ i j, s.sp.copied ≤ i → i < s.sp.copied + n → j < 16 →
      (s.copyRest e [] n).byte (16 * s.copyDst e i + j) = s.byte (16 * s.copySrc i + j)) ∧
    sameBytes s (s.copyRest e [] n) (fun a => 16 * s.copyDst e s.sp.copied ≤ a ∧ a < 16 * s.copyDst e (s.sp.copied + n))
  | 0, s, _, _, _, _ => ⟨rfl, fun i j h1 h2 => by omega, fun a _ => rfl⟩
  | n + 1, s, hkey, hpage, hlen, hbad => by
    obtain ⟨hframe, hother, hdata, hsame⟩ := State.copyGrant_clean (e := e) hkey (hbad s.sp.copied (by omega) (by omega))
    have hrest : s.copyRest e [] (n + 1) = (s.copyGrant e []).copyRest e [] n := rfl
    rw [hrest]
    generalize s.copyGrant e [] = u at *
    have hcopied : u.sp.copied = s.sp.copied + 1 := by rw [hframe]
    have hfrom : u.sp.copyFrom = s.sp.copyFrom := by rw [hframe]
    have hdst (i : Nat) : u.copyDst e i = s.copyDst e i := by rw [hframe]; rfl
    have hsrc (i : Nat) : u.copySrc i = s.copySrc i := by rw [hframe]; rfl
    have hret : u.retDst e = s.retDst e := by rw [hframe]; rfl
    have hapart {i j : Nat} (hi : i < 256) (hj : j < 256) : s.copySrc i ≠ s.copyDst e j := by
      simp only [State.copySrc, State.copyDst]
      omega
    obtain ⟨kframe, kdata, ksame⟩ := State.copyRest_clean (e := e) n (s := u) (by rw [hframe]; exact hkey) (by rw [hret, hfrom]; exact hpage)
      (by omega) (fun i h1 h2 => by rw [hsrc, hother _ (hapart (by omega) (by omega))]; exact hbad i (by omega) (by omega))
    simp only [hcopied, hdst, hsrc] at kdata ksame
    have hadd : s.sp.copied + 1 + n = s.sp.copied + (n + 1) := by omega
    refine ⟨?_, fun i j h1 h2 hj => ?_, fun a ha => ?_⟩
    · rw [kframe, hframe]
      simp only [hadd]
    · by_cases hi : i = s.sp.copied
      · subst hi
        rw [ksame, hdata j hj]
        simp only [State.copyDst]
        omega
      · rw [kdata i j (by omega) (by omega) hj, hsame]
        have := hapart (i := i) (j := s.sp.copied) (by omega) (by omega)
        omega
    · rw [ksame a (by simp only [State.copyDst] at ha ⊢; omega), hsame a (by simp only [State.copyDst] at ha ⊢; omega)]

theorem exec_wordClearDone {s : State} {u : Nat} (hrun : s.mode = .run) (hkey : s.sp.under = none) (hclr : s.sp.wclr = some u)
    (hidle : s.bankIdle (wordBank u) = true) (hrest : s.restoreIn (wordBank u) = false) (hcopy : s.copyIn (wordBank u) = false) :
    answers .wordClearDone s fun t =>
      (∀ a, 16 * s.home u ≤ a → a < 16 * s.home u + 16 → t.byte a = 0#8) ∧
      sameBytes s t (fun a => 16 * s.home u ≤ a ∧ a < 16 * s.home u + 16) ∧ t.badAt (s.home u) = false ∧ t.sp.wclr = none ∧
      (t.reg rSpStat).getLsbD 8 = true ∧ sameRegs s t (fun a => a = rSpStat) := by
  let s1 : State := { s with sp := { s.sp with wclr := none, bad := Bank.put (fun _ => false) s.sp.bad (s.home u) false } }
  let s2 := s1.writeLE (16 * s.home u) 16 0
  have hexec : exec .wordClearDone s = .next (s2.rset rSpStat 8) := by
    have hzero : ({ s with sp := { s.sp with wclr := none } } : State).wordZero u = s2 := by
      rw [State.wordZero, State.setBad_false (by exact hkey)]
      rfl
    show execWordClearDone s = _
    simp only [execWordClearDone, hclr]
    rw [if_pos (by simp [hrun, hidle, hrest, hcopy]), hzero]
  have hs2 : s2 = { s1 with mem := s2.mem } := State.writeLE_frame _ _ _ _
  have hreg (a : Nat) : s2.reg a = s.reg a := State.reg_eq_of_regs_eq (by rw [hs2]) a
  refine ⟨_, hexec, fun a hlo hhi => ?_, fun a ha => ?_, ?_, by rw [State.rset_sp, hs2], by simp [hreg], fun a ha => by simp [ha, hreg]⟩
  · obtain ⟨k, rfl⟩ := Nat.exists_eq_add_of_le hlo
    rw [State.byte_rset, State.byte_writeLE_same _ _ _ _ _ (by omega)]
    simp
  · rw [State.byte_rset, State.byte_writeLE_other _ _ _ _ _ (by omega)]
    rfl
  · rw [State.badAt, State.rset_sp, hs2]
    exact Bank.get_put_same (fun _ => false) s.sp.bad (s.home u) false

theorem exec_retireCopyDone {s : State} {e : Nat} (hrun : s.mode = .run) (hkey : s.sp.under = none) (hcopy : s.sp.copy = some e)
    (hlen : s.sp.copied ≤ 256) (hpage : s.retDst e ≠ s.sp.copyFrom)
    (hcan : ∀ i, s.sp.copied ≤ i → i < 256 → s.copyCan e i = true ∧ s.badAt (s.copySrc i) = false) :
    answers (.retireCopyDone []) s fun t =>
      (∀ i j, s.sp.copied ≤ i → i < 256 → j < 16 → t.byte (16 * s.copyDst e i + j) = s.byte (16 * s.copySrc i + j)) ∧
      sameBytes s t (fun a => 16 * s.copyDst e s.sp.copied ≤ a ∧ a < 16 * s.copyDst e 256) ∧ t.sp.copy = none ∧
      (t.reg rSpRetStat).getLsbD 1 = true ∧ t.threads = s.threads ∧ t.chans = s.chans ∧
      sameRegs s t (fun a => a = rSpRetStat ∨ a = rErQlost) := by
  have hsum : s.sp.copied + (256 - s.sp.copied) = 256 := by omega
  obtain ⟨hframe, hdata, hsame⟩ := State.copyRest_clean (e := e) (256 - s.sp.copied) hkey hpage (by omega)
    fun i h1 h2 => (hcan i h1 (by omega)).2
  rw [hsum] at hdata hsame
  have hall : ((List.range (256 - s.sp.copied)).all fun j => s.copyCan e (s.sp.copied + j)) = true := by
    rw [List.all_eq_true]
    intro j hj
    exact (hcan _ (by omega) (by have := List.mem_range.mp hj; omega)).1
  generalize hu : s.copyRest e [] (256 - s.sp.copied) = u at *
  let u1 := (u.rset rSpRetStat 1).recBin 0x08 0x08 0 (e / 4) 1
  have hexec : exec (.retireCopyDone []) s = .next { u1 with sp := { u1.sp with
      copy := none, ttStep := if u1.sp.ttStep = 1 then 2 else u1.sp.ttStep } } := by
    show execRetireCopyDone [] s = _
    simp only [execRetireCopyDone, hcopy]
    rw [if_pos (by simp only [hrun, hall, decide_true, Bool.and_self]), hu]
  have hreg {a : Nat} (ha : a ≠ rErQlost) : u1.reg a = if a = rSpRetStat then setBit (s.reg rSpRetStat) 1 else s.reg a := by
    have hu (a : Nat) : u.reg a = s.reg a := State.reg_eq_of_regs_eq (by rw [hframe]) a
    rw [State.reg_recBin _ _ _ _ _ _ ha, State.reg_rset, hu, hu]
  have hbyte (a : Nat) : u1.byte a = u.byte a := State.byte_congr (by simp [u1, State.recBin_eq]) a
  refine ⟨_, hexec, fun i j h1 h2 hj => (hbyte _).trans (hdata i j h1 h2 hj), fun a ha => (hbyte a).trans (hsame a ha), rfl, ?_, ?_, ?_,
    fun a ha => ?_⟩
  · exact (congrArg (BitVec.getLsbD · 1) (hreg (by decide))).trans (by simp)
  · show u1.threads = s.threads
    simp only [u1, State.recBin_eq, State.recPush_fields, State.rset_threads]
    rw [hframe]
  · show u1.chans = s.chans
    simp only [u1, State.recBin_eq, State.recPush_fields, State.rset_chans]
    rw [hframe]
  · rw [not_or] at ha
    exact (hreg ha.2).trans (if_neg ha.1)

/-! ### RETIRE by a maintenance writer -/

section
variable {s : State} {m : Master} {page : Fin 1024}

/-- A keyed command on a page that may be retired comes to the entries and the spare pages. -/
theorem State.retirePage_keyed (hwho : s.maint m = true) (hkind : s.kind = .veteran) (hpage : page.val < s.poolPage)
    (hcopy : s.sp.copy = none) {old free : Option Nat}
    (ho : s.retEntries.find? (fun e => decide (s.rfld (rSpRet e) 0 10 = page)) = old)
    (hf : (List.range 64).find? (fun i => !s.rbit (rSpRet i) 31) = free) :
    (old = none → free = none → s.retirePage m 0x9E71 1 page = s.retRefuse 2) ∧
    ((old).isSome = true ∨ free.isSome = true → s.freeSpares = [] →
      s.retirePage m 0x9E71 1 page = s.retRefuse 3) ∧
    (∀ e d l, old = none → free = some e → s.freeSpares = d :: l →
      s.retirePage m 0x9E71 1 page = s.copyBegin e page d page) ∧
    (∀ e d l, old = some e → s.freeSpares = d :: l → s.retirePage m 0x9E71 1 page =
      (s.rset (rSpSpareBad (s.rfld (rSpRet e) 10 6 / 32)) (s.rfld (rSpRet e) 10 6 % 32)).copyBegin e page d
        (s.poolPage + s.rfld (rSpRet e) 10 6)) := by
  have hbelow : ¬ s.poolPage ≤ page.val := by omega
  unfold State.retirePage
  simp only [hwho, hkind, hbelow, hcopy, Bool.not_true, Bool.false_eq_true, ne_eq, not_true_eq_false, or_self, if_false, Option.isSome_none]
  rw [ho, hf]
  refine ⟨fun hold hfree => ?_, fun hsome hspare => ?_, fun e d l hold hfree hspare => ?_, fun e d l hold hspare => ?_⟩
  · rw [hold, hfree]
  · rw [hspare]
    cases old with
    | some e => rfl
    | none =>
      obtain ⟨e, he⟩ := Option.isSome_iff_exists.mp (hsome.resolve_left (by simp))
      rw [he]
  · rw [hold, hfree, hspare]
  · rw [hold, hspare]

theorem State.rset_copyBegin_leaves (e d : Nat) :
    let was := s.rfld (rSpRet e) 10 6
    let t := (s.rset (rSpSpareBad (was / 32)) (was % 32)).copyBegin e page d (s.poolPage + was)
    t.sp = { s.sp with copy := some e, copyFrom := s.poolPage + was, copied := 0 } ∧
    t.reg (rSpRet e) = BitVec.ofNat 32 (page.val + d * 2 ^ 10 + 2 ^ 31) ∧ dataKept s t ∧
    (t.reg (rSpSpareBad (was / 32))).getLsbD (was % 32) = true ∧
    sameRegs s t (fun a => a = rSpRet e ∨ a = rSpRetStat ∨ a = rSpSpareBad (was / 32)) := by
  intro was t
  obtain ⟨hsp, hret, hdata, hregs⟩ := (s.rset (rSpSpareBad (was / 32)) (was % 32)).copyBegin_leaves e page d (s.poolPage + was)
  have hidx : was / 32 < 2 := fld_lt_two_of_six _
  refine ⟨hsp, hret, hdata, ?_, fun a ha => ?_⟩
  · rw [hregs _ (not_or.mpr ⟨rSpSpareBad_ne_rSpRet hidx e, rSpSpareBad_ne_rSpRetStat _⟩), State.reg_rset, if_pos rfl,
      getLsbD_setBit _ _ _ (Nat.mod_lt _ (by decide))]
    simp
  · simp only [not_or] at ha
    rw [hregs a (by simp [ha]), State.reg_rset, if_neg ha.2.2]

end

theorem exec_retire {s : State} {m : Master} (hm : s.mode ≠ .halted) {page : Fin 1024} (key : BitVec 16) (cmd : Fin 16) {t : State}
    (ht : s.retirePage m key.toNat cmd page = t) {P : State → Prop} (hP : P t) : answers (.retire m key cmd page) s P :=
  answers_of_gated hm (t := s.retirePage m key.toNat cmd page) rfl (ht ▸ hP)

/-- Settles O34: the refusals, then what each keyed command does, then the ends of a test, a word clear and a copy. -/
theorem scratchpadMaintenanceIsKeyed : Obligations.ScratchpadMaintenanceIsKeyed := by
  intro s m key k8 cmd b k w page hm refused
  refine ⟨fun hwho => ?_, fun hwho => ⟨fun hkey => ?_, fun hbusy => ?_, fun hidle hk hreg => ?_, ?_, fun hbad => ?_, fun hfree hw => ?_,
    fun hbad => ?_, fun hkind => ?_, fun hkind => ⟨fun hpage => ?_, fun hpage hcopy => ?_, fun hpage hcopy => ?_⟩⟩,
    fun hrun hidle hstep hwalk hpois => ⟨?_, fun off row reads hrow hreads => ?_⟩,
    fun u hrun hkey hclr hidle hrest hcopy => exec_wordClearDone hrun hkey hclr hidle hrest hcopy,
    fun e hrun hkey hcopy hlen hpage hcan => exec_retireCopyDone hrun hkey hcopy hlen hpage hcan⟩
  · exact ⟨answers_of_gated hm rfl (by simp [State.ttStart, hwho]), answers_of_gated hm rfl (by simp [State.ttStop, hwho]),
      answers_of_gated hm rfl (by simp [State.wclr, hwho]), answers_of_gated hm rfl (by simp [State.retirePage, hwho])⟩
  · have hne := BitVec16_toNat_ne (n := 0x7E57) (by decide) hkey
    exact ⟨answers_of_gated hm rfl (by simp [State.ttStart, hwho, hne]), answers_of_gated hm rfl (by simp [State.ttStop, hwho, hne])⟩
  · exact answers_of_gated hm rfl (by simp [State.ttStart, hwho, hbusy])
  · have hstart : s.ttStart m (0x7E57#16).toNat b k = s.ttBegin b k := by simp [State.ttStart, hwho, hidle, hk]
    exact answers_of_gated hm (congrArg (fun t => Host.Outcome.next (s.gated t)) hstart) (State.ttBegin_free b.isLt k.isLt hreg)
  · exact answers_of_gated hm rfl (by simp [State.ttStop, hwho])
  · have hrefuse : k8.toNat ≠ 0xC7 ∨ s.sp.wclr.isSome = true ∨ s.spLimit ≤ 16 * w.val :=
      hbad.imp (fun h e => h (BitVec.eq_of_toNat_eq e)) (Or.imp_left Option.isSome_iff_ne_none.mpr)
    exact answers_of_gated hm rfl (by simp only [State.wclr, hwho, Bool.not_true, Bool.false_eq_true, if_false, if_pos hrefuse])
  · exact answers_of_gated hm rfl (by simp [State.wclr, hwho, hfree, hw])
  · have hrefuse : key.toNat ≠ 0x9E71 ∨ cmd.val ≠ 1 := hbad.imp_left (BitVec16_toNat_ne (by decide))
    exact exec_retire hm key cmd (by rw [State.retirePage, if_neg (by simp [hwho]), if_pos hrefuse]) (s.retRefuse_leaves (by decide))
  · exact exec_retire hm _ 1 (t := s.retRefuse 1) (by simp [State.retirePage, hwho, hkind]) (s.retRefuse_leaves (by decide))
  · exact exec_retire hm _ 1 (t := s.retRefuse 4) (by simp [State.retirePage, hwho, hkind, hpage]) (s.retRefuse_leaves (by decide))
  · exact exec_retire hm _ 1 (t := s.retRefuse 5) (by simp [State.retirePage, hwho, hkind, hpage, hcopy])
      (s.retRefuse_leaves (by decide))
  · obtain ⟨hfull, hnospare, hnew, hagain⟩ := State.retirePage_keyed hwho hkind hpage hcopy rfl rfl
    intro old free begun
    refine ⟨fun hold hfree => exec_retire hm _ 1 (hfull hold hfree) (s.retRefuse_leaves (by decide)),
      fun hsome hspare => exec_retire hm _ 1 (hnospare hsome hspare) (s.retRefuse_leaves (by decide)),
      fun e d l hold hfree hspare => exec_retire hm _ 1 (hnew e d l hold hfree hspare) ?_,
      fun e d l he hold hspare => exec_retire hm _ 1 (hagain e d l hold hspare) ?_⟩
    · obtain ⟨hsp, hret, hdata, hregs⟩ := s.copyBegin_leaves e page d page
      exact ⟨⟨hsp, hret, hdata⟩, hregs⟩
    · obtain ⟨hsp, hret, hdata, hbad, hregs⟩ := State.rset_copyBegin_leaves (s := s) (page := page) e d
      exact ⟨⟨hsp, hret, hdata⟩, hbad, hregs⟩
  · refine ⟨_, exec_testRegionDone_clean hrun hidle hstep hwalk rfl (u := s) rfl hpois rfl, rfl, ?_, fun a ha => ?_, rfl, rfl, rfl⟩
    · show ((s.rset rSpTtStat 19).reg rSpTtStat).getLsbD 19 = true
      simp
    · show (s.rset rSpTtStat 19).reg a = s.reg a
      simp [ha]
  · obtain ⟨hsp, hkind, hdata, hstat, hres⟩ := s.ttFail_one off row
    have hfails : ([(off, row, reads)].filter fun r => marchFails r.2.2).map (fun r => (r.1, r.2.1)) = [(off, row)] := by
      simp [marchFails, hreads]
    have hfld {lo n : Nat} (h : lo + n ≤ 16) : (s.ttFail [(off, row)]).rfld rSpTtStat lo n = s.rfld rSpTtStat lo n := by
      rw [State.rfld, hstat, fld_setBit_other _ (by omega) (by omega)]
      rfl
    have hpois' : (s.ttFail [(off, row)]).ttPoisoned [] = [] :=
      (State.ttPoisoned_congr hsp hkind (hfld (by decide)) (hfld (by decide))).trans hpois
    refine ⟨_, exec_testRegionDone_clean hrun hidle hstep hwalk (by simpa using hrow) (by rw [hfails]) hpois' hsp, rfl, ?_⟩
    generalize s.ttFail [(off, row)] = u at *
    have hstat' : ((u.rset rSpTtStat 19).reg rSpTtStat).getLsbD 16 = true := by simp [hstat]
    have hres' : (u.rset rSpTtStat 19).reg rSpTtRes = u.reg rSpTtRes := by
      rw [State.reg_rset, if_neg (by decide)]
    have hother (w : Word) (v lo n : Nat) {lo' n' : Nat} (h : lo' + n' ≤ 32) (hd : lo' + n' ≤ lo ∨ lo + n ≤ lo') :=
      fld_setFld_other w lo n v lo' n' h hd
    refine ⟨hstat', ?_, ?_, ?_, ?_, hdata⟩
    · show ticked (s.reg rSpTtRes) ((u.rset rSpTtStat 19).reg rSpTtRes) 24 8
      rw [hres', hres, ticked, hother _ _ _ _ (by decide) (by decide), hother _ _ _ _ (by decide) (by decide),
        hother _ _ _ _ (by decide) (by decide)]
      exact fld_satFld _ _ _ (by decide)
    · show fld ((u.rset rSpTtStat 19).reg rSpTtRes) 0 6 = off.val
      rw [hres', hres, hother _ _ _ _ (by decide) (by decide), hother _ _ _ _ (by decide) (by decide),
        fld_setFld_same _ _ _ _ (by decide)]
      exact Nat.mod_eq_of_lt off.isLt
    · show fld ((u.rset rSpTtStat 19).reg rSpTtRes) 8 5 = s.rfld rSpTtStat 3 5
      rw [hres', hres, hother _ _ _ _ (by decide) (by decide), fld_setFld_same _ _ _ _ (by decide)]
      exact Nat.mod_eq_of_lt (fld_lt _ _ _)
    · show fld ((u.rset rSpTtStat 19).reg rSpTtRes) 16 7 = s.rfld rSpTtStat 8 7
      rw [hres', hres, fld_setFld_same _ _ _ _ (by decide)]
      exact Nat.mod_eq_of_lt (fld_lt _ _ _)

end Machine
end Sys2Proof
end

section
/-! THEOREM. O52: what the test access port captures (R514, R515, R533), and registers written by masters (R10, R556, R557). -/
namespace Sys2Proof
namespace Machine

/-! ### Where an address lies -/

theorem secDbgKind_none {a : Nat} (h : a < 0x6A0000 ∨ 0x6C0000 ≤ a) : secDbgKind a = none := by
  simp only [secDbgKind, rowsSecDbg, Option.map_eq_none_iff, List.find?_eq_none, List.mem_cons, List.not_mem_nil, or_false]
  rintro r (rfl | rfl | rfl) <;> simp only [inRun, Bool.and_eq_true, decide_eq_true_eq] <;> omega

theorem dbgKind_none {a : Nat} (h : a < 0x6A0000 ∨ 0x6C0000 ≤ a) : dbgKind a = none := by
  simp only [dbgKind, Option.map_eq_none_iff, List.find?_eq_none]
  have hrow : ∀ r ∈ rowsDbg, 0x6B0000 ≤ r.base ∧ r.base + r.stride * r.count ≤ 0x6C0000 ∧ 0 < r.stride := by decide
  intro r hr
  obtain ⟨hlo, hhi, hpos⟩ := hrow r hr
  simp only [inRun, Bool.and_eq_true, decide_eq_true_eq, not_and, Nat.not_lt]
  rintro ⟨hle, -⟩
  rw [Nat.le_div_iff_mul_le hpos]
  rw [Nat.mul_comm] at hhi
  omega

theorem State.regWaits_outside (s : State) {a : Nat} (h : a < 0x630000 ∨ 0x638000 ≤ a) : s.regWaits a = false := by
  have hout : (decide (0x630000 ≤ a) && decide (a < 0x638000)) = false := by
    rw [Bool.and_eq_false_iff, decide_eq_false_iff_not, decide_eq_false_iff_not]
    omega
  simp [State.regWaits, hout]

theorem State.dbgSec_of_open {s : State} (h : s.dbgOpen = true) : s.dbgSec = true := by
  simp only [State.dbgOpen, Bool.and_eq_true, Bool.or_eq_true, decide_eq_true_eq] at h
  simp only [State.dbgSec, Bool.and_eq_true, decide_eq_true_eq]
  obtain ⟨hfuses, hlevel⟩ := h
  exact ⟨hfuses, by omega⟩

theorem State.spLimit_le (s : State) : s.spLimit ≤ 0x400000 := by
  have hsize : s.kind.spSize ≤ 0x400000 := by cases s.kind <;> decide
  unfold State.spLimit
  omega

/-! ### The port -/

/-- A DBGACC that no shift engine's clock holds back reaches the port. -/
theorem exec_dbgacc {s : State} (hsec : s.dbgSec = true) (hpend : s.dbg.accPend = none) {we : Bool} {a : Addr}
    (hgo : (s.dbgOpen && decide (s.mode ≠ .halted) && s.frzTrig.isEmpty && s.regWaits a.toNat) = false) (v : Word) :
    exec (.dbgacc we a v) s = .next (s.dbgPort we a v) := by
  show execDbgacc we a v s = _
  simp only [execDbgacc, hsec, hpend, hgo, Bool.not_true, Bool.false_eq_true, if_false, Option.isSome_none]

theorem State.dbgPort_of_access {s : State} {we : Bool} {a : Addr} {v d : Word} {c : Nat} {u : State}
    (h : s.dbgAccess we a.toNat v = (c, d, u)) :
    (s.dbgPort we a v).dbg.ir = 8#5 ∧ (s.dbgPort we a v).dbg.accStat = BitVec.ofNat 2 c ∧
    (s.dbgPort we a v).dbg.accData = (if we then v else d) ∧ s.dbgPort we a v = { u with dbg := (s.dbgPort we a v).dbg } := by
  simp only [State.dbgPort, h, State.tapLoad, and_self]

theorem State.busAccess_bcId {s : State} {m : Master} (hm : m = .debugger ∨ m = .recov) (v : Word) :
    s.busAccess m false 0x600000 4 v [] = (0, s.kind.bcId, s) := by
  have hlim := s.spLimit_le
  have hlow : ¬ 0x600000 < s.spLimit := by omega
  have hfor : regFor s.kind m 0x600000 = some {} := by cases s.kind <;> rfl
  have hpass : s.timePass 0x600000 = s := by
    obtain ⟨h1, h2, h3, h4, h5⟩ : inRun 0x600000 (rEStat 0) 0x1000 8 = false ∧ inRun 0x600000 (rEEmpty 0) 0x1000 8 = false ∧
      inRun 0x600000 (rStcStat 0) 0x80 16 = false ∧ inRun 0x600000 (rPgIn 0) 4 6 = false ∧ inRun 0x600000 (rPgPinStat 0) 8 192 = false := by decide
    obtain ⟨h6, h7, h8⟩ : ¬ 0x600000 = rSecDbgStat ∧ ¬ 0x600000 = rSpLapNow ∧ ¬ 0x600000 = rSpTtStat := by decide
    simp only [State.timePass, h1, h2, h3, h4, h5, h6, h7, h8, Bool.false_eq_true, if_false, ite_self]
  have hcap : s.capReadAt 0x600000 m false = s := by
    have hfind : (List.range 64).find? (fun n => decide (0x600000 = rTmCap n)) = none := by decide
    simp only [State.capReadAt, hfind]
  have hread : s.regRead m {} 0x600000 = (s.kind.bcId, s) := by
    have hlive : s.regLive 0x600000 = s.kind.bcId := by simp [State.regLive, rBcMode, rBcId]
    have hget : inRun 0x600000 (rMcHget 0) 0x10 16 = false := by decide
    simp only [State.regRead, hget, hpass, hlive, hcap, Bool.false_eq_true, if_false, or_true, true_or, if_true, BitVec.not_zero, BitVec.and_allOnes]
  have hpass' : s.regRefuses true true false (.link true true) 0x600000 = false := by
    have howner : s.regOwner 0x600000 = none := by simp [State.regOwner]
    have hroute : (inRun 0x600000 (rEvCfg 0) 0x10 256 || inRun 0x600000 (rEvStat 0) 0x10 256 || inRun 0x600000 (rEvCnt 0) 0x10 256) = false := by
      decide
    have hattn : ¬ 0x600000 = rEvHattn := by decide
    simp [State.regRefuses, howner, hroute, hattn]
  have hreg : s.regAccess m false 0x600000 v = (0, s.kind.bcId, s) := by
    have h4 : 0x600000 % 4 = 0 := by decide
    rcases hm with rfl | rfl <;>
      simp only [State.regAccess, h4, if_true, hfor, hread, hpass', Bool.false_or, Bool.false_and, Bool.false_eq_true, if_false]
  have hcheck : s.busCheck m false 0x600000 4 = 0 := by
    have h4 : 0x600000 / 4 * 4 = 0x600000 := by decide
    rcases hm with rfl | rfl
    · simp [State.busCheck, h4, hfor, attrsOf]
    · simp [State.busCheck, h4, hfor, attrsOf, hlow, hpass', show inPm 0x600000 = false by decide, show inRom 0x600000 = false by decide]
  simp only [State.busAccess, hcheck, hlow, hreg, ne_eq, not_true_eq_false, if_false]
  rw [if_neg (by decide), if_neg (by decide)]

/-! ### Registers written by a master -/

/-- The kind of SP_LAPALARM and of STC_TICK in the map (R10, R556). -/
theorem regFor_rSpLapAlarm (c : Config.Kind) (m : Master) : regFor c m rSpLapAlarm = some { rw := allBits } := by cases c <;> rfl
theorem regFor_rStcTick (c : Config.Kind) (m : Master) : regFor c m rStcTick = some { rwl := 0x3FF#32 } := by cases c <;> rfl

theorem State.regRefuses_secure (s : State) (m : Master) {a : Nat} (ha : a = rSpLapAlarm ∨ a = rStcTick) :
    s.regRefuses true true true m a = false := by
  have howner : s.regOwner a = none := by rcases ha with rfl | rfl <;> simp [State.regOwner, rSpLapAlarm, rSp, rStcTick]
  obtain ⟨h1, h2, h3, h4, h5⟩ : ¬ (0x6A0000 ≤ a ∧ a < 0x6B0000) ∧
      (inRun a (rEvCfg 0) 0x10 256 || inRun a (rEvStat 0) 0x10 256 || inRun a (rEvCnt 0) 0x10 256) = false ∧ ¬ a = rEvHattn ∧
      ¬ a = rTmGstart ∧ ¬ (a = rErCursor ∨ inRun a (rPgOut 0) 8 192 = true ∨ (decide (rMcHput 0 ≤ a) && decide (a < 0x630000)) = true) := by
    rcases ha with rfl | rfl <;> decide
  simp [State.regRefuses, howner, h1, h2, h3, h4]

/-- A write of a master that the access rules let through. -/
theorem exec_registerWrite {s : State} (hm : s.mode ≠ .halted) {m : Master} (hwho : m = .host true true ∨ m = .recov) {a : Nat}
    (ha : a = rSpLapAlarm ∨ a = rStcTick) {k : RegKind} (hk : regFor s.kind m a = some k) (v : Word) :
    exec (.registerWrite m (BitVec.ofNat 24 a) v) s = .next (s.regWrite m k a v) := by
  have hnat : (BitVec.ofNat 24 a).toNat = a := by rcases ha with rfl | rfl <;> decide
  have hwaits : s.regWaits a = false := by
    refine s.regWaits_outside ?_
    rcases ha with rfl | rfl <;> decide
  have hkey : keyDenied m a v = false := by
    have hrun : inRun a (rStcCtl 0) 0x80 16 = false := by rcases ha with rfl | rfl <;> decide
    simp [keyDenied, hrun]
  have h4 : a % 4 = 0 := by rcases ha with rfl | rfl <;> decide
  have haccess : s.regAccess m true a v = (0, 0#32, s.regWrite m k a v) := by
    rcases hwho with rfl | rfl <;>
      simp only [State.regAccess, h4, if_true, hk, s.regRefuses_secure _ ha, hkey, Bool.and_false, Bool.or_false, Bool.false_eq_true, if_false]
  show execRegisterWrite m _ v s = _
  unfold execRegisterWrite
  rcases hwho with rfl | rfl <;>
    simp only [hnat, hwaits, haccess, Bool.false_eq_true, if_false, State.gated_running _ _ hm]

theorem State.regWrite_rSpLapAlarm (s : State) {m : Master} (hwho : m = .host true true ∨ m = .recov) (v : Word) :
    s.regWrite m { rw := allBits } rSpLapAlarm v = s.setReg rSpLapAlarm v := by
  have hmaint : s.maint m = true := by rcases hwho with rfl | rfl <;> rfl
  have hwrite : s.spWrite m rSpLapAlarm v = s.setReg rSpLapAlarm v := by
    simp [State.spWrite, hmaint, rSpLapAlarm, rSpWclr, rSpTtCtl, rSpRetCmd, rSpCfg, rSp]
  obtain ⟨h1, h2, h3, h4, h5, h6⟩ : ¬ rSpLapAlarm < 0x610000 ∧ ¬ rSpLapAlarm < 0x630000 ∧ ¬ rSpLapAlarm < 0x640000 ∧
    ¬ rSpLapAlarm < 0x650000 ∧ ¬ rSpLapAlarm < 0x660000 ∧ rSpLapAlarm < 0x670000 := by decide
  simp only [State.regWrite, h1, h2, h3, h4, h5, h6, if_false, if_true, hwrite]

theorem State.regWrite_rStcTick (s : State) (m : Master) (v : Word) :
    s.regWrite m { rwl := 0x3FF#32 } rStcTick v = s.plainWrite m { rwl := 0x3FF#32 } rStcTick v := by
  obtain ⟨h1, h2, h3⟩ : inRun rStcTick (rBcToken 0) 4 4 = false ∧ inRun rStcTick (rStcCtl 0) 0x80 16 = false ∧
    inRun rStcTick (rStcWdKick 0) 0x80 16 = false := by decide
  obtain ⟨h4, h5, h6⟩ : rStcTick < 0x610000 ∧ ¬ rStcTick = rBcImgCtl ∧ ¬ rStcTick = rBcImgIn := by decide
  simp only [State.regWrite, h1, h2, h3, h4, h5, h6, if_true, if_false, Bool.false_eq_true]

theorem State.rwlReject_host {s : State} (h : s.rbit rBcRwlRef 31 = false) (a : Nat) :
    ∃ w, BitVec.ofNat 32 (a % 2 ^ 24 + 1 * 2 ^ 24 + 2 ^ 31) = w ∧ s.rwlReject (.host true true) a =
      (s.rcount rBcRwlCnt 0 16 1).modReg rBcRwlRef fun v => (v &&& 0x40000000#32) ||| w := by
  refine ⟨_, rfl, ?_⟩
  unfold State.rwlReject
  rw [if_neg (by simp [h])]

/-- A locked register keeps its value: the write is counted, and its address and master are shown (R557). -/
theorem State.plainWrite_rStcTick {s : State} (hrun : s.mode = .run) {v : Word} (hdiff : fld (v ^^^ s.reg rStcTick) 0 10 ≠ 0)
    (href : s.reg rBcRwlRef = 0#32) :
    let t := s.plainWrite (.host true true) { rwl := 0x3FF#32 } rStcTick v
    t.reg rStcTick = s.reg rStcTick ∧ ticked (s.reg rBcRwlCnt) (t.reg rBcRwlCnt) 0 16 ∧ t.reg rBcRwlRef = 0x81601800#32 ∧
      t = { s with regs := t.regs } := by
  have hmask : (v ^^^ s.reg rStcTick) &&& 0x3FF#32 ≠ 0#32 := fun h => hdiff (by
    have hand := congrArg BitVec.toNat h
    rwa [BitVec.toNat_and, show (0x3FF#32).toNat = 2 ^ 10 - 1 from rfl, Nat.and_two_pow_sub_one_eq_mod, ← fld_zero] at hand)
  have hopen : s.rwlOpen = false := by simp [State.rwlOpen, hrun]
  have hbit : s.rbit rBcRwlRef 31 = false := by simp [State.rbit, href]
  let u := (s.rcount rBcRwlCnt 0 16 1).modReg rBcRwlRef fun w => (w &&& 0x40000000#32) ||| 0x81601800#32
  have hreject : s.rwlReject (.host true true) rStcTick = u := by
    obtain ⟨w, hw, hreject⟩ := State.rwlReject_host hbit rStcTick
    have haddr : BitVec.ofNat 32 (rStcTick % 2 ^ 24 + 1 * 2 ^ 24 + 2 ^ 31) = 0x81601800#32 := by decide
    rw [hreject, ← hw, haddr]
  have hplain : s.plainWrite (.host true true) { rwl := 0x3FF#32 } rStcTick v = u.modReg rStcTick id := by
    have hcheck : s.rwlCheck (.host true true) { rwl := 0x3FF#32 } rStcTick v = u := by
      simp only [State.rwlCheck, hopen, Bool.not_false, Bool.true_and, decide_eq_true_eq, if_pos hmask, hreject]
    simp only [State.plainWrite, hopen, hcheck, Bool.false_eq_true, if_false, BitVec.or_zero, BitVec.and_zero, BitVec.not_zero,
      BitVec.and_allOnes]
    rfl
  simp only [hplain]
  refine ⟨?_, ?_, ?_, rfl⟩
  · simp [u, rStcTick, rBcRwlRef, rBcRwlCnt]
  · simpa [u, rStcTick, rBcRwlRef, rBcRwlCnt] using s.rcount_ticked rBcRwlCnt 0 16 (by decide)
  · have hkept : (s.rcount rBcRwlCnt 0 16 1).reg rBcRwlRef = 0#32 := by simpa [rBcRwlCnt, rBcRwlRef] using href
    rw [State.reg_modReg, if_neg (by decide), State.reg_modReg, if_pos rfl, hkept]
    decide

/-! ### The freeze record -/

theorem State.frRead_head {s : State} (hopen : s.dbgOpen = true) (hfrozen : s.rfld rDbgFrzStat 0 2 = 2)
    (hsel : s.rfld rDbgFrSel 0 16 = 0) (hptr : s.rfld rDbgFrPtr 0 24 = 2) :
    s.frRead = (true, 0x7E1AF2E0#32, s.rsetFld rDbgFrPtr 0 24 3) := by
  have hlow : s.rfld rDbgFrSel 0 8 = 0 ∧ s.rfld rDbgFrSel 8 8 = 0 := by
    simp only [State.rfld, fld] at hsel ⊢
    omega
  have hword : s.recordWord 0 0 2 = (0x7E1AF2E0#32, s) := by simp [State.recordWord, sectLen, State.sectWord]
  simp [State.frRead, hopen, hfrozen, hlow.1, hlow.2, hptr, hword]

/-- IDCODE (R514): 1, the manufacturer, the part, the step. -/
theorem idcodeWord_fields (c : Config.Kind) : (idcodeWord c).getLsbD 0 = true ∧ (idcodeWord c >>> 1).setWidth 11 = Config.manufacturer ∧
    (idcodeWord c >>> 12).setWidth 16 = 0x0128#16 ∧ (idcodeWord c >>> 28).setWidth 4 = 1#4 := by
  have hstep : fld c.bcId 8 4 = 1 := by cases c <;> decide
  have hman : Config.manufacturer.toNat < 2 ^ 11 := Config.manufacturer.isLt
  have hnat : (idcodeWord c).toNat = 1 + Config.manufacturer.toNat * 2 + 0x0128 * 2 ^ 12 + 2 ^ 28 := by
    rw [idcodeWord, hstep, BitVec.toNat_ofNat]
    omega
  refine ⟨?_, ?_, ?_, ?_⟩
  · rw [BitVec.getLsbD, hnat, Nat.testBit_zero, decide_eq_true_eq]
    omega
  all_goals
    apply BitVec.eq_of_toNat_eq
    simp only [BitVec.toNat_setWidth, BitVec.toNat_ushiftRight, hnat, Nat.shiftRight_eq_div_pow, BitVec.toNat_ofNat]
    omega

theorem exec_frread_closed {s : State} (h : s.dbgOpen = false) : exec .frread s = .next (s.tapLoad 31#5 0#64) := by
  show execFrread s = _
  simp only [execFrread, h, Bool.not_false, if_true]

theorem exec_frread_open {s u : State} (h : s.dbgOpen = true) {b : Bool} {w : Word} (hr : s.frRead = (b, w, u)) :
    exec .frread s = .next (u.tapLoad 10#5 (BitVec.ofNat 64 (w.toNat + b2n b * 2 ^ 32))) := by
  show execFrread s = _
  simp only [execFrread, h, hr, Bool.not_true, Bool.false_eq_true, if_false]

/-- Settles O52: the captures of each instruction, then the record, then registers written. -/
theorem debugPortReadsAndWritesRegisters : Obligations.DebugPortReadsAndWritesRegisters := by
  intro s we a v m head kept
  obtain ⟨hone, hman, hpart, hstep⟩ := idcodeWord_fields s.kind
  have hnone : BitVec.ofNat 64 ((0#32).toNat + b2n false * 2 ^ 32) = 0#64 := by decide
  refine ⟨⟨_, rfl, rfl, rfl⟩, ⟨_, rfl, rfl⟩, ⟨_, rfl, rfl, hone, hman, hpart, hstep, rfl⟩, fun hsec => ?_, fun hpend hsec hopen hkind => ?_,
    fun hopen => ⟨fun hpend hhalt ha => ?_, fun hpend hrun hfrz => ?_, fun hpend hrun hfrz hwaits => ?_, fun hpend => ?_, fun hpend => ?_, ?_,
    fun ⟨hfrozen, hsel, hptr⟩ => ?_, fun hst => ?_, fun hst hsel htest => ?_⟩, fun hopen => ⟨_, exec_frread_closed hopen, rfl, rfl⟩,
    fun hwho hm => ?_, fun hrun hdiff href => ?_⟩
  · have hexec : exec (.dbgacc we a v) s = .next (s.tapLoad 31#5 0#64) := by
      show execDbgacc we a v s = _
      simp only [execDbgacc, hsec, Bool.not_false, if_true]
    exact ⟨_, hexec, rfl, rfl, rfl⟩
  · have haccess : s.dbgAccess we a.toNat v = (3, 0#32, s) := by simp [State.dbgAccess, hopen, hkind]
    obtain ⟨hir, hstat, -, hframe⟩ := State.dbgPort_of_access haccess
    exact ⟨_, exec_dbgacc hsec hpend (by simp [hopen]) v, hir, hstat, hframe⟩
  · have haccess : s.dbgAccess we a.toNat v = (2, 0#32, s) := by
      have hsec : (decide (0x6A0000 ≤ a.toNat) && decide (a.toNat < 0x6B0000)) = false := by
        rw [Bool.and_eq_false_iff, decide_eq_false_iff_not, decide_eq_false_iff_not]
        omega
      simp [State.dbgAccess, hopen, secDbgKind_none ha, dbgKind_none ha, hsec, hhalt]
    obtain ⟨-, hstat, -, hframe⟩ := State.dbgPort_of_access haccess
    exact ⟨_, exec_dbgacc (State.dbgSec_of_open hopen) hpend (by simp [hhalt]) v, hstat, hframe⟩
  · have haccess : s.dbgAccess false (0x600000#24).toNat v = (0, s.kind.bcId, s) := by
      have hout : 0x600000 < 0x6A0000 ∨ 0x6C0000 ≤ 0x600000 := by decide
      have hnat : (0x600000#24).toNat = 0x600000 := by decide
      simp [State.dbgAccess, hopen, hnat, secDbgKind_none hout, dbgKind_none hout, hrun, hfrz, State.busAccess_bcId (.inl rfl)]
    obtain ⟨-, hstat, hdata, hframe⟩ := State.dbgPort_of_access haccess
    have hwaits : s.regWaits (0x600000#24).toNat = false := s.regWaits_outside (by decide)
    exact ⟨_, exec_dbgacc (State.dbgSec_of_open hopen) hpend (by rw [hwaits, Bool.and_false]) v, hdata, hstat, hframe⟩
  · have hgo : (s.dbgOpen && decide (s.mode ≠ .halted) && s.frzTrig.isEmpty && s.regWaits a.toNat) = true := by
      simp [hopen, hrun, hfrz, hwaits]
    let s1 : State := { s with dbg := { s.dbg with accPend := some (we, a, v), accStat := 1#2 } }
    have hexec : exec (.dbgacc we a v) s = .next (s1.tapLoad 8#5 (BitVec.ofNat 64 (a.toNat * 2 ^ 32 + b2n we * 2 ^ 56 + 2 ^ 57))) := by
      show execDbgacc we a v s = _
      simp only [execDbgacc, State.dbgSec_of_open hopen, hpend, hgo, Bool.not_true, Bool.false_eq_true, if_false, Option.isSome_none, if_true]
      rfl
    exact ⟨_, hexec, rfl, rfl, rfl⟩
  · refine ⟨s, ?_, rfl⟩
    show execDbgacc we a v s = _
    simp only [execDbgacc, State.dbgSec_of_open hopen, hpend, Bool.not_true, Bool.false_eq_true, if_false, if_true]
  · let f : Word → Word := fun w => ((w &&& ~~~ 0xFFFFFF#32) ||| (v &&& 0xFFFFFF#32)) &&& ~~~ (v &&& 0#32)
    have haccess : s.dbgAccess true (BitVec.ofNat 24 (rDbgBpAddr 0)).toNat v = (0, 0#32, s.modReg (rDbgBpAddr 0) f) := by
      have hkind : dbgKind (rDbgBpAddr 0) = some { rw := 0xFFFFFF#32 } := by decide
      have hnat : (BitVec.ofNat 24 (rDbgBpAddr 0)).toNat = rDbgBpAddr 0 := by decide
      have hwrite : s.dbgWrite { rw := 0xFFFFFF#32 } (rDbgBpAddr 0) v = s.modReg (rDbgBpAddr 0) f := by
        obtain ⟨h1, h2, h3, h4⟩ : ¬ rDbgBpAddr 0 = rDbgCmd ∧ ¬ rDbgBpAddr 0 = rDbgShold ∧ ¬ rDbgBpAddr 0 = rDbgFrSel ∧
          inRun (rDbgBpAddr 0) (rDbgTreg 0) 4 41 = false := by decide
        simp only [State.dbgWrite, h1, h2, h3, h4, if_false, Bool.false_eq_true]
        rfl
      simp only [State.dbgAccess, hopen, hnat, hkind, hwrite, Bool.not_true, Bool.false_and, Bool.false_eq_true, if_false, if_true]
    obtain ⟨-, hstat, -, hframe⟩ := State.dbgPort_of_access haccess
    have hwaits : s.regWaits (BitVec.ofNat 24 (rDbgBpAddr 0)).toNat = false := s.regWaits_outside (by decide)
    have hreg (x : Nat) : (s.dbgPort true (BitVec.ofNat 24 (rDbgBpAddr 0)) v).reg x = (s.modReg (rDbgBpAddr 0) f).reg x :=
      State.reg_eq_of_regs_eq (by rw [hframe]) x
    refine ⟨_, exec_dbgacc (State.dbgSec_of_open hopen) hpend (by rw [hwaits, Bool.and_false]) v, hstat, ?_, fun x hx => ?_, ?_⟩
    · rw [State.rfld, hreg, State.reg_modReg, if_pos rfl]
      apply Nat.eq_of_testBit_eq
      intro b
      have hmask : 0xFFFFFF#32 = fmask 0 24 := by decide
      rw [testBit_fld, testBit_fld]
      by_cases hb : b < 24
      · have hbit : (fmask 0 24).getLsbD (0 + b) = true := by
          rw [getLsbD_fmask _ _ _ (by omega)]
          simpa using hb
        simp only [f, hmask, BitVec.and_zero, BitVec.not_zero, BitVec.and_allOnes, BitVec.getLsbD_or, BitVec.getLsbD_and, BitVec.getLsbD_not,
          hbit, Bool.not_true, Bool.and_false, Bool.false_or, Bool.and_true]
      · simp [hb]
    · rw [hreg, State.reg_modReg, if_neg hx]
    · rw [hframe]
      exact ⟨rfl, rfl, rfl⟩
  · have hexec : exec (.dbgFrselWrite v) s = .next ((s.setReg rDbgFrSel (v &&& 0xFFFF#32)).setReg rDbgFrPtr 0#32) := by
      show execDbgFrselWrite v s = _
      simp only [execDbgFrselWrite, hopen, if_true]
    refine ⟨_, hexec, ?_, ?_, fun x hx => ?_, rfl⟩
    · simp [rDbgFrSel, rDbgFrPtr, rDbg]
    · simp
    · rw [not_or] at hx
      simp [hx.1, hx.2]
  · have hread := State.frRead_head hopen hfrozen hsel hptr
    have hexec : exec .dbgFrdataRead s = .next { s.rsetFld rDbgFrPtr 0 24 3 with rdata := 0x7E1AF2E0#32 } := by
      show execDbgFrdataRead s = _
      simp only [execDbgFrdataRead, hopen, if_true, hread]
    have hptr' : (s.rsetFld rDbgFrPtr 0 24 3).rfld rDbgFrPtr 0 24 = 3 := by
      rw [State.rfld, State.reg_rsetFld, if_pos rfl, fld_setFld_same _ _ _ _ (by decide)]
      decide
    have hdr : BitVec.ofNat 64 ((0x7E1AF2E0#32).toNat + b2n true * 2 ^ 32) = 0x17E1AF2E0#64 := by decide
    refine ⟨⟨_, hexec, rfl, hptr', fun x hx => ?_, rfl, rfl, rfl⟩, ⟨_, exec_frread_open hopen hread, rfl, hdr, hptr', rfl, rfl, rfl⟩⟩
    show (s.rsetFld rDbgFrPtr 0 24 3).reg x = s.reg x
    simp [hx]
  · have hread : s.frRead = (false, 0#32, s) := by simp [State.frRead, hst]
    exact ⟨_, exec_frread_open hopen hread, hnone, rfl⟩
  · let s1 : State := { s with dbg := { s.dbg with excl := true } }
    have hread : s.frRead = (false, 0#32, s1.rset rDbgFrzStat 4) := by simp [State.frRead, hopen, hst, hsel, htest, s1]
    refine ⟨_, exec_frread_open hopen hread, hnone, ?_, rfl, rfl, rfl⟩
    show (s1.rset rDbgFrzStat 4).rbit rDbgFrzStat 4 = true
    simp [State.rbit]
  · refine ⟨_, exec_registerWrite hm hwho (.inl rfl) (regFor_rSpLapAlarm _ _) v, ?_⟩
    rw [State.regWrite_rSpLapAlarm s hwho v]
    exact ⟨by simp, fun x hx => by simp [hx], rfl⟩
  · refine ⟨_, exec_registerWrite (by simp [hrun]) (.inl rfl) (.inr rfl) (regFor_rStcTick _ _) v, ?_⟩
    rw [State.regWrite_rStcTick]
    exact State.plainWrite_rStcTick hrun hdiff href

end Machine
end Sys2Proof
end

section
/-! THEOREM. O54: triggers, the freeze request and its completion, alarms in a freeze, and RESUME (R507, R526–R532, R538). -/
namespace Sys2Proof
namespace Machine

/-! ### Words of masks -/

theorem testBit_maskOf (n k : Nat) (p : Nat → Bool) : (maskOf n p).testBit k = (decide (k < n) && p k) := by
  have hlt : ∀ n, maskOf n p < 2 ^ n := by
    intro n
    induction n with
    | zero => exact Nat.one_pos
    | succ n ih =>
      have hsucc : maskOf (n + 1) p = if p n then maskOf n p + 2 ^ n else maskOf n p := by simp [maskOf, List.range_succ]
      rw [hsucc, Nat.pow_succ]
      split <;> omega
  induction n with
  | zero => simp [maskOf]
  | succ n ih =>
    have hsucc : maskOf (n + 1) p = if p n then maskOf n p + 2 ^ n else maskOf n p := by simp [maskOf, List.range_succ]
    rw [hsucc]
    rcases Nat.lt_trichotomy k n with hk | rfl | hk
    · split
      · rw [Nat.add_comm, Nat.testBit_two_pow_add_gt hk, ih]
        simp [hk, Nat.lt_succ_of_lt hk]
      · rw [ih]
        simp [hk, Nat.lt_succ_of_lt hk]
    · split
      · rename_i hp
        rw [Nat.add_comm, Nat.testBit_two_pow_add_eq, Nat.testBit_lt_two_pow (hlt k)]
        simp [hp]
      · rename_i hp
        rw [Nat.testBit_lt_two_pow (hlt k)]
        simpa using hp
    · have hbig : ∀ m, m < 2 ^ (n + 1) → m.testBit k = false := fun m hm =>
        Nat.testBit_lt_two_pow (hm.trans_le (Nat.pow_le_pow_right (by decide) hk))
      have hmask := hlt (n + 1)
      rw [hsucc] at hmask
      rw [hbig _ hmask]
      simp
      omega

theorem getLsbD_maskOf {n k : Nat} (hk : k < 32) (p : Nat → Bool) : (BitVec.ofNat 32 (maskOf n p)).getLsbD k = (decide (k < n) && p k) := by
  rw [BitVec.getLsbD_ofNat, testBit_maskOf]
  simp [hk]

/-- The acknowledgement of domain `d` in the two words of DBG_FRZACK. -/
theorem getLsbD_ackWord (p : Nat → Bool) {d : Nat} (hd : d < 60) : (ackWord p (d / 32)).getLsbD (d % 32) = p d := by
  have hlow : d % 32 < 32 := Nat.mod_lt _ (by decide)
  have hdiv : 32 * (d / 32) + d % 32 = d := Nat.div_add_mod d 32
  rw [ackWord, getLsbD_maskOf hlow]
  simp [hlow, hdiv, hd]

/-! ### A change of unit registers alone -/

/-- Nothing but unit registers changed. -/
def onlyRegs (s t : State) : Prop := t = { s with regs := t.regs }

theorem onlyRegs.refl (s : State) : onlyRegs s s := rfl
theorem onlyRegs.trans {s t u : State} (h : onlyRegs s t) (k : onlyRegs t u) : onlyRegs s u := by
  unfold onlyRegs at h k ⊢
  rw [k, h]
theorem onlyRegs.setReg {s t : State} (h : onlyRegs s t) (a : Nat) (v : Word) : onlyRegs s (t.setReg a v) := h.trans rfl
theorem onlyRegs.modReg {s t : State} (h : onlyRegs s t) (a : Nat) (f : Word → Word) : onlyRegs s (t.modReg a f) := h.setReg a _
theorem onlyRegs.rset {s t : State} (h : onlyRegs s t) (a b : Nat) : onlyRegs s (t.rset a b) := h.modReg a _
theorem onlyRegs.rclr {s t : State} (h : onlyRegs s t) (a b : Nat) : onlyRegs s (t.rclr a b) := h.modReg a _
theorem onlyRegs.rsetFld {s t : State} (h : onlyRegs s t) (a lo n v : Nat) : onlyRegs s (t.rsetFld a lo n v) := h.modReg a _
theorem onlyRegs.rcount {s t : State} (h : onlyRegs s t) (a lo n k : Nat) : onlyRegs s (t.rcount a lo n k) := h.modReg a _

/-! ### A trigger -/

/-- What a trigger does in each mode (R526–R528). -/
def State.started (s : State) (bit : Nat) (t : State) : Prop :=
  (s.mode = .run → t.frzTrig = s.frzTrig ++ [bit] ∧ t.rbit rDbgFrzCause bit = true) ∧
  (s.mode = .halted → t.frzTrig = s.frzTrig ∧ t.rbit rDbgFrzCause bit = true) ∧
  (s.mode ≠ .run → s.mode ≠ .halted → t.frzTrig = s.frzTrig ∧ t.rbit rDbgFrzStat 2 = true ∧ t.reg rDbgFrzCause = s.reg rDbgFrzCause) ∧
  t.mode = s.mode ∧ dataKept s t

theorem State.rbit_rset_same (s : State) (a : Nat) {b : Nat} (hb : b < 32) : (s.rset a b).rbit a b = true := by
  rw [State.rbit, State.reg_rset, if_pos rfl, getLsbD_setBit _ _ _ hb]
  simp

theorem State.freezeTrigger_started (s : State) {bit : Nat} (hb : bit < 32) : s.started bit (s.freezeTrigger bit) := by
  rcases hm : s.mode with _ | _ | _ | _ | _ <;>
    (unfold State.started State.freezeTrigger; rw [hm]; dsimp only)
  case run =>
    exact ⟨fun _ => ⟨rfl, State.rbit_rset_same _ _ hb⟩, nofun, fun h => absurd rfl h, rfl, rfl, rfl, rfl⟩
  case halted => exact ⟨nofun, fun _ => ⟨rfl, State.rbit_rset_same _ _ hb⟩, fun _ h => absurd rfl h, hm, rfl, rfl, rfl⟩
  all_goals
    refine ⟨nofun, nofun, fun _ _ => ⟨rfl, State.rbit_rset_same _ _ (by decide), ?_⟩, hm, rfl, rfl, rfl⟩
    rw [State.reg_rset, if_neg (by decide)]

/-! ### Time that passes until completion -/

/-- What the time before completion leaves: stands and channels; with no copy running also threads, memory and the freeze counter. -/
def waited (s t : State) : Prop :=
  t.stands = s.stands ∧ t.chans = s.chans ∧
  (s.sp.copy = none → t.sp.copy = none ∧ dataKept s t ∧ t.reg rDbgFrzCnt = s.reg rDbgFrzCnt)

theorem waited.refl (s : State) : waited s s := ⟨rfl, rfl, fun h => ⟨h, ⟨rfl, rfl, rfl⟩, rfl⟩⟩
theorem waited.trans {s t u : State} (h : waited s t) (k : waited t u) : waited s u := by
  obtain ⟨hstands, hchans, hdata⟩ := h
  obtain ⟨kstands, kchans, kdata⟩ := k
  refine ⟨kstands.trans hstands, kchans.trans hchans, fun hcopy => ?_⟩
  obtain ⟨hcopy', ⟨h1, h2, h3⟩, hcnt⟩ := hdata hcopy
  obtain ⟨kcopy, ⟨k1, k2, k3⟩, kcnt⟩ := kdata hcopy'
  exact ⟨kcopy, ⟨k1.trans h1, k2.trans h2, k3.trans h3⟩, kcnt.trans hcnt⟩
/-- A change that touches none of these, the copy among them. -/
theorem waited.same {s t : State} (hstands : t.stands = s.stands) (hchans : t.chans = s.chans) (hthreads : t.threads = s.threads)
    (hmem : t.mem = s.mem) (hcopy : t.sp.copy = s.sp.copy) (hcnt : t.reg rDbgFrzCnt = s.reg rDbgFrzCnt) : waited s t :=
  ⟨hstands, hchans, fun h => ⟨hcopy.trans h, ⟨hthreads, hchans, hmem⟩, hcnt⟩⟩
theorem waited.modReg (s : State) {a : Nat} (f : Word → Word) (ha : rDbgFrzCnt ≠ a) : waited s (s.modReg a f).drew :=
  .same rfl rfl rfl rfl rfl (by
    show (s.modReg a f).reg rDbgFrzCnt = s.reg rDbgFrzCnt
    rw [State.reg_modReg, if_neg ha])

theorem State.setByte_waited (s : State) (a : Nat) (v : Byte) (hcopy : s.sp.copy ≠ none) : waited s (s.setByte a v) :=
  ⟨rfl, rfl, fun h => absurd h hcopy⟩

/-- Stands and channels are as they were: all that a copy grant is asked for here. -/
def standsChans (s t : State) : Prop := t.stands = s.stands ∧ t.chans = s.chans

theorem standsChans.trans {s t u : State} (h : standsChans s t) (k : standsChans t u) : standsChans s u := ⟨k.1.trans h.1, k.2.trans h.2⟩
theorem standsChans_foldl {l : List Nat} {f : State → Nat → State} (hf : ∀ t j, standsChans t (f t j)) (s : State) : standsChans s (l.foldl f s) :=
  List.foldlRecOn l f ⟨rfl, rfl⟩ fun t h j _ => h.trans (hf t j)
theorem State.setByte_standsChans (s : State) (a : Nat) (v : Byte) : standsChans s (s.setByte a v) := ⟨rfl, rfl⟩
theorem State.setReg_standsChans (s : State) (a : Nat) (v : Word) : standsChans s (s.setReg a v) := ⟨rfl, rfl⟩
theorem State.rekey_standsChans (s : State) (w : Nat) : standsChans s (s.rekey w) := by
  unfold State.rekey
  split
  · exact ⟨rfl, rfl⟩
  · split
    · exact ⟨rfl, rfl⟩
    · extract_lets s1
      have h1 : standsChans s s1 := standsChans_foldl (fun t j => t.setByte_standsChans _ _) s
      clear_value s1
      exact h1.trans ⟨rfl, rfl⟩
theorem State.writeLE_standsChans (s : State) (a n v : Nat) : standsChans s (s.writeLE a n v) := by
  rw [State.writeLE_frame]
  exact ⟨rfl, rfl⟩
theorem State.setBad_standsChans (s : State) (w : Nat) (b : Bool) : standsChans s (s.setBad w b) := by
  have hkey := s.rekey_standsChans w
  unfold State.setBad
  generalize s.rekey w = t at hkey ⊢
  dsimp only
  split
  · refine hkey.trans ?_
    rw [State.writeLE_frame]
    exact ⟨rfl, rfl⟩
  · exact hkey.trans ⟨rfl, rfl⟩
theorem State.spErrAddr_standsChans (s : State) (w kind : Nat) (maint : Bool) : standsChans s (s.spErrAddr w kind maint) := by
  have hset (v : Word) : standsChans s (s.setReg rSpErrAddr v) := ⟨rfl, rfl⟩
  unfold State.spErrAddr
  split
  · exact ⟨rfl, rfl⟩
  · exact hset _
theorem State.spCount_standsChans (s : State) (w : Nat) (o : SpOut) (f : Finder) : standsChans s (s.spCount w o f) := by
  have hrec {t : State} (h : standsChans s t) (unit metric index bin sev : Nat) : standsChans s (t.recBin unit metric index bin sev) :=
    h.trans (by simp [standsChans, State.recBin_eq])
  have hraise {t : State} (h : standsChans s t) (src : Nat) : standsChans s (t.raise src) :=
    h.trans (by rw [State.raise_frame]; exact ⟨rfl, rfl⟩)
  have hcount (lo bit : Nat) : standsChans s ((s.rcount rSpErrCnt lo 16 1).rset rSpStat bit) := by
    unfold State.rcount State.rset
    exact ⟨rfl, rfl⟩
  have haddr (bit kind : Nat) (m : Bool) : standsChans s (((s.rcount rSpErrCnt 16 16 1).rset rSpStat bit).spErrAddr w kind m) :=
    (hcount 16 bit).trans (State.spErrAddr_standsChans _ w kind m)
  cases o with
  | clean => exact ⟨rfl, rfl⟩
  | corr => exact hrec (hcount 0 0) ..
  | uncorr => exact hrec (haddr 1 1 _) ..
  | addrErr => exact hraise (hrec (haddr 2 2 _) ..) 14
  | poison => exact hrec (haddr 3 3 _) ..
theorem State.readAt_standsChans (s : State) (w lw : Nat) (err : WordErr) (f : Finder) : standsChans s (s.readAt w lw err f).2 := by
  have hcount := (s.rekey_standsChans w).trans ((s.rekey w).spCount_standsChans lw (decode ((s.rekey w).readErr w err)).1 f)
  unfold State.readAt
  dsimp only
  split <;> dsimp only
  · exact hcount.trans (standsChans_foldl (fun t j => State.setByte_standsChans t _ _) _)
  · exact hcount.trans (standsChans_foldl (fun t j => State.setByte_standsChans t _ _) _)
  · exact hcount.trans (State.setBad_standsChans _ _ _)
  · exact hcount
theorem State.copyGrant_standsChans (s : State) (e : Nat) (err : WordErr) : standsChans s (s.copyGrant e err) := by
  have hread := s.readAt_standsChans (s.copySrc s.sp.copied) (s.logWord (s.copyDst e s.sp.copied)) err .copy
  have hbad (b : Bool) := hread.trans (State.setBad_standsChans _ (s.copyDst e s.sp.copied) b)
  unfold State.copyGrant
  extract_lets i src dst q s1
  have h1 : standsChans s s1 := by
    unfold s1
    split
    · refine (hbad false).trans ?_
      apply State.writeLE_standsChans
    · exact (hbad true).trans (State.setReg_standsChans ..)
  clear_value s1
  exact h1.trans ⟨rfl, rfl⟩

theorem State.seqPass_waited (s : State) : waited s s.seqPass := by
  unfold State.seqPass
  split
  · exact .refl s
  · extract_lets s0 sp s1
    have h1 : waited s s1 := by
      unfold s1
      split
      · exact .same rfl rfl rfl rfl rfl rfl
      · exact .refl s
    clear_value s1
    split
    · exact h1
    · next e hcopy =>
      split
      · obtain ⟨hstands, hchans⟩ := State.copyGrant_standsChans s1.drew e []
        exact h1.trans ⟨hstands, hchans, fun h => by simp [hcopy] at h⟩
      · exact h1

theorem State.timePass_waited (s : State) {a : Nat} (ha : rDbgFrzCnt ≠ a) : waited s (s.timePass a) := by
  have hpads (t : State) (base n : Nat) : waited t (t.padsMove base n) := .same rfl rfl rfl rfl rfl rfl
  have hmod (f : Word → Word) : waited s (s.modReg a f).drew := waited.modReg s f ha
  unfold State.timePass
  split
  · exact .refl s
  split
  · exact hmod _
  split
  · split
    · exact hmod _
    · exact .refl s
  split
  · dsimp only
    split
    · exact hmod _
    · exact .refl s
  split
  · split
    · exact .same rfl rfl rfl rfl rfl rfl
    · exact .refl s
  split
  · split
    · exact hmod _
    · exact .refl s
  split
  · exact s.seqPass_waited
  split
  · exact hpads ..
  split
  · exact hpads ..
  · exact .refl s

theorem waited_each {l : List Nat} {f : State → Nat → State} (hf : ∀ t, ∀ n ∈ l, waited t (f t n)) (s : State) : waited s (s.each l f) :=
  List.foldlRecOn l f (.refl s) fun t h n hn => h.trans (hf t n hn)

/-- The clocks of the sequencers in `l` stand still. -/
def State.stopClocks (s : State) (l : List Nat) : State := s.each l fun s n => s.modSe n fun e => { e with stopped := true }
theorem State.stopClocks_frame (s : State) (l : List Nat) : s.stopClocks l = { s with ses := (s.stopClocks l).ses } := by
  induction l generalizing s with
  | nil => rfl
  | cons n l ih => exact ih (s.modSe n fun e => { e with stopped := true })

/-- What a completion of the freeze writes after the time before it has passed. -/
def State.frozenAt (s : State) (cycles notack : Nat) : State :=
  let ack := ackWord fun d => !notack.testBit d
  let s1 := ((s.rsetFld rDbgFrzStat 0 2 2).setReg (rDbgFrzAck 0) (ack 0)).setReg (rDbgFrzAck 1) (ack 1)
  (s1.rcount rDbgFrzCnt 0 16 1).rsetFld rDbgFrzCnt 16 16 (min 65535 cycles)
theorem State.frozenAt_onlyRegs (s : State) (cycles notack : Nat) : onlyRegs s (s.frozenAt cycles notack) :=
  (((((onlyRegs.refl s).rsetFld ..).setReg ..).setReg ..).rcount ..).rsetFld ..
theorem State.reg_frozenAt_stat (s : State) (cycles notack : Nat) :
    (s.frozenAt cycles notack).reg rDbgFrzStat = setFld (s.reg rDbgFrzStat) 0 2 2 := by
  simp [State.frozenAt, rDbgFrzCnt, rDbgFrzStat, rDbgFrzAck, rDbg]
theorem State.reg_frozenAt_cnt (s : State) (cycles notack : Nat) :
    (s.frozenAt cycles notack).reg rDbgFrzCnt = setFld (satFld (s.reg rDbgFrzCnt) 0 16 1) 16 16 (min 65535 cycles) := by
  simp [State.frozenAt, rDbgFrzCnt, rDbgFrzStat, rDbgFrzAck, rDbg]
theorem State.reg_frozenAt_ack (s : State) (cycles notack : Nat) {k : Nat} (hk : k = 0 ∨ k = 1) :
    (s.frozenAt cycles notack).reg (rDbgFrzAck k) = ackWord (fun d => !notack.testBit d) k := by
  rcases hk with rfl | rfl <;> simp [State.frozenAt, rDbgFrzCnt, rDbgFrzStat, rDbgFrzAck, rDbg]

/-- The time before completion passes. -/
def State.freezePassed (s : State) : State := { ({ s with mode := .run } : State).each timeRegs State.timePass with mode := .halted }
theorem State.freezePassed_mode (s : State) : s.freezePassed.mode = .halted := by
  unfold State.freezePassed
  dsimp only
theorem State.freezePassed_waited (s : State) : waited s s.freezePassed := by
  have hregs : ∀ a ∈ timeRegs, rDbgFrzCnt ≠ a := by decide
  have hrun : waited s { s with mode := .run } := .same rfl rfl rfl rfl rfl rfl
  have hpass := hrun.trans (waited_each (fun t a ha => t.timePass_waited (hregs a ha)) _)
  unfold State.freezePassed
  generalize State.each _ timeRegs State.timePass = t at hpass ⊢
  exact hpass.trans (.same rfl rfl rfl rfl rfl rfl)

theorem State.freezeDone_frame (s : State) (cycles notack : Nat) : ∃ dbg ses,
    s.freezeDone cycles notack = { s.freezePassed with regs := (s.freezePassed.frozenAt cycles notack).regs, dbg := dbg, ses := ses } := by
  have h : s.freezeDone cycles notack = State.stopClocks { s.freezePassed.frozenAt cycles notack with
      dbg := { (s.freezePassed.frozenAt cycles notack).dbg with notack := notack, late := 0, aon := (s.freezePassed.frozenAt cycles notack).aon } }
      (members 32 (fun n => decide ((notack / 2 ^ (27 + n)) % 2 = 1))) := by
    unfold State.freezeDone State.stopClocks State.freezePassed State.frozenAt
    dsimp only
  have hregs := s.freezePassed.frozenAt_onlyRegs cycles notack
  rw [h, State.stopClocks_frame]
  clear h
  generalize s.freezePassed.frozenAt cycles notack = u at hregs ⊢
  generalize s.freezePassed = p at hregs ⊢
  unfold onlyRegs at hregs
  generalize (State.stopClocks _ _).ses = ses
  refine ⟨{ u.dbg with notack := notack, late := 0, aon := u.aon }, ses, ?_⟩
  rw [hregs]

/-- The state at completion, with the domains of `notack` not acknowledged. -/
theorem State.freezeDone_leaves (s : State) (cycles notack : Nat) :
    let t := s.freezeDone cycles notack
    t.rfld rDbgFrzStat 0 2 = 2 ∧ t.mode = .halted ∧ t.stands = s.stands ∧ t.chans = s.chans ∧
    (s.sp.copy = none → ticked (s.reg rDbgFrzCnt) (t.reg rDbgFrzCnt) 0 16 ∧ dataKept s t) ∧
    t.rfld rDbgFrzCnt 16 16 = min 65535 cycles ∧ ∀ d, d < 60 → t.rbit (rDbgFrzAck (d / 32)) (d % 32) = !notack.testBit d := by
  obtain ⟨hstands, hchans, hdata⟩ := s.freezePassed_waited
  have hmode := s.freezePassed_mode
  intro t
  obtain ⟨dbg, ses, ht⟩ := s.freezeDone_frame cycles notack
  change t = _ at ht
  clear_value t
  generalize s.freezePassed = u at hstands hchans hdata hmode ht
  have hreg (a : Nat) : t.reg a = (u.frozenAt cycles notack).reg a := State.reg_eq_of_regs_eq (by rw [ht]) a
  have hold : t.mode = u.mode ∧ t.stands = u.stands ∧ t.chans = u.chans ∧ t.threads = u.threads ∧ t.mem = u.mem := by
    rw [ht]
    exact ⟨rfl, rfl, rfl, rfl, rfl⟩
  clear ht
  obtain ⟨tmode, tstands, tchans, tthreads, tmem⟩ := hold
  have hcnt := (hreg _).trans (u.reg_frozenAt_cnt cycles notack)
  refine ⟨?_, tmode.trans hmode, tstands.trans hstands, tchans.trans hchans, fun hcopy => ?_, ?_, fun d hd => ?_⟩
  · rw [State.rfld, hreg, State.reg_frozenAt_stat, fld_setFld_same _ _ _ _ (by decide)]
    rfl
  · obtain ⟨-, ⟨hthreads, -, hmem⟩, hold⟩ := hdata hcopy
    refine ⟨?_, tthreads.trans hthreads, tchans.trans hchans, tmem.trans hmem⟩
    rw [hcnt, hold, ticked, fld_setFld_other _ _ _ _ _ _ (by decide) (by decide), fld_satFld _ _ _ (by decide)]
  · rw [State.rfld, hcnt, fld_setFld_same _ _ _ _ (by decide)]
    exact Nat.mod_eq_of_lt (by omega)
  · rw [State.rbit, hreg, State.reg_frozenAt_ack _ _ _ (by omega), getLsbD_ackWord _ hd]

end Machine
end Sys2Proof
end

section
/-! O54: what an end of a freeze leaves unchanged (R532). -/
namespace Sys2Proof
namespace Machine

/-- The registers that the resumption of the units writes: causes of restarts, the PG unit, the recorder's count of lost updates, OTP. -/
def resumeReg (a : Nat) : Prop := (∃ n, n < 16 ∧ a = rStcCause n) ∨ (0x670000 ≤ a ∧ a < 0x680000) ∨ a = rErQlost ∨ 0x6C0000 ≤ a

/-- What the resumption of the units keeps; a stand that has an alarm as its cause keeps it. -/
def resumeKeeps (s t : State) : Prop :=
  (t.mode = s.mode ∧ t.frzTrig = s.frzTrig ∧ t.sec = s.sec ∧ t.bt = s.bt ∧ t.ports = s.ports ∧ t.det = s.det ∧ dataKept s t) ∧
  sameRegs s t resumeReg ∧ ∀ n, (s.stand n).causes.testBit 6 = true → (t.stand n).causes.testBit 6 = true

theorem resumeKeeps.refl (s : State) : resumeKeeps s s := ⟨⟨rfl, rfl, rfl, rfl, rfl, rfl, rfl, rfl, rfl⟩, fun _ _ => rfl, fun _ h => h⟩
theorem resumeKeeps.trans {s t u : State} (h : resumeKeeps s t) (k : resumeKeeps t u) : resumeKeeps s u := by
  obtain ⟨⟨h1, h2, h3, h4, h5, h6, h7, h8, h9⟩, hregs, hstand⟩ := h
  obtain ⟨⟨k1, k2, k3, k4, k5, k6, k7, k8, k9⟩, kregs, kstand⟩ := k
  exact ⟨⟨k1.trans h1, k2.trans h2, k3.trans h3, k4.trans h4, k5.trans h5, k6.trans h6, k7.trans h7, k8.trans h8, k9.trans h9⟩,
    fun a ha => (kregs a ha).trans (hregs a ha), fun n hn => kstand n (hstand n hn)⟩
/-- A change of registers of its own, and of no unit that it keeps. -/
theorem resumeKeeps.setReg (s : State) {a : Nat} (ha : resumeReg a) (v : Word) : resumeKeeps s (s.setReg a v) :=
  ⟨⟨rfl, rfl, rfl, rfl, rfl, rfl, rfl, rfl, rfl⟩, fun b hb => by rw [State.reg_setReg, if_neg]; exact fun h => hb (h ▸ ha), fun _ h => h⟩
theorem resumeKeeps.modReg (s : State) {a : Nat} (ha : resumeReg a) (f : Word → Word) : resumeKeeps s (s.modReg a f) := .setReg s ha _
theorem resumeKeeps_foldl {α : Type} {l : List α} {f : State → α → State} (hf : ∀ t, ∀ n ∈ l, resumeKeeps t (f t n)) (s : State) :
    resumeKeeps s (l.foldl f s) :=
  List.foldlRecOn l f (.refl s) fun t h n hn => h.trans (hf t n hn)

theorem resumeReg_pg {a : Nat} (hlo : 0x670000 ≤ a) (hhi : a < 0x680000) : resumeReg a := .inr (.inl ⟨hlo, hhi⟩)
theorem resumeReg_cause {n : Nat} (hn : n < 16) : resumeReg (rStcCause n) := .inl ⟨n, hn, rfl⟩

theorem State.recBin_resumeKeeps (s : State) (unit metric index bin sev : Nat) : resumeKeeps s (s.recBin unit metric index bin sev) := by
  refine ⟨?_, fun a ha => State.reg_recBin _ _ _ _ _ _ fun h => ha (.inr (.inr (.inl h))), fun n hn => ?_⟩
  · rw [State.recBin_eq, State.recPush_frame]
    exact ⟨rfl, rfl, rfl, rfl, rfl, rfl, rfl, rfl, rfl⟩
  · rw [State.stand, State.recBin_eq, (s.recPush_fields _).2.2.2.2.2.2.2.2.2.1]
    exact hn

/-! ### Pins -/

theorem State.modPin_resumeKeeps (s : State) (n : Nat) (f : Pin → Pin) : resumeKeeps s (s.modPin n f) :=
  ⟨⟨rfl, rfl, rfl, rfl, rfl, rfl, rfl, rfl, rfl⟩, fun _ _ => rfl, fun _ h => h⟩
theorem State.modZone_resumeKeeps (s : State) (z : Nat) (f : Zone → Zone) : resumeKeeps s (s.modZone z f) :=
  ⟨⟨rfl, rfl, rfl, rfl, rfl, rfl, rfl, rfl, rfl⟩, fun _ _ => rfl, fun _ h => h⟩
theorem State.pulse_resumeKeeps (s : State) (q : Nat) : resumeKeeps s (s.pulse q) :=
  ⟨⟨rfl, rfl, rfl, rfl, rfl, rfl, rfl, rfl, rfl⟩, fun _ _ => rfl, fun _ h => h⟩

theorem State.chargeExempt_resumeKeeps (s : State) {z : Nat} (hz : z < 8) (q : Nat) : resumeKeeps s (s.chargeExempt z q) := by
  have hreg : resumeReg (rPgZStat z) := resumeReg_pg (by simp only [rPgZStat, rPgZ]; omega) (by simp only [rPgZStat, rPgZ]; omega)
  unfold State.chargeExempt
  extract_lets s1 s2
  have h1 : resumeKeeps s s1 := s.modZone_resumeKeeps z _
  have h2 : resumeKeeps s s2 := h1.trans (.modReg s1 hreg _)
  clear_value s2 s1
  split
  · split
    · exact h2
    · exact h2.trans ((s2.modZone_resumeKeeps z _).trans (State.recBin_resumeKeeps _ _ _ _ _ _))
  · exact h1
theorem State.chargeOwed_resumeKeeps (s : State) : resumeKeeps s s.chargeOwed :=
  resumeKeeps_foldl (fun t n _ => (t.modPin_resumeKeeps n _).trans (State.chargeExempt_resumeKeeps _ (fld_lt _ 0 3) _)) s

theorem State.sampleClamp_resumeKeeps (s : State) {n : Nat} (hn : n < 192) : resumeKeeps s (s.sampleClamp n) := by
  have hreg : resumeReg (rPgPinStat n) := resumeReg_pg (by simp only [rPgPinStat]; omega) (by simp only [rPgPinStat]; omega)
  unfold State.sampleClamp
  extract_lets s1
  have h1 : resumeKeeps s s1 := ((s.modPin_resumeKeeps n _).trans (.modReg _ hreg _)).trans (.modReg _ hreg _)
  clear_value s1
  exact h1.trans ((s1.modZone_resumeKeeps _ _).trans (State.pulse_resumeKeeps _ _))
theorem State.sampleHeldClamps_resumeKeeps (s : State) : resumeKeeps s s.sampleHeldClamps :=
  resumeKeeps_foldl (fun t _ hn => t.sampleClamp_resumeKeeps (List.mem_range.1 (List.mem_of_mem_filter hn))) s

/-! ### Clocks, OTP, alarms -/

theorem State.seClockOn_resumeKeeps (s : State) (n : Nat) : resumeKeeps s (s.seClockOn n) := by
  unfold State.seClockOn
  split
  · exact .refl s
  · split
    · exact ⟨⟨rfl, rfl, rfl, rfl, rfl, rfl, rfl, rfl, rfl⟩, fun _ _ => rfl, fun _ h => h⟩
    · exact .refl s

theorem State.loadMirror_resumeKeeps (s : State) : resumeKeeps s s.loadMirror := by
  have hmirror (w : Nat) : resumeReg (rOtpMirror w) := .inr (.inr (.inr (by simp only [rOtpMirror]; omega)))
  have hstat : resumeReg rOtpStat := .inr (.inr (.inr (by decide)))
  unfold State.loadMirror
  extract_lets s1
  have h1 : resumeKeeps s s1 := resumeKeeps_foldl (fun t w _ => .setReg t (hmirror w) _) s
  clear_value s1
  exact h1.trans (.setReg s1 hstat _)
theorem State.otpEnd_resumeKeeps (s : State) (o : OtpOp) : resumeKeeps s (s.otpEnd o) := by
  have hstat : resumeReg rOtpStat := .inr (.inr (.inr (by decide)))
  unfold State.otpEnd
  extract_lets whole ok b s1
  have h1 : resumeKeeps s s1 := ⟨⟨rfl, rfl, rfl, rfl, rfl, rfl, rfl, rfl, rfl⟩, fun _ _ => rfl, fun _ h => h⟩
  clear_value s1 ok
  split
  · exact (h1.trans s1.loadMirror_resumeKeeps).trans (.modReg _ hstat _)
  · exact h1.trans (.modReg _ hstat _)
theorem State.otpResume_resumeKeeps (s : State) : resumeKeeps s s.otpResume := by
  unfold State.otpResume
  split
  · split
    · exact s.otpEnd_resumeKeeps _
    · exact .refl s
  · exact .refl s

theorem State.modStand_resumeKeeps (s : State) (n : Nat) {f : Stand → Stand} (hf : ∀ d, d.causes.testBit 6 = true → (f d).causes.testBit 6 = true) :
    resumeKeeps s (s.modStand n f) := by
  refine ⟨⟨rfl, rfl, rfl, rfl, rfl, rfl, rfl, rfl, rfl⟩, fun _ _ => rfl, fun k hk => ?_⟩
  rw [State.stand_modStand]
  split
  · next h =>
    subst h
    exact hf _ hk
  · exact hk
theorem testBit_or_of_left {x : Nat} (y : Nat) {b : Nat} (h : x.testBit b = true) : (x ||| y).testBit b = true := by
  rw [Nat.testBit_or, h, Bool.true_or]
theorem State.askStand_resumeKeeps (s : State) {n : Nat} (hn : n < 16) (bit alarm : Nat) : resumeKeeps s (s.askStand n bit alarm) := by
  have hcause : resumeKeeps s (s.latchCause n bit alarm) := by
    unfold State.latchCause
    dsimp only
    have hset : resumeKeeps s (s.rset (rStcCause n) bit) := .modReg s (resumeReg_cause hn) _
    split
    · exact hset.trans (.modReg _ (resumeReg_cause hn) _)
    · exact hset
  unfold State.askStand
  split
  · exact .refl s
  · split
    · exact hcause.trans (State.modStand_resumeKeeps _ n fun d hd => testBit_or_of_left _ hd)
    · exact State.modStand_resumeKeeps _ n fun d hd => testBit_or_of_left _ hd
theorem State.alarmStands_resumeKeeps (s : State) (src mask : Nat) : resumeKeeps s (s.alarmStands src mask) :=
  resumeKeeps_foldl (fun t _ hn => t.askStand_resumeKeeps (List.mem_range.1 (List.mem_of_mem_filter hn)) 6 src) s

/-! ### What depends on the registers kept -/

theorem resumeKeeps.reg {s t : State} (h : resumeKeeps s t) {a : Nat} (ha : ¬ resumeReg a) : t.reg a = s.reg a := h.2.1 a ha
theorem not_resumeReg_rStcStat {n : Nat} (hn : n < 16) : ¬ resumeReg (rStcStat n) := by
  simp only [resumeReg, rStcStat, rStcCause, rStc, rErQlost, rEr]
  omega
theorem resumeKeeps.standState {s t : State} (h : resumeKeeps s t) {n : Nat} (hn : n < 16) : t.standState n = s.standState n := by
  rw [State.standState, State.standState, State.rfld, State.rfld, h.reg (not_resumeReg_rStcStat hn)]

end Machine
end Sys2Proof
end

section
/-! O54: the end of a freeze (R532), alarms in a freeze (R507), and late clocks (R531). -/
namespace Sys2Proof
namespace Machine

/-! ### Alarms held in the freeze -/

/-- The stand has an alarm as a cause. -/
def State.alarmed (s : State) (n : Nat) : Prop := (s.stand n).causes.testBit 6 = true

theorem State.askStand_alarmed {s : State} {n : Nat} (hstart : s.standState n ≠ 0) (hrel : s.standState n ≠ 5) (alarm : Nat) :
    (s.askStand n 6 alarm).alarmed n := by
  have hbit (x : Nat) : (x ||| 2 ^ 6).testBit 6 = true := by
    rw [Nat.testBit_or, Nat.testBit_two_pow_self, Bool.or_true]
  unfold State.askStand
  rw [if_neg (not_or.2 ⟨hstart, hrel⟩)]
  split
  all_goals
    rw [State.alarmed, State.stand_modStand, if_pos rfl]
    exact hbit _

/-- One element of a fold does what nothing after it undoes. -/
theorem alarmed_foldl {α : Type} {l : List α} {f : State → α → State} {x : α} {n : Nat} (hx : x ∈ l) {s : State}
    (hf : ∀ t, ∀ y ∈ l, resumeKeeps t (f t y)) (hdo : ∀ t, resumeKeeps s t → (f t x).alarmed n) : (l.foldl f s).alarmed n := by
  obtain ⟨l1, l2, rfl⟩ := List.append_of_mem hx
  rw [List.foldl_append, List.foldl_cons]
  have hbefore := resumeKeeps_foldl (l := l1) (fun t y hy => hf t y (List.mem_append_left _ hy)) s
  have hafter := resumeKeeps_foldl (l := l2) (fun t y hy => hf t y (List.mem_append_right _ (List.mem_cons_of_mem _ hy))) (f (l1.foldl f s) x)
  exact hafter.2.2 n (hdo _ hbefore)

theorem getLsbD_upperHalf (w : Word) {n : Nat} (hn : n < 16) : (BitVec.ofNat 16 (fld w 16 16)).getLsbD n = w.getLsbD (16 + n) := by
  rw [BitVec.getLsbD_ofNat, fld, Nat.testBit_mod_two_pow, Nat.testBit_div_two_pow, BitVec.testBit_toNat, Nat.add_comm]
  simp [hn]

theorem State.alarmStands_alarmed {s : State} {src n mask : Nat} (hn : n < 16) (hmask : (BitVec.ofNat 16 mask).getLsbD n = true)
    (hstart : s.standState n ≠ 0) (hrel : s.standState n ≠ 5) : (s.alarmStands src mask).alarmed n := by
  have hmem : n ∈ members 16 fun n => (BitVec.ofNat 16 mask).getLsbD n := List.mem_filter.2 ⟨List.mem_range.2 hn, hmask⟩
  refine alarmed_foldl hmem (fun t y hy => t.askStand_resumeKeeps (List.mem_range.1 (List.mem_of_mem_filter hy)) 6 src) fun t ht => ?_
  have hstate := ht.standState hn
  exact State.askStand_alarmed (hstate ▸ hstart) (hstate ▸ hrel) src

/-- The alarms held in a freeze come to their stands. -/
def State.heldAlarms (s : State) (l : List Nat) : State := l.foldl (fun s src => s.alarmStands src (fld (s.reg (rSecResp src)) 16 16)) s
theorem State.heldAlarms_resumeKeeps (s : State) (l : List Nat) : resumeKeeps s (s.heldAlarms l) :=
  resumeKeeps_foldl (fun t src _ => t.alarmStands_resumeKeeps src _) s
theorem State.heldAlarms_alarmed {s : State} {l : List Nat} {src n : Nat} (hmem : src ∈ l) (hsrc : src < 16) (hn : n < 16)
    (hresp : (s.reg (rSecResp src)).getLsbD (16 + n) = true) (hstart : s.standState n ≠ 0) (hrel : s.standState n ≠ 5) :
    (s.heldAlarms l).alarmed n := by
  have hreg : ¬ resumeReg (rSecResp src) := by
    simp only [resumeReg, rSecResp, rSec, rStcCause, rStc, rErQlost, rEr]
    omega
  refine alarmed_foldl hmem (fun t src _ => t.alarmStands_resumeKeeps src _) fun t ht => ?_
  have hstate := ht.standState hn
  refine State.alarmStands_alarmed hn ?_ (hstate ▸ hstart) (hstate ▸ hrel)
  rw [ht.reg hreg, getLsbD_upperHalf _ hn, hresp]

/-! ### RESUME -/

/-- The freeze is over: the state in which the units resume. -/
def State.freezeEnded (s : State) : State :=
  let s1 : State := { s with
    mode := .run
    frzTrig := []
    bt := { s.bt with first := true }
    sec := { s.sec with held := [], frzSrc := none }
    dbg := { s.dbg with notack := 0, late := 0, excl := false }
    ports := { s.ports with cpDiscard := s.ports.cpCur.isSome }
    boot := { s.boot with otp := s.boot.otp.map (fun o => { o with stepped := false }) } }
  let s2 := ((s1.rsetFld rDbgFrzStat 0 2 0).setReg (rDbgFrzAck 0) 0#32).setReg (rDbgFrzAck 1) 0#32
  if s.dbg.excl then s2.rset rSpTtStat 18 else s2
/-- The units resume but for the stands. -/
def State.unitsResume (s : State) (held : List Nat) : State := (s.chargeOwed.heldAlarms held).otpResume
/-- Held clamps are sampled and the sequencers' clocks start. -/
def State.clocksResume (s : State) : State := s.sampleHeldClamps.each (List.range 32) State.seClockOn

theorem State.unfreeze_eq (s : State) : s.unfreeze = (s.freezeEnded.unitsResume s.sec.held).duePolicies.letGo.clocksResume := rfl
theorem State.unitsResume_resumeKeeps (s : State) (held : List Nat) : resumeKeeps s (s.unitsResume held) :=
  (s.chargeOwed_resumeKeeps.trans (State.heldAlarms_resumeKeeps _ held)).trans (State.otpResume_resumeKeeps _)
theorem State.clocksResume_resumeKeeps (s : State) : resumeKeeps s s.clocksResume :=
  s.sampleHeldClamps_resumeKeeps.trans (resumeKeeps_foldl (fun t n _ => t.seClockOn_resumeKeeps n) _)
theorem State.duePolicies_none {s : State} (h : s.det.due = []) : s.duePolicies = s := by
  unfold State.duePolicies
  rw [h]
  show ({ s with det := { s.det with due := [] } } : State) = s
  rw [← h]

/-- The registers that the end of a freeze writes. -/
def endedReg (a : Nat) : Prop := a = rDbgFrzStat ∨ a = rDbgFrzAck 0 ∨ a = rDbgFrzAck 1 ∨ a = rSpTtStat
theorem State.freezeEnded_keeps (s : State) : s.freezeEnded.mode = .run ∧ s.freezeEnded.frzTrig = [] ∧ s.freezeEnded.sec.held = [] ∧
    s.freezeEnded.bt.first = true ∧ s.freezeEnded.ports.cpDiscard = s.ports.cpCur.isSome ∧ s.freezeEnded.det = s.det ∧
    s.freezeEnded.stands = s.stands ∧ dataKept s s.freezeEnded := by
  unfold State.freezeEnded
  extract_lets bt sec dbg ports boot s1 s2
  have h2 : onlyRegs s1 s2 := (((onlyRegs.refl s1).rsetFld ..).setReg ..).setReg ..
  have hlast : onlyRegs s1 (if s.dbg.excl = true then s2.rset rSpTtStat 18 else s2) := by
    split
    · exact h2.rset ..
    · exact h2
  unfold onlyRegs at hlast
  rw [hlast]
  exact ⟨rfl, rfl, rfl, rfl, rfl, rfl, rfl, rfl, rfl, rfl⟩
theorem State.freezeEnded_sameRegs (s : State) : sameRegs s s.freezeEnded endedReg := by
  intro a ha
  obtain ⟨hstat, hack0, hack1, htt⟩ : a ≠ rDbgFrzStat ∧ a ≠ rDbgFrzAck 0 ∧ a ≠ rDbgFrzAck 1 ∧ a ≠ rSpTtStat := by
    simpa only [endedReg, not_or] using ha
  unfold State.freezeEnded
  extract_lets bt sec dbg ports boot s1 s2
  have h2 : s2.reg a = s.reg a := by
    rw [State.reg_setReg, if_neg hack1, State.reg_setReg, if_neg hack0, State.reg_rsetFld, if_neg hstat]
    rfl
  clear_value s2
  split
  · rw [State.reg_rset, if_neg htt, h2]
  · exact h2
theorem State.freezeEnded_stat (s : State) : s.freezeEnded.rfld rDbgFrzStat 0 2 = 0 := by
  unfold State.freezeEnded
  extract_lets bt sec dbg ports boot s1 s2
  have h2 : s2.reg rDbgFrzStat = setFld (s1.reg rDbgFrzStat) 0 2 0 := by simp [s2, rDbgFrzStat, rDbgFrzAck, rDbg]
  have hlast : (if s.dbg.excl = true then s2.rset rSpTtStat 18 else s2).reg rDbgFrzStat = setFld (s1.reg rDbgFrzStat) 0 2 0 := by
    rw [← h2]
    clear_value s2
    split
    · rw [State.reg_rset, if_neg (by decide)]
    · rfl
  rw [State.rfld, hlast, fld_setFld_same _ _ _ _ (by decide)]
  rfl
theorem State.freezeEnded_standState (s : State) {n : Nat} (hn : n < 16) : s.freezeEnded.standState n = s.standState n := by
  rw [State.standState, State.rfld, s.freezeEnded_sameRegs, State.standState, State.rfld]
  simp only [endedReg, rStcStat, rStc, rDbgFrzStat, rDbgFrzAck, rDbg, rSpTtStat, rSp]
  omega

/-! ### Stands let go -/

theorem State.standReleaseNow_running (s : State) (n : Fin 16) : (s.standReleaseNow n).standState n = 1 := by
  obtain ⟨-, -, hfld⟩ := s.standReleaseNow_releaseKeeps n
  rw [State.standState, hfld _ _ (by decide)]
  simp [State.rfld, fld_setFld_other, fld_setFld_same]
theorem State.standReleaseNow_other (s : State) (n : Fin 16) {k : Nat} (hk : k < 16) (hne : k ≠ n) :
    (s.standReleaseNow n).standState k = s.standState k := by
  obtain ⟨-, hregs, -⟩ := s.standReleaseNow_releaseKeeps n
  have hstat : rStcStat k ≠ rStcStat n := by
    simp only [rStcStat, rStc]
    omega
  have hkept : (s.standReleaseNow n).reg (rStcStat k) = s.reg (rStcStat k) := by
    refine (hregs _ ?_).trans (by simp [hstat])
    rintro (h | h | h)
    · exact absurd h (Nat.not_le.2 (rStcStat_lt ⟨k, hk⟩))
    · exact hstat h
    · exact rStcStat_ne_rStcRcnt _ _ h
  simp only [State.standState, State.rfld, hkept]
/-- A stand that is let go runs, whatever stands are let go after it. -/
theorem State.released_running {l : List Nat} (hl : ∀ k ∈ l, k < 16) {n : Nat} (hn : n < 16) (s : State) (h : n ∈ l ∨ s.standState n = 1) :
    (s.each l State.standReleaseNow).standState n = 1 := by
  induction l generalizing s with
  | nil => exact h.resolve_left List.not_mem_nil
  | cons k l ih =>
    have hk : k < 16 := hl k List.mem_cons_self
    refine ih (fun j hj => hl j (List.mem_cons_of_mem _ hj)) (s.standReleaseNow k) ?_
    by_cases hkn : n = k
    · subst hkn
      exact .inr (s.standReleaseNow_running ⟨n, hn⟩)
    · rw [s.standReleaseNow_other ⟨k, hk⟩ hn hkn]
      exact h.imp_left fun h => (List.mem_cons.1 h).resolve_left hkn
theorem State.letGo_running {s : State} {n : Nat} (hn : n < 16) (hheld : s.standState n = 4) (hfree : s.rbit rDbgShold n = false) :
    s.letGo.standState n = 1 :=
  State.released_running (fun _ hk => List.mem_range.1 (List.mem_of_mem_filter hk)) hn s
    (.inl (List.mem_filter.2 ⟨List.mem_range.2 hn, by simp [hheld, hfree]⟩))
theorem State.letGo_none {s : State} (h : ∀ j, j < 16 → s.standState j ≠ 4) : s.letGo = s := by
  have hnone : members 16 (fun n => decide (s.standState n = 4) && !s.rbit rDbgShold n) = [] := by
    rw [members, List.filter_eq_nil_iff]
    intro j hj
    simp [h j (List.mem_range.1 hj)]
  rw [State.letGo, hnone]
  rfl

end Machine
end Sys2Proof
end

section
/-! O54: commands in a freeze (R530, R531), late clocks, and the obligation. -/
namespace Sys2Proof
namespace Machine

/-! ### Commands that wait for the freeze to end -/

section
variable {s : State} (hm : s.mode = .halted)
include hm

theorem answers_of_gated_halted {c : Instr} {t : State} (hc : exec c s = .next (s.gated t)) : answers c s fun t => t = s :=
  ⟨_, hc, s.gated_halted t hm⟩
theorem answers_of_if_halted {c : Instr} {b : Bool} {t : State} (hb : b = false) (hc : exec c s = .next (if b then t else s)) :
    answers c s fun t => t = s :=
  ⟨_, hc, by simp [hb]⟩
theorem State.tmRuns_halted (n : Nat) : s.tmRuns n = false := by simp [State.tmRuns, hm]
theorem State.seRuns_halted (n : Nat) : s.seRuns n = false := by simp [State.seRuns, hm]
theorem State.lkOn_halted (n : Nat) : s.lkOn n = false := by simp [State.lkOn, hm]
theorem State.canIssue_halted (t : Nat) (cp : Bool) : s.canIssue t cp = false := by simp [State.canIssue, hm]
theorem State.issue_halted (i : Iss) (cp : Bool) (pre : Thread → Option TrapInfo) (body : Thread → State → State × Option (BitVec 64)) :
    s.issue i cp pre body = s := by simp [State.issue, State.canIssue_halted hm]

theorem timerMatch_halted (n : Fin 64) : answers (.timerMatch n) s fun t => t = s :=
  answers_of_if_halted hm (by simp [State.tmRuns_halted hm]) rfl
theorem timerWrap_halted (n : Fin 64) : answers (.timerWrap n) s fun t => t = s :=
  answers_of_if_halted hm (by simp [State.tmRuns_halted hm]) rfl
theorem laneRecordApply_halted (e : Fin 32) : answers (.laneRecordApply e) s fun t => t = s := by
  refine ⟨s, ?_, rfl⟩
  show execLaneRecordApply e s = _
  unfold execLaneRecordApply
  split
  · rfl
  · rw [if_pos (by simp [hm])]
theorem sePush_halted (e : Fin 32) (nb keep : Bool) (tm : Fin 16) : answers (.sePush e nb keep tm) s fun t => t = s := by
  refine ⟨_, rfl, ?_⟩
  simp [State.seExec, State.seRuns_halted hm]
theorem linkKeepalive_halted (k : Fin 4) : answers (.linkKeepalive k) s fun t => t = s :=
  answers_of_if_halted hm (by simp [State.lkOn_halted hm]) rfl
theorem governorWindowStart_halted : answers .governorWindowStart s fun t => t = s :=
  ⟨_, rfl, if_neg (by simp [hm])⟩
theorem recorderUpdateApply_halted (bad : List (Fin 256)) : answers (.recorderUpdateApply bad) s fun t => t = s := by
  refine ⟨s, ?_, rfl⟩
  show execRecorderUpdateApply bad s = _
  unfold execRecorderUpdateApply
  split
  · rfl
  · rw [if_pos hm]
theorem cipherRequest_halted : answers .cipherRequest s fun t => t = s := ⟨_, rfl, if_pos (.inl hm)⟩
theorem hostResponse_halted : answers .hostResponse s fun t => t = s := ⟨_, rfl, if_pos hm⟩
theorem padClampPulse_halted (n : Fin 192) : answers (.padClampPulse n) s fun t => (t.pin n).clamp = true ∧ t.regs = s.regs ∧ dataKept s t := by
  refine ⟨_, rfl, ?_⟩
  rw [if_pos hm]
  exact ⟨by simp [State.pin, State.modPin], rfl, rfl, rfl, rfl⟩

end

/-! ### A late clock -/

theorem State.unhold_none {s : State} {t : Tid} (h : (s.thr t).held = []) : s.unhold t = s := by
  rw [State.unhold, h]
  rfl
theorem State.waitedLoads_none {s : State} {t : Tid} (h : (s.thr t).defer = []) : s.waitedLoads t = s := by
  unfold State.waitedLoads
  rw [h]
  split <;> rfl
theorem State.hostPump_none {s : State} (h : s.ports.hostQ = []) (n : Nat) : s.hostPump n = s := by
  cases n with
  | zero => rfl
  | succ n =>
    rw [State.hostPump, h]
    split <;> rfl
theorem foldl_same {α : Type} (l : List α) {f : State → α → State} {s : State} (hf : ∀ x, f s x = s) : l.foldl f s = s :=
  List.foldlRecOn (motive := fun t => t = s) l f rfl fun t h x _ => by rw [h, hf]
theorem State.seClockOn_ses (s : State) (n : Nat) : s.seClockOn n = { s with ses := (s.seClockOn n).ses } := by
  unfold State.seClockOn
  split
  · rfl
  · split <;> rfl
theorem State.seClockOn_se {s : State} {n : Nat} (h : (s.se n).stopped = false) :
    (s.seClockOn n).se n = { s.se n with inRst := (s.se n).inRst && decide (s.standState (s.seStand n) ≠ 1) } := by
  unfold State.seClockOn
  rw [if_neg (by simp [h])]
  split
  · next hrun => simp [hrun]
  · next hrun => simp [hrun]

/-! ### The clauses -/

theorem rDbgCmdStat_ne : rDbgFrzCause ≠ rDbgCmdStat ∧ rDbgFrzStat ≠ rDbgCmdStat := by decide
theorem State.started.dbgDone {s t : State} {bit : Nat} (h : s.started bit t) : s.started bit t.dbgDone := by
  obtain ⟨hcause, hstat⟩ := rDbgCmdStat_ne
  have hreg {a : Nat} (ha : a ≠ rDbgCmdStat) : t.dbgDone.reg a = t.reg a := by rw [State.dbgDone, State.reg_rset, if_neg ha]
  unfold State.started at h ⊢
  simp only [State.rbit, hreg hcause, hreg hstat]
  exact h
theorem dbgFreeze_open {s : State} (h : s.dbgOpen = true) : answers .dbgFreeze s fun t => s.started 1 t ∧ t.rbit rDbgCmdStat 1 = true := by
  refine ⟨_, rfl, ?_⟩
  rw [State.dbgFreezeCmd, if_pos h]
  exact ⟨(s.freezeTrigger_started (by decide)).dbgDone, State.rbit_rset_same _ _ (by decide)⟩

/-- The domains that count as acknowledged from the start (R529). -/
theorem ackedFirst_iff (c : Config.Kind) (d : Fin 60) : ackedFirst c d.val = true ↔
    d.val = 14 ∨ d.val = 17 ∨ d.val = 18 ∨ d.val = 59 ∨ (d.val < 8 ∧ c.engines ≤ d.val) ∨
      (19 ≤ d.val ∧ d.val < 27 ∧ c.links ≤ (d.val - 19) % 4) ∨ (27 ≤ d.val ∧ d.val < 59 ∧ c.ses ≤ d.val - 27) := by
  simp only [ackedFirst, Bool.or_eq_true, Bool.and_eq_true, decide_eq_true_eq, List.mem_cons, List.not_mem_nil, or_false, or_assoc, and_assoc]

/-- The registers of a freeze request (R528). -/
def State.requestRegs (s : State) : State :=
  (((s.setReg rDbgFrzCause (BitVec.ofNat 32 (maskOf 7 (fun k => s.frzTrig.contains k)))).rsetFld rDbgFrzStat 0 2 1).setReg (rDbgFrzAck 0)
    (ackWord (ackedFirst s.kind) 0)).setReg (rDbgFrzAck 1) (ackWord (ackedFirst s.kind) 1)
theorem State.requestRegs_onlyRegs (s : State) : onlyRegs s s.requestRegs :=
  ((((onlyRegs.refl s).setReg ..).rsetFld ..).setReg ..).setReg ..
theorem State.requestRegs_cause (s : State) : s.requestRegs.reg rDbgFrzCause = BitVec.ofNat 32 (maskOf 7 (fun k => s.frzTrig.contains k)) := by
  simp [State.requestRegs, rDbgFrzCause, rDbgFrzStat, rDbgFrzAck, rDbg]
theorem State.requestRegs_stat (s : State) : s.requestRegs.reg rDbgFrzStat = setFld (s.reg rDbgFrzStat) 0 2 1 := by
  simp [State.requestRegs, rDbgFrzCause, rDbgFrzStat, rDbgFrzAck, rDbg]
theorem State.requestRegs_ack (s : State) {k : Nat} (hk : k = 0 ∨ k = 1) : s.requestRegs.reg (rDbgFrzAck k) = ackWord (ackedFirst s.kind) k := by
  rcases hk with rfl | rfl <;> simp [State.requestRegs, rDbgFrzAck, rDbg]
/-- What the next state of a request shows, of the registers written. -/
theorem requested_shows {s u : State} (hkept : onlyRegs s u) (hstat : u.reg rDbgFrzStat = setFld (s.reg rDbgFrzStat) 0 2 1)
    (hcause : u.reg rDbgFrzCause = BitVec.ofNat 32 (maskOf 7 (fun k => s.frzTrig.contains k))) (d : Fin 60)
    (hack : u.reg (rDbgFrzAck (d.val / 32)) = ackWord (ackedFirst s.kind) (d.val / 32)) :
    let t : State := { u with mode := .halted, frzTrig := [] }
    t.mode = .halted ∧ t.rfld rDbgFrzStat 0 2 = 1 ∧ t.frzTrig = [] ∧ (∀ k, k < 7 → t.rbit rDbgFrzCause k = s.frzTrig.contains k) ∧
    (t.rbit (rDbgFrzAck (d.val / 32)) (d.val % 32) = true ↔ ackedFirst s.kind d.val = true) ∧ dataKept s t := by
  have hreg (a : Nat) : ({ u with mode := .halted, frzTrig := [] } : State).reg a = u.reg a := State.reg_eq_of_regs_eq rfl a
  refine ⟨rfl, ?_, rfl, fun k hk => ?_, ?_, ?_⟩
  · rw [State.rfld, hreg, hstat, fld_setFld_same _ _ _ _ (by decide)]
    rfl
  · rw [State.rbit, hreg, hcause, getLsbD_maskOf (by omega)]
    simp [hk]
  · rw [State.rbit, hreg, hack, getLsbD_ackWord _ d.isLt]
  · unfold onlyRegs at hkept
    rw [hkept]
    exact ⟨rfl, rfl, rfl⟩
theorem freezeRequest_run {s : State} (hm : s.mode = .run) (htrig : s.frzTrig ≠ []) (d : Fin 60) : answers .freezeRequest s fun t =>
    t.mode = .halted ∧ t.rfld rDbgFrzStat 0 2 = 1 ∧ t.frzTrig = [] ∧ (∀ k, k < 7 → t.rbit rDbgFrzCause k = s.frzTrig.contains k) ∧
    (t.rbit (rDbgFrzAck (d.val / 32)) (d.val % 32) = true ↔ ackedFirst s.kind d.val = true) ∧ dataKept s t := by
  have hexec : exec .freezeRequest s = .next { s.requestRegs with mode := .halted, frzTrig := [] } := by
    show execFreezeRequest s = _
    have hgo : ¬ (s.mode ≠ .run ∨ s.frzTrig.isEmpty = true) := by simpa [hm] using htrig
    unfold execFreezeRequest State.requestRegs
    rw [if_neg hgo]
  exact ⟨_, hexec, requested_shows s.requestRegs_onlyRegs s.requestRegs_stat s.requestRegs_cause d (s.requestRegs_ack (by omega))⟩
theorem freezeRequest_none {s : State} (h : s.mode ≠ .run ∨ s.frzTrig = []) : answers .freezeRequest s fun t => t = s :=
  ⟨_, rfl, if_pos (by simpa using h)⟩

/-! ### Completion -/

theorem freezeComplete_done {s : State} (h : s.rfld rDbgFrzStat 0 2 = 1) (cycles : Nat) :
    answers (.freezeComplete cycles) s fun t => t = s.freezeDone cycles 0 := ⟨_, rfl, if_pos h⟩
/-- The domains that do not acknowledge in time (R529). -/
def lateDomains (c : Config.Kind) (stopped : List (Fin 60)) : Nat :=
  maskOf 60 (fun d => stopped.any (fun x => decide (x.val = d)) && !ackedFirst c d)
theorem lateDomains_iff (c : Config.Kind) (stopped : List (Fin 60)) (d : Fin 60) :
    (lateDomains c stopped).testBit d.val = true ↔ d ∈ stopped ∧ ¬ ackedFirst c d.val = true := by
  rw [lateDomains, testBit_maskOf]
  simp only [d.isLt, decide_true, Bool.true_and, Bool.and_eq_true, List.any_eq_true, decide_eq_true_eq, Bool.not_eq_true', Bool.not_eq_true]
  refine and_congr_left fun _ => ⟨?_, fun h => ⟨d, h, rfl⟩⟩
  rintro ⟨x, hx, hval⟩
  exact Fin.ext hval ▸ hx
theorem freezeAckTimeout_done {s : State} (h : s.rfld rDbgFrzStat 0 2 = 1) (stopped : List (Fin 60)) : answers (.freezeAckTimeout stopped) s fun t =>
    t = s.freezeDone (max 1 (s.rfld rDbgFrzCfg 0 16) * 256) (lateDomains s.kind stopped) := ⟨_, rfl, if_pos h⟩
theorem answers.imp {c : Instr} {s : State} {P Q : State → Prop} (h : answers c s P) (k : ∀ t, P t → Q t) : answers c s Q := by
  obtain ⟨t, ht, hp⟩ := h
  exact ⟨t, ht, k t hp⟩

/-! ### Alarms -/

theorem freezeAlarm_resets {s : State} (hm : s.mode = .halted) {src : Nat} {rest : List Nat} (hraised : s.raised = src :: rest)
    (h : (s.reg (rSecResp src)).getLsbD 1 = true ∨ (s.reg (rSecResp src)).getLsbD 3 = true) : answers .freezeAlarm s fun t =>
    t.mode = .boot ∧ t.phase = 1 ∧ t.threads = [] ∧ t.mem = [] ∧ t.reg rBcRstCause = BitVec.ofNat 32 (4 + 16 * src + 8 * b2n (s.rbit rBcRstCause 3)) := by
  have hexec : exec .freezeAlarm s = .next (({ s with raised := [] } : State).alarmReset src false false) := by
    show execFreezeAlarm s = _
    unfold execFreezeAlarm
    rw [if_neg (by simp [hm]), hraised]
    dsimp only
    rw [if_pos (by simpa using h)]
  have hcause := State.warmScope_reg_rBcRstCause { s with raised := [] } (4 + 2 ^ 4 * src + 2 ^ 8 * b2n false + 2 ^ 9 * b2n false)
  obtain ⟨r, hunits⟩ := State.warmScope_units { s with raised := [] } (4 + 2 ^ 4 * src + 2 ^ 8 * b2n false + 2 ^ 9 * b2n false)
  refine ⟨_, hexec, ?_⟩
  unfold State.alarmReset
  generalize State.warmScope _ _ = u at hcause hunits
  have hcnt : (u.rcount rBcWarmCnt 16 16 1).reg rBcRstCause = u.reg rBcRstCause := by rw [State.reg_rcount, if_neg (by decide)]
  refine ⟨?_, ?_, ?_, ?_, ?_⟩
  · rw [State.rcount_mode, hunits]
    rfl
  · rw [State.rcount_phase, hunits]
  · rw [State.rcount_threads, hunits]
    rfl
  · rw [State.rcount_mem, hunits]
    rfl
  · rw [hcnt, hcause]
    rfl
theorem State.alarmFreeze_halted {s : State} (hm : s.mode = .halted) (src : Nat) : s.alarmFreeze src =
    ({ s with sec := { s.sec with frzSrc := some (s.sec.frzSrc.getD src) } } : State).rset rDbgFrzCause 5 := by
  rw [State.alarmFreeze, if_pos (.inr hm), State.freezeTrigger]
  rw [hm]
theorem freezeAlarm_held {s : State} (hm : s.mode = .halted) {src : Nat} {rest : List Nat} (hraised : s.raised = src :: rest)
    (h1 : (s.reg (rSecResp src)).getLsbD 1 = false) (h3 : (s.reg (rSecResp src)).getLsbD 3 = false) : answers .freezeAlarm s fun t =>
    t.mode = .halted ∧ t.raised = rest ∧ t.sec.held = (if (s.reg (rSecResp src)).getLsbD 2 = true then s.sec.held ++ [src] else s.sec.held) ∧
    ((s.reg (rSecResp src)).getLsbD 0 = true → t.rbit rDbgFrzCause 5 = true) ∧ t.frzTrig = s.frzTrig ∧ t.stands = s.stands ∧ dataKept s t := by
  have hexec : exec .freezeAlarm s = .next (
      let s2 := if (s.reg (rSecResp src)).getLsbD 0 = true then ({ s with raised := rest } : State).alarmFreeze src else { s with raised := rest }
      if (s.reg (rSecResp src)).getLsbD 2 = true then { s2 with sec := { s2.sec with held := s2.sec.held ++ [src] } } else s2) := by
    show execFreezeAlarm s = _
    unfold execFreezeAlarm
    rw [if_neg (by simp [hm]), hraised]
    dsimp only
    rw [if_neg (by rw [h1, h3]; decide)]
  refine ⟨_, hexec, ?_⟩
  rw [State.alarmFreeze_halted (s := { s with raised := rest }) hm]
  have hfreeze (u : State) : onlyRegs u (u.rset rDbgFrzCause 5) ∧ (u.rset rDbgFrzCause 5).rbit rDbgFrzCause 5 = true :=
    ⟨(onlyRegs.refl u).rset .., State.rbit_rset_same _ _ (by decide)⟩
  generalize s.reg (rSecResp src) = r
  extract_lets sec s2
  have h2 : s2.mode = .halted ∧ s2.raised = rest ∧ s2.sec.held = s.sec.held ∧ (r.getLsbD 0 = true → s2.rbit rDbgFrzCause 5 = true) ∧
      s2.frzTrig = s.frzTrig ∧ s2.stands = s.stands ∧ dataKept s s2 := by
    unfold s2
    split
    · obtain ⟨honly, hbit⟩ := hfreeze { s with raised := rest, sec := { s.sec with frzSrc := some (s.sec.frzSrc.getD src) } }
      unfold onlyRegs at honly
      refine ⟨?_, ?_, ?_, fun _ => hbit, ?_, ?_, ?_, ?_, ?_⟩ <;> rw [honly]
      exact hm
    · next h0 => exact ⟨hm, rfl, rfl, fun h => absurd h h0, rfl, rfl, rfl, rfl, rfl⟩
  clear_value s2
  obtain ⟨hmode, hrest, hheld, hbit, htrig, hstands, hdata⟩ := h2
  split
  · exact ⟨hmode, hrest, by rw [hheld], hbit, htrig, hstands, hdata⟩
  · exact ⟨hmode, hrest, hheld, hbit, htrig, hstands, hdata⟩

/-! ### RESUME -/

theorem State.dbgRefuse_stat (s : State) {reason : Nat} (h : reason < 16) : (s.dbgRefuse reason).rbit rDbgCmdStat 2 = true ∧
    (s.dbgRefuse reason).rfld rDbgCmdStat 8 4 = reason := by
  have hreg : (s.dbgRefuse reason).reg rDbgCmdStat = setFld (setBit (s.reg rDbgCmdStat) 2) 8 4 reason := by simp [State.dbgRefuse]
  constructor
  · rw [State.rbit, hreg, getLsbD_setFld _ _ _ _ _ (by decide), getLsbD_setBit _ _ _ (by decide), if_neg (by decide), Bool.or_eq_true]
    exact .inr rfl
  · rw [State.rfld, hreg, fld_setFld_same _ _ _ _ (by decide)]
    exact Nat.mod_eq_of_lt h
theorem State.dbgRefuse_onlyRegs (s : State) (reason : Nat) : onlyRegs s (s.dbgRefuse reason) := ((onlyRegs.refl s).rset ..).rsetFld ..
theorem State.dbgRefuse_sameRegs (s : State) (reason : Nat) : sameRegs s (s.dbgRefuse reason) fun x => x = rDbgCmdStat := by
  intro a ha
  rw [State.dbgRefuse, State.reg_rsetFld, if_neg ha, State.reg_rset, if_neg ha]

section
variable {s : State} (hopen : s.dbgOpen = true)
include hopen

theorem resume_unfrozen (hst : s.rfld rDbgFrzStat 0 2 = 0) (b : Bool) : answers (.resume b) s fun t => t.rbit rDbgCmdStat 2 = true ∧
    t.rfld rDbgCmdStat 8 4 = 4 ∧ sameRegs s t (fun x => x = rDbgCmdStat) ∧ t = { s with regs := t.regs } := by
  have hexec : exec (.resume b) s = .next (s.dbgRefuse 4) := by
    show execResume b s = _
    simp only [execResume, State.dbgResume, hopen, hst, Bool.not_true, Bool.false_eq_true, if_false, if_true]
  obtain ⟨hbit, hreason⟩ := s.dbgRefuse_stat (reason := 4) (by decide)
  exact ⟨_, hexec, hbit, hreason, s.dbgRefuse_sameRegs 4, s.dbgRefuse_onlyRegs 4⟩
theorem resume_low (hst : s.rfld rDbgFrzStat 0 2 ≠ 0) : answers (.resume false) s fun t => t.rbit rDbgCmdStat 2 = true ∧
    t.rbit rDbgFrzStat 3 = true ∧ t.mode = s.mode ∧ t = { s with regs := t.regs } := by
  have hexec : exec (.resume false) s = .next ((s.dbgRefuse 4).rset rDbgFrzStat 3) := by
    show execResume false s = _
    simp only [execResume, State.dbgResume, hopen, hst, Bool.not_true, Bool.not_false, Bool.false_eq_true, if_false, if_true]
  obtain ⟨hbit, -⟩ := s.dbgRefuse_stat (reason := 4) (by decide)
  refine ⟨_, hexec, ?_, State.rbit_rset_same _ _ (by decide), rfl, (s.dbgRefuse_onlyRegs 4).rset ..⟩
  rw [State.rbit, State.reg_rset, if_neg (by decide)]
  exact hbit
theorem resume_high (hst : s.rfld rDbgFrzStat 0 2 ≠ 0) (hdue : s.det.due = []) : answers (.resume true) s fun t =>
    t = ((s.freezeEnded.unitsResume s.sec.held).letGo.clocksResume).dbgDone := by
  have hend := s.freezeEnded_keeps.2.2.2.2.2.1
  have hkept := s.freezeEnded.unitsResume_resumeKeeps s.sec.held
  have hdet : (s.freezeEnded.unitsResume s.sec.held).det.due = [] := by rw [hkept.1.2.2.2.2.2.1, hend, hdue]
  have hexec : exec (.resume true) s = .next s.unfreeze.dbgDone := by
    show execResume true s = _
    simp only [execResume, State.dbgResume, hopen, hst, Bool.not_true, Bool.false_eq_true, if_false]
  refine ⟨_, hexec, ?_⟩
  rw [State.unfreeze_eq, State.duePolicies_none hdet]
/-- A stand that the debugger does not hold goes on (R111). -/
theorem resume_letsGo (hst : s.rfld rDbgFrzStat 0 2 ≠ 0) (hdue : s.det.due = []) (hheld : s.sec.held = []) {n : Nat} (hn : n < 16)
    (hstate : s.standState n = 4) (hfree : s.rbit rDbgShold n = false) : answers (.resume true) s fun t => t.standState n = 1 := by
  refine (resume_high hopen hst hdue).imp fun t ht => ?_
  have hunits := s.freezeEnded.unitsResume_resumeKeeps s.sec.held
  have hshold : (s.freezeEnded.unitsResume s.sec.held).rbit rDbgShold n = false := by
    rw [State.rbit, hunits.reg (by simp only [resumeReg, rDbgShold, rDbg, rStcCause, rStc, rErQlost, rEr]; omega),
      s.freezeEnded_sameRegs _ (by simp only [endedReg, rDbgShold, rDbgFrzStat, rDbgFrzAck, rDbg, rSpTtStat, rSp]; omega)]
    exact hfree
  have hgo := State.letGo_running hn ((hunits.standState hn).trans ((s.freezeEnded_standState hn).trans hstate)) hshold
  have hclocks := (State.clocksResume_resumeKeeps (s.freezeEnded.unitsResume s.sec.held).letGo).standState hn
  have hdone (u : State) : u.dbgDone.standState n = u.standState n := by
    have hreg : u.dbgDone.reg (rStcStat n) = u.reg (rStcStat n) := by
      rw [State.dbgDone, State.reg_rset, if_neg (by simp only [rStcStat, rStc, rDbgCmdStat, rDbg]; omega)]
    simp only [State.standState, State.rfld, hreg]
  rw [ht, hdone, hclocks, hgo]
theorem resume_ends (hst : s.rfld rDbgFrzStat 0 2 ≠ 0) (hdue : s.det.due = []) (hnone : ∀ j, j < 16 → s.standState j ≠ 4) {src : Nat}
    (hsrc : src < 16) : answers (.resume true) s fun t => t.mode = .run ∧ t.rfld rDbgFrzStat 0 2 = 0 ∧ t.frzTrig = [] ∧
      t.sec.held = [] ∧ t.rbit rDbgCmdStat 1 = true ∧ t.bt.first = true ∧ t.ports.cpDiscard = s.ports.cpCur.isSome ∧ dataKept s t ∧
      (src ∈ s.sec.held → ∀ n, n < 16 → (s.reg (rSecResp src)).getLsbD (16 + n) = true → s.standState n ≠ 0 → s.standState n ≠ 5 →
        (t.stand n).causes.testBit 6 = true) := by
  refine (resume_high hopen hst hdue).imp fun t ht => ?_
  have hunits := s.freezeEnded.unitsResume_resumeKeeps s.sec.held
  have hlet : (s.freezeEnded.unitsResume s.sec.held).letGo = s.freezeEnded.unitsResume s.sec.held :=
    State.letGo_none fun j hj => by
      rw [hunits.standState hj, s.freezeEnded_standState hj]
      exact hnone j hj
  rw [hlet] at ht
  have hclocks := State.clocksResume_resumeKeeps (s.freezeEnded.unitsResume s.sec.held)
  obtain ⟨⟨kmode, ktrig, ksec, kbt, kports, -, kdata⟩, kregs, -⟩ := hunits.trans hclocks
  obtain ⟨emode, etrig, eheld, ebt, eports, -, -, edata⟩ := s.freezeEnded_keeps
  have estat := s.freezeEnded_stat
  have halarm (hmem : src ∈ s.sec.held) {n : Nat} (hn : n < 16) (hresp : (s.reg (rSecResp src)).getLsbD (16 + n) = true)
      (hempty : s.standState n ≠ 0) (hrel : s.standState n ≠ 5) : (s.freezeEnded.unitsResume s.sec.held).clocksResume.alarmed n := by
    have hcharge := s.freezeEnded.chargeOwed_resumeKeeps
    have hreg : s.freezeEnded.chargeOwed.reg (rSecResp src) = s.reg (rSecResp src) := by
      rw [hcharge.reg (by simp only [resumeReg, rSecResp, rSec, rStcCause, rStc, rErQlost, rEr]; omega),
        s.freezeEnded_sameRegs _ (by simp only [endedReg, rSecResp, rSec, rDbgFrzStat, rDbgFrzAck, rDbg, rSpTtStat, rSp]; omega)]
    have hstate := (hcharge.standState hn).trans (s.freezeEnded_standState hn)
    have hheld := State.heldAlarms_alarmed hmem hsrc hn (hreg ▸ hresp) (hstate ▸ hempty) (hstate ▸ hrel)
    exact hclocks.2.2 n ((State.otpResume_resumeKeeps _).2.2 n hheld)
  generalize hw : (s.freezeEnded.unitsResume s.sec.held).clocksResume = w at ht kmode ktrig ksec kbt kports kdata kregs halarm
  have hstat : t.reg rDbgFrzStat = s.freezeEnded.reg rDbgFrzStat := by
    rw [ht, State.dbgDone, State.reg_rset, if_neg (by decide), kregs _ (by simp only [resumeReg, rDbgFrzStat, rDbg, rStcCause, rStc, rErQlost, rEr]; omega)]
  have honly : onlyRegs w t := ht ▸ (onlyRegs.refl w).rset ..
  have hbit : t.rbit rDbgCmdStat 1 = true := ht ▸ State.rbit_rset_same _ _ (by decide)
  clear ht
  unfold onlyRegs at honly
  refine ⟨?_, ?_, ?_, ?_, hbit, ?_, ?_, ?_, fun hmem n hn hresp hempty hrel => ?_⟩
  · rw [honly]
    exact kmode.trans emode
  · rw [State.rfld, hstat]
    exact estat
  · rw [honly]
    exact ktrig.trans etrig
  · rw [honly]
    exact (congrArg Sec.held ksec).trans eheld
  · rw [honly]
    exact (congrArg BlockTime.first kbt).trans ebt
  · rw [honly]
    exact (congrArg Ports.cpDiscard kports).trans eports
  · rw [honly]
    exact ⟨kdata.1.trans edata.1, kdata.2.1.trans edata.2.1, kdata.2.2.trans edata.2.2⟩
  · rw [honly]
    exact halarm hmem hn hresp hempty hrel

end

/-! ### The start of a clock that stood still -/

theorem div_two_pow_mod_two_eq_one {x d : Nat} : (x / 2 ^ d) % 2 = 1 ↔ x.testBit d = true := by
  rw [Nat.testBit_eq_decide_div_mod_eq, decide_eq_true_eq]
theorem div_two_pow_mod_two_eq_zero {x d : Nat} : (x / 2 ^ d) % 2 = 0 ↔ x.testBit d = false := by
  rw [Nat.testBit_eq_decide_div_mod_eq, decide_eq_false_iff_not]
  omega

/-- The clock of the domain's sequencer, where it is one, goes again. -/
def State.domainOn (s : State) (d : Nat) : State :=
  if decide (27 ≤ d) && decide (d ≤ 58) then s.modSe (d - 27) (fun e => { e with stopped := false }) else s
theorem State.domainOn_ses (s : State) (d : Nat) : s.domainOn d = { s with ses := (s.domainOn d).ses } := by
  unfold State.domainOn
  split <;> rfl
theorem State.domainOn_se (s : State) {d : Nat} (hlo : 27 ≤ d) (hhi : d ≤ 58) :
    (s.domainOn d).se (d - 27) = { s.se (d - 27) with stopped := false } := by
  unfold State.domainOn
  rw [if_pos (by simp [hlo, hhi]), State.se_modSe, if_pos rfl]

theorem stoppedClockStart_late {s : State} {d : Fin 60} (hm : s.mode = .halted) (hst : s.rfld rDbgFrzStat 0 2 = 2)
    (hnot : s.dbg.notack.testBit d.val = true) (hlate : s.dbg.late.testBit d.val = false) : answers (.stoppedClockStart d) s fun t =>
      t.rbit (rDbgFrzAck (d.val / 32)) (d.val % 32) = true ∧ t.mode = .halted ∧ t.dbg.late.testBit d.val = true ∧
        (27 ≤ d.val → d.val ≤ 58 → t.se (d.val - 27) = { s.se (d.val - 27) with stopped := false }) ∧
        sameRegs s t (fun x => x = rDbgFrzAck (d.val / 32)) ∧ dataKept s t := by
  let u : State := { s with dbg := { s.dbg with late := s.dbg.late + 2 ^ d.val } }
  have hexec : exec (.stoppedClockStart d) s = .next ((u.domainOn d).rset (rDbgFrzAck (d.val / 32)) (d.val % 32)) := by
    show execStoppedClockStart d s = _
    unfold execStoppedClockStart
    dsimp only
    rw [if_pos hm, if_pos ⟨hst, div_two_pow_mod_two_eq_one.2 hnot, div_two_pow_mod_two_eq_zero.2 hlate⟩]
    rfl
  have hbit : (s.dbg.late + 2 ^ d.val).testBit d.val = true := by rw [Nat.add_comm, Nat.testBit_two_pow_add_eq, hlate]; rfl
  have hses := u.domainOn_ses d
  have hse := fun hlo hhi => u.domainOn_se (d := d) hlo hhi
  have hu : u.mode = s.mode ∧ u.dbg.late = s.dbg.late + 2 ^ d.val ∧ u.ses = s.ses ∧ u.regs = s.regs ∧ dataKept s u :=
    ⟨rfl, rfl, rfl, rfl, rfl, rfl, rfl⟩
  clear_value u
  obtain ⟨umode, ulate, uses, uregs, uthreads, uchans, umem⟩ := hu
  refine ⟨_, hexec, State.rbit_rset_same _ _ (by omega), ?_, ?_, fun hlo hhi => ?_, fun a ha => ?_, ?_⟩
  · rw [State.rset_mode, hses]
    exact umode.trans hm
  · rw [State.rset_dbg, hses, ulate]
    exact hbit
  · rw [← State.se_eq_of_ses_eq uses]
    exact hse hlo hhi
  · rw [State.reg_rset, if_neg ha, State.reg_eq_of_regs_eq (s := s)]
    rw [hses]
    exact uregs
  · rw [hses]
    exact ⟨uthreads, uchans, umem⟩

theorem stoppedClockStart_other {s : State} {d : Fin 60} (hm : s.mode ≠ .halted) (hd : d.val < 27 ∨ d.val = 59) :
    answers (.stoppedClockStart d) s fun t => t = s := by
  refine ⟨s, ?_, rfl⟩
  show execStoppedClockStart d s = _
  unfold execStoppedClockStart
  dsimp only
  rw [if_neg hm, if_neg (by simp; omega)]

/-- With no access waiting for the clock nothing but the sequencer changes (R309). -/
theorem stoppedClockStart_running {s : State} {d : Fin 60} (hm : s.mode ≠ .halted) (hlo : 27 ≤ d.val) (hhi : d.val ≤ 58)
    (hacc : s.dbg.accPend = none) (hhost : s.ports.hostQ = []) (hidle : ∀ k, (s.thr k).held = [] ∧ (s.thr k).defer = []) :
    answers (.stoppedClockStart d) s fun t =>
        t.se (d.val - 27) = { s.se (d.val - 27) with
          stopped := false
          inRst := (s.se (d.val - 27)).inRst && decide (s.standState (s.seStand (d.val - 27)) ≠ 1) } ∧
        t = { s with ses := t.ses } := by
  let u : State := (s.domainOn d).seClockOn (d.val - 27)
  have hu : u = { s with ses := u.ses } := by
    have h1 := s.domainOn_ses d
    have h2 := (s.domainOn d).seClockOn_ses (d.val - 27)
    unfold u
    rw [h2, h1]
  have hse : u.se (d.val - 27) = { s.se (d.val - 27) with
      stopped := false
      inRst := (s.se (d.val - 27)).inRst && decide (s.standState (s.seStand (d.val - 27)) ≠ 1) } := by
    have hon := s.domainOn_se hlo hhi
    have hstand : (s.domainOn d).standState ((s.domainOn d).seStand (d.val - 27)) = s.standState (s.seStand (d.val - 27)) := by
      rw [s.domainOn_ses d]
      rfl
    unfold u
    rw [State.seClockOn_se (by rw [hon]), hon, hstand]
  have hexec : exec (.stoppedClockStart d) s = .next (
      let s2 := (List.finRange 128).foldl (fun (s : State) t => (s.waitedLoads t).unhold t) u
      let s3 := match s2.dbg.accPend with
        | some (we, a, v) => if s2.regWaits a.toNat then s2 else s2.dbgPort we a v
        | none => s2
      s3.hostPump 4) := by
    show execStoppedClockStart d s = _
    unfold execStoppedClockStart
    dsimp only
    rw [if_neg hm, if_pos (by simp [hlo, hhi])]
    rfl
  clear_value u
  have hthreads (t : Tid) : u.thr t = s.thr t := by rw [hu]; rfl
  have hfold : (List.finRange 128).foldl (fun (s : State) t => (s.waitedLoads t).unhold t) u = u := by
    refine foldl_same _ fun t => ?_
    rw [State.waitedLoads_none (by rw [hthreads]; exact (hidle t).2), State.unhold_none (by rw [hthreads]; exact (hidle t).1)]
  have hacc' : u.dbg.accPend = none := by rw [hu]; exact hacc
  have hhost' : u.ports.hostQ = [] := by rw [hu]; exact hhost
  have hnext : exec (.stoppedClockStart d) s = .next u := by
    rw [hexec]
    dsimp only
    rw [hfold, hacc']
    dsimp only
    rw [State.hostPump_none hhost']
  exact ⟨u, hnext, hse, hu⟩

end Machine
end Sys2Proof
end

section
/-! O54 settled. -/
namespace Sys2Proof
namespace Machine

theorem add_halted {s : State} (hm : s.mode = .halted) (u : Iss) : answers (.add u .wrap 1 2 3) s fun t => t = s :=
  ⟨_, rfl, by simp only [aluArith, State.issueVal, State.issue_halted hm]⟩
theorem ld_halted {s : State} (hm : s.mode = .halted) (u : Iss) : answers (.ld u .b32 false 1 (.disp 1 0)) s fun t => t = s :=
  ⟨_, rfl, by simp only [State.issueLoad, State.issueLater, State.issue_halted hm]⟩
/-- What a command does in a freeze, of every kind that waits for its end (R530). -/
theorem halted_waits {s : State} (hm : s.mode = .halted) (cycles : Nat) (n : Fin 64) (k : Fin 4) (c : Fin 4096) (j : Tid) (e : Fin 32) (i : Fin 256)
    (q : Fin 272) (m : Master) (f : LinkFrame) (v : Word) (u : Iss) :
    ∀ x ∈ ([.ppsEdge cycles, .timerMatch n, .timerWrap n, .timerCountEvent n, .tmnCmpWrite n v, .routeFire ⟨i, q⟩, .poolScrub c .corrected,
      .mcHput m ⟨0, by decide⟩ v, .loadDataReturn j, .storeGrant j, .channelResponse j, .laneRecordApply e, .sePush e false false 0,
      .cdataFrame k f, .linkKeepalive k, .governorWindowStart, .periodicCommit, .recorderUpdateApply [], .restart m 0 0x5E7D#16,
      .cipherRequest, .hostResponse, .trHealthFail, .add u .wrap 1 2 3, .ld u .b32 false 1 (.disp 1 0)] : List Instr),
    answers x s fun t => t = s := by
  simp only [List.forall_mem_cons, List.not_mem_nil, false_imp_iff, implies_true, and_true]
  exact ⟨answers_of_gated_halted hm rfl, timerMatch_halted hm n, timerWrap_halted hm n, answers_of_gated_halted hm rfl,
    answers_of_gated_halted hm rfl, answers_of_gated_halted hm rfl, answers_of_gated_halted hm rfl, answers_of_gated_halted hm rfl,
    answers_of_gated_halted hm rfl, answers_of_gated_halted hm rfl, answers_of_gated_halted hm rfl, laneRecordApply_halted hm e,
    sePush_halted hm e _ _ _, answers_of_gated_halted hm rfl, linkKeepalive_halted hm k, governorWindowStart_halted hm,
    answers_of_gated_halted hm rfl, recorderUpdateApply_halted hm _, answers_of_gated_halted hm rfl, cipherRequest_halted hm,
    hostResponse_halted hm, answers_of_gated_halted hm rfl, add_halted hm u, ld_halted hm u⟩

/-- Settles O54: a clause per command, from what each leaves. -/
theorem freezesStopTheBlockAndResumesRelease : Obligations.FreezesStopTheBlockAndResumesRelease := by
  unfold Obligations.FreezesStopTheBlockAndResumesRelease
  intro s cycles src rest stopped d hsrc
  have hfirst := ackedFirst_iff s.kind d
  refine ⟨⟨_, rfl, s.freezeTrigger_started (by decide)⟩, dbgFreeze_open, fun h => ⟨_, rfl, if_neg (by simp [h])⟩, fun hm htrig => ?_,
    freezeRequest_none, fun hst => ?_, fun hst => ?_, fun hm hraised => ⟨freezeAlarm_resets hm hraised, freezeAlarm_held hm hraised⟩,
    fun hopen => ⟨resume_unfrozen hopen, resume_low hopen, fun hst hdue hheld n hn => resume_letsGo hopen hst hdue hheld hn,
      fun hst hdue hnone => resume_ends hopen hst hdue hnone hsrc⟩,
    stoppedClockStart_late, stoppedClockStart_running, stoppedClockStart_other, fun hm n k c j e i q m f v u =>
      ⟨halted_waits hm cycles n k c j e i q m f v u, padClampPulse_halted hm _⟩⟩
  · have hrun := freezeRequest_run hm htrig d
    simp only [hfirst] at hrun
    exact hrun
  · obtain ⟨hstat, hmode, hstands, hchans, hcopy, hcnt, hack⟩ := s.freezeDone_leaves cycles 0
    refine (freezeComplete_done hst cycles).imp fun t ht => ?_
    subst ht
    exact ⟨⟨hstat, hmode, hstands, hchans, hcopy⟩, hcnt, fun k hk => (hack k hk).trans (by simp)⟩
  · obtain ⟨hstat, hmode, hstands, hchans, hcopy, hcnt, hack⟩ :=
      s.freezeDone_leaves (max 1 (s.rfld rDbgFrzCfg 0 16) * 256) (lateDomains s.kind stopped)
    refine (freezeAckTimeout_done hst stopped).imp fun t ht => ?_
    subst ht
    refine ⟨⟨hstat, hmode, hstands, hchans, hcopy⟩, hcnt, ?_⟩
    have hlate := lateDomains_iff s.kind stopped d
    rw [hfirst, ← Bool.not_eq_false', ← hack d.val d.isLt] at hlate
    exact hlate

end Machine
end Sys2Proof
end

section
/-! THEOREM. O53: the debugger's commands on threads and stands, and the registers of a halted thread (R516–R522, R561). -/
namespace Sys2Proof
namespace Machine

/-! ### The copies of a thread -/

theorem partner_ne (t : Nat) : partner t ≠ t := by
  unfold partner
  split <;> omega
theorem State.copies_nodup (s : State) (t : Nat) : (s.copies t).Nodup := by
  unfold State.copies
  split
  · exact List.nodup_cons.2 ⟨by simpa using (partner_ne t).symm, List.nodup_singleton _⟩
  · exact List.nodup_singleton _

/-- Nothing but threads changed, and the count of stamps. -/
def threadsOnly (s t : State) : Prop := t = { s with threads := t.threads, stamp := t.stamp }
theorem threadsOnly.refl (s : State) : threadsOnly s s := rfl
theorem threadsOnly.trans {s t u : State} (h : threadsOnly s t) (k : threadsOnly t u) : threadsOnly s u := by
  unfold threadsOnly at h k ⊢
  rw [k, h]
theorem threadsOnly_each {l : List Nat} {f : State → Nat → State} (hf : ∀ t n, threadsOnly t (f t n)) (s : State) : threadsOnly s (s.each l f) :=
  List.foldlRecOn l f (.refl s) fun _ h n _ => h.trans (hf _ n)
theorem State.modThr_threadsOnly (s : State) (t : Nat) (f : Thread → Thread) : threadsOnly s (s.modThr t f) := rfl
theorem threadsOnly.fields {s t : State} (h : threadsOnly s t) : t.mem = s.mem ∧ t.mode = s.mode ∧ t.regs = s.regs ∧ t.chans = s.chans ∧
    t.stands = s.stands ∧ t.tmrs = s.tmrs := by
  unfold threadsOnly at h
  rw [h]
  exact ⟨rfl, rfl, rfl, rfl, rfl, rfl⟩
theorem threadsOnly.reg {s t : State} (h : threadsOnly s t) (a : Nat) : t.reg a = s.reg a := State.reg_eq_of_regs_eq h.fields.2.2.1 a
theorem State.thr_each_modThr {l : List Nat} (hl : l.Nodup) (f : Thread → Thread) (s : State) (j : Nat) :
    (s.each l (fun s t => s.modThr t f)).thr j = if j ∈ l then f (s.thr j) else s.thr j := by
  induction l generalizing s with
  | nil => rfl
  | cons t l ih =>
    obtain ⟨ht, hl⟩ := List.nodup_cons.1 hl
    refine (ih hl (s.modThr t f)).trans ?_
    by_cases hj : j = t
    · subst hj
      rw [if_neg ht, if_pos List.mem_cons_self, State.thr_modThr, if_pos rfl]
    · simp [hj]

/-- A halt (R516): `k` is halted, and what it does next is decided anew. -/
def haltedAs (h k : Thread) : Prop := k.halted = true ∧ k = { h with halted := true, step := k.step, haltTag := k.haltTag }
theorem State.haltOne_same (s : State) (t : Nat) : haltedAs (s.thr t) ((s.haltOne t).thr t) := by
  rw [State.haltOne_thr, haltedAs]
  split
  · exact ⟨rfl, rfl⟩
  · next h =>
    have hhalted : (s.thr t).halted = true := by simpa using h
    exact ⟨hhalted, by rw [← hhalted]⟩
theorem State.haltOne_other (s : State) {t j : Nat} (hj : j ≠ t) : (s.haltOne t).thr j = s.thr j := by
  rw [State.haltOne_thr, if_neg fun h => hj h.1]
theorem State.each_haltOne_threadsOnly (l : List Nat) (s : State) : threadsOnly s (s.each l State.haltOne) :=
  threadsOnly_each (fun t n => t.haltOne_frame n) s
theorem State.each_haltOne {l : List Nat} (hl : l.Nodup) (s : State) (j : Nat) :
    (j ∈ l → haltedAs (s.thr j) ((s.each l State.haltOne).thr j)) ∧ (j ∉ l → (s.each l State.haltOne).thr j = s.thr j) := by
  induction l generalizing s with
  | nil => exact ⟨nofun, fun _ => rfl⟩
  | cons t l ih =>
    obtain ⟨ht, hl⟩ := List.nodup_cons.1 hl
    obtain ⟨hin, hout⟩ := ih hl (s.haltOne t)
    refine ⟨fun hj => ?_, fun hj => ?_⟩
    · by_cases hjt : j = t
      · subst hjt
        show haltedAs _ (((s.haltOne j).each l State.haltOne).thr j)
        rw [hout ht]
        exact s.haltOne_same j
      · have h := hin ((List.mem_cons.1 hj).resolve_left hjt)
        rw [s.haltOne_other hjt] at h
        exact h
    · obtain ⟨hjt, hjl⟩ := not_or.1 (mt List.mem_cons.2 hj)
      exact (hout hjl).trans (s.haltOne_other hjt)


/-! ### Refusals -/

/-- A command refused with its reason, and nothing else (R561). -/
def refused (s : State) (reason : Nat) (t : State) : Prop :=
  t.rbit rDbgCmdStat 2 = true ∧ t.rfld rDbgCmdStat 8 4 = reason ∧ sameRegs s t (fun x => x = rDbgCmdStat) ∧ t = { s with regs := t.regs }
theorem State.dbgRefuse_refused (s : State) {reason : Nat} (h : reason < 16) : refused s reason (s.dbgRefuse reason) :=
  ⟨(s.dbgRefuse_stat h).1, (s.dbgRefuse_stat h).2, s.dbgRefuse_sameRegs reason, s.dbgRefuse_onlyRegs reason⟩

section
variable {s : State} {k : Nat} {ok : Bool} {act : State → State}

theorem State.dbgThread_closed (h : s.dbgOpen = false) : s.dbgThread k ok act = s := by simp [State.dbgThread, h]
theorem State.dbgStand_closed (h : s.dbgOpen = false) : s.dbgStand k ok act = s := by simp [State.dbgStand, h]
theorem State.dbgThread_mode (h : s.dbgOpen = true) (hm : s.mode ≠ .run) : s.dbgThread k ok act = s.dbgRefuse 2 := by
  simp [State.dbgThread, h, hm]
theorem State.dbgStand_mode (h : s.dbgOpen = true) (hm : s.mode ≠ .run) : s.dbgStand k ok act = s.dbgRefuse 2 := by
  simp [State.dbgStand, h, hm]
theorem State.dbgThread_target (h : s.dbgOpen = true) (hm : s.mode = .run) (hidle : (s.thr k).cls = .idle) :
    s.dbgThread k ok act = s.dbgRefuse 3 := by
  simp [State.dbgThread, h, hm, hidle]
theorem State.dbgStand_target (h : s.dbgOpen = true) (hm : s.mode = .run) (hstand : s.standState k = 0 ∨ s.standState k = 5) :
    s.dbgStand k ok act = s.dbgRefuse 3 := by
  simp [State.dbgStand, h, hm, hstand]
theorem State.dbgThread_state (h : s.dbgOpen = true) (hm : s.mode = .run) (hidle : (s.thr k).cls ≠ .idle) (hok : ok = false) :
    s.dbgThread k ok act = s.dbgRefuse 4 := by
  simp [State.dbgThread, h, hm, hidle, hok]
theorem State.dbgStand_state (h : s.dbgOpen = true) (hm : s.mode = .run) (hempty : s.standState k ≠ 0) (hrel : s.standState k ≠ 5)
    (hok : ok = false) : s.dbgStand k ok act = s.dbgRefuse 4 := by
  simp [State.dbgStand, h, hm, hempty, hrel, hok]
theorem State.dbgThread_acts (h : s.dbgOpen = true) (hm : s.mode = .run) (hidle : (s.thr k).cls ≠ .idle) (hok : ok = true) :
    s.dbgThread k ok act = (act s).dbgDone := by
  simp [State.dbgThread, h, hm, hidle, hok]
theorem State.dbgStand_acts (h : s.dbgOpen = true) (hm : s.mode = .run) (hempty : s.standState k ≠ 0) (hrel : s.standState k ≠ 5)
    (hok : ok = true) : s.dbgStand k ok act = (act s).dbgDone := by
  simp [State.dbgStand, h, hm, hempty, hrel, hok]

end

end Machine
end Sys2Proof
end

section
/-! O53: what each command does. -/
namespace Sys2Proof
namespace Machine

/-- The command's end (R561): DONE, with memory and mode as they were. -/
def commandDone (s t : State) : Prop := t.rbit rDbgCmdStat 1 = true ∧ t.mem = s.mem ∧ t.mode = s.mode
theorem State.dbgDone_done {s u : State} (hmem : u.mem = s.mem) (hmode : u.mode = s.mode) : commandDone s u.dbgDone :=
  ⟨State.rbit_rset_same _ _ (by decide), hmem, hmode⟩
theorem State.dbgDone_thr (s : State) (j : Nat) : s.dbgDone.thr j = s.thr j := rfl
theorem State.reg_dbgDone (s : State) {a : Nat} (ha : a ≠ rDbgCmdStat) : s.dbgDone.reg a = s.reg a := by
  rw [State.dbgDone, State.reg_rset, if_neg ha]

/-- What a command did to every copy of a thread, and to no other thread. -/
def didToCopies (s t : State) (k : Nat) (P : Thread → Thread → Prop) : Prop :=
  (∀ j, j ∉ s.copies k → t.thr j = s.thr j) ∧ ∀ j ∈ s.copies k, P (s.thr j) (t.thr j)
theorem didToCopies_modThr (s : State) (k : Nat) (f : Thread → Thread) :
    didToCopies s (s.each (s.copies k) fun s t => s.modThr t f) k fun h h' => h' = f h := by
  refine ⟨fun j hj => ?_, fun j hj => ?_⟩
  · rw [State.thr_each_modThr (s.copies_nodup k), if_neg hj]
  · rw [State.thr_each_modThr (s.copies_nodup k), if_pos hj]
theorem each_modThr_threadsOnly (s : State) (l : List Nat) (f : Thread → Thread) : threadsOnly s (s.each l fun s t => s.modThr t f) :=
  threadsOnly_each (fun t n => t.modThr_threadsOnly n f) s

section
variable {s : State} {k : Tid} (hopen : s.dbgOpen = true) (hm : s.mode = .run) (hidle : (s.thr k).cls ≠ .idle)
include hopen hm hidle

theorem haltt_halts : answers (.haltt k) s fun t => commandDone s t ∧ didToCopies s t k haltedAs := by
  have hexec : exec (.haltt k) s = .next (s.haltThread k).dbgDone := congrArg Host.Outcome.next (State.dbgThread_acts hopen hm hidle rfl)
  have hkept := State.each_haltOne_threadsOnly (s.copies k) s
  have heach := State.each_haltOne (s.copies_nodup k) s
  obtain ⟨hmem, hmode, -⟩ := hkept.fields
  exact ⟨_, hexec, State.dbgDone_done hmem hmode, fun j hj => (heach j).2 hj, fun j hj => (heach j).1 hj⟩

/-- Each copy's halt ends (R519). -/
theorem State.resumeThread_copies (step : Bool) : commandDone s (s.resumeThread k step).dbgDone ∧
    didToCopies s (s.resumeThread k step).dbgDone k fun h h' => h' = { h with halted := false, step := step } := by
  obtain ⟨hmem, hmode, -⟩ := (each_modThr_threadsOnly s (s.copies k) fun h => { h with halted := false, step := step }).fields
  exact ⟨State.dbgDone_done hmem hmode, didToCopies_modThr s k _⟩
theorem resumet_resumes (hhalt : (s.thr k).halted = true) : answers (.resumet k) s fun t => commandDone s t ∧
    didToCopies s t k fun h h' => h' = { h with halted := false, step := false } :=
  ⟨_, congrArg Host.Outcome.next (State.dbgThread_acts hopen hm hidle hhalt), State.resumeThread_copies hopen hm hidle false⟩
theorem stept_steps (hhalt : (s.thr k).halted = true) : answers (.stept k) s fun t => commandDone s t ∧
    didToCopies s t k fun h h' => h' = { h with halted := false, step := true } :=
  ⟨_, congrArg Host.Outcome.next (State.dbgThread_acts hopen hm hidle hhalt), State.resumeThread_copies hopen hm hidle true⟩
theorem treset_asks (hstand : s.standState (s.thr k).stand = 1) : answers (.treset k) s fun t => commandDone s t ∧
    didToCopies s t k fun h h' => h' = { h with restarting := true } := by
  refine ⟨_, congrArg Host.Outcome.next (State.dbgThread_acts hopen hm hidle rfl), ?_⟩
  dsimp only
  rw [State.askRestart, if_pos hstand]
  obtain ⟨hmem, hmode, -⟩ := (each_modThr_threadsOnly s (s.copies k) fun h => { h with restarting := true }).fields
  exact ⟨State.dbgDone_done hmem hmode, didToCopies_modThr s k _⟩
theorem treset_waits (hstand : s.standState (s.thr k).stand ≠ 1) : answers (.treset k) s fun t => commandDone s t ∧ t.threads = s.threads := by
  refine ⟨_, congrArg Host.Outcome.next (State.dbgThread_acts hopen hm hidle rfl), ?_⟩
  dsimp only
  rw [State.askRestart, if_neg hstand]
  exact ⟨State.dbgDone_done rfl rfl, rfl⟩

/-! ### ABORT (R522, R272) -/

omit hidle hopen hm in
/-- The staged words are gone; messages stay. -/
theorem State.unstage_keeps (s : State) (c : Nat) : ((s.unstage c).chan c).staged = [] ∧ ((s.unstage c).chan c).msgs = (s.chan c).msgs ∧
    (s.unstage c).threads = s.threads ∧ (s.unstage c).mem = s.mem ∧ (s.unstage c).mode = s.mode := by
  refine ⟨?_, ?_, rfl, rfl, rfl⟩ <;> simp [State.unstage]
theorem State.dbgAbortT_acts {p : Port} (hhalt : (s.thr k).halted = true) (hbound : ((s.thr (s.copyA k)).port p).bound = true)
    (hsend : ((s.thr (s.copyA k)).port p).recv = false) : s.dbgAbortT k p = State.dbgDone (
      let b := (s.thr (s.copyA k)).port p
      let hit (t : Nat) : Bool := match (s.thr t).park with
        | some q => decide (q.op.port = p.val)
        | none => false
      if (s.chan b.ch).staged.isEmpty then s
      else if (s.copies k).any hit then
        (s.unstage b.ch).each ((s.copies k).filter hit) (fun s t => s.modThr t (fun h => { h with park := h.park.map (fun q => { q with aborted := true }) }))
      else (s.unstage b.ch).modThr (s.copyA k) (fun h => h.setPort p { b with abortp := true })) := by
  unfold State.dbgAbortT
  exact State.dbgThread_acts hopen hm hidle (by rw [hhalt, hbound, hsend]; rfl)

variable {p : Port} (hhalt : (s.thr k).halted = true) (hbound : ((s.thr (s.copyA k)).port p).bound = true)
  (hsend : ((s.thr (s.copyA k)).port p).recv = false)
include hhalt hbound hsend

theorem dbgAbort_nothing (hstaged : (s.chan ((s.thr (s.copyA k)).port p).ch).staged = []) :
    answers (.dbgAbort k p) s fun t => commandDone s t ∧ dataKept s t := by
  refine ⟨_, congrArg Host.Outcome.next (State.dbgAbortT_acts hopen hm hidle hhalt hbound hsend), ?_⟩
  dsimp only
  rw [if_pos (by rw [hstaged]; rfl)]
  exact ⟨State.dbgDone_done rfl rfl, rfl, rfl, rfl⟩
theorem dbgAbort_discards (hstaged : (s.chan ((s.thr (s.copyA k)).port p).ch).staged ≠ []) :
    answers (.dbgAbort k p) s fun t => commandDone s t ∧ (t.chan ((s.thr (s.copyA k)).port p).ch).staged = [] ∧
      (t.chan ((s.thr (s.copyA k)).port p).ch).msgs = (s.chan ((s.thr (s.copyA k)).port p).ch).msgs ∧
      ∀ j ∈ s.copies k, ∀ q, (s.thr j).park = some q → q.op.port = p.val → (t.thr j).park = some { q with aborted := true } := by
  refine ⟨_, congrArg Host.Outcome.next (State.dbgAbortT_acts hopen hm hidle hhalt hbound hsend), ?_⟩
  dsimp only
  rw [if_neg (by simpa using hstaged)]
  generalize (s.thr (s.copyA k)).port p = b at hstaged ⊢
  obtain ⟨hstag, hmsgs, hthreads, hmem, hmode⟩ := s.unstage_keeps b.ch
  generalize s.unstage b.ch = u at hstag hmsgs hthreads hmem hmode ⊢
  have hthr (j : Nat) : u.thr j = s.thr j := by simp only [State.thr, hthreads]
  split
  · have hkept := each_modThr_threadsOnly u
      ((s.copies k).filter fun t => match (s.thr t).park with
        | some q => decide (q.op.port = p.val)
        | none => false) (fun h => { h with park := h.park.map (fun q => { q with aborted := true }) })
    obtain ⟨kmem, kmode, -, kchans, -⟩ := hkept.fields
    refine ⟨State.dbgDone_done (kmem.trans hmem) (kmode.trans hmode), ?_, ?_, fun j hj q hq hport => ?_⟩
    · exact (congrArg (fun c => (Bank.get (fun _ => ({} : Chan)) c b.ch).staged) kchans).trans hstag
    · exact (congrArg (fun c => (Bank.get (fun _ => ({} : Chan)) c b.ch).msgs) kchans).trans hmsgs
    · rw [State.dbgDone_thr, State.thr_each_modThr ((s.copies_nodup k).filter _), if_pos]
      · rw [hthr, hq]
        rfl
      · exact List.mem_filter.2 ⟨hj, by simp [hq, hport]⟩
  · next hno =>
    refine ⟨State.dbgDone_done hmem hmode, hstag, hmsgs, fun j hj q hq hport => absurd ?_ hno⟩
    exact List.any_eq_true.2 ⟨j, hj, by simp [hq, hport]⟩
theorem dbgAbort_flags (hstaged : (s.chan ((s.thr (s.copyA k)).port p).ch).staged ≠ []) (hpark : ∀ j ∈ s.copies k, (s.thr j).park = none) :
    answers (.dbgAbort k p) s fun t => (t.thr (s.copyA k)).port p = { (s.thr (s.copyA k)).port p with abortp := true } ∧
      sameThreads s t (s.copyA k) := by
  refine ⟨_, congrArg Host.Outcome.next (State.dbgAbortT_acts hopen hm hidle hhalt hbound hsend), ?_⟩
  dsimp only
  rw [if_neg (by simpa using hstaged), if_neg (by simp +contextual [hpark])]
  refine ⟨?_, fun j hj => ?_⟩
  · rw [State.dbgDone_thr, State.thr_modThr, if_pos rfl, Thread.port_setPort, if_pos rfl]
  · rw [State.dbgDone_thr, State.thr_modThr, if_neg hj]
    rfl

end

end Machine
end Sys2Proof
end

section
/-! O53: stands, DBG_SHOLD, and the registers of a halted thread; the obligation. -/
namespace Sys2Proof
namespace Machine

/-! ### What a timer's wake leaves of threads, and of what the debugger holds -/

/-- Memory, mode, the halts of threads and the debugger's hold bits are as they were. -/
def wakeKeeps (s t : State) : Prop :=
  t.mem = s.mem ∧ t.mode = s.mode ∧ t.reg rDbgShalt = s.reg rDbgShalt ∧ ∀ j, (t.thr j).halted = (s.thr j).halted
theorem wakeKeeps.refl (s : State) : wakeKeeps s s := ⟨rfl, rfl, rfl, fun _ => rfl⟩
theorem wakeKeeps.trans {s t u : State} (h : wakeKeeps s t) (k : wakeKeeps t u) : wakeKeeps s u := by
  obtain ⟨hmem, hmode, hreg, hthr⟩ := h
  obtain ⟨kmem, kmode, kreg, kthr⟩ := k
  exact ⟨kmem.trans hmem, kmode.trans hmode, kreg.trans hreg, fun j => (kthr j).trans (hthr j)⟩
theorem wakeKeeps_each {l : List Nat} {f : State → Nat → State} (hf : ∀ t n, wakeKeeps t (f t n)) (s : State) : wakeKeeps s (s.each l f) :=
  List.foldlRecOn l f (.refl s) fun _ h n _ => h.trans (hf _ n)
theorem State.tmRelease_wakeKeeps (s : State) (n : Nat) (v : Word) : wakeKeeps s (s.tmRelease n v) := by
  unfold State.tmRelease
  refine wakeKeeps_each (fun t k => ?_) s
  refine ⟨rfl, rfl, rfl, fun j => ?_⟩
  rw [State.thr_modThr]
  split
  · next h =>
    subst h
    split
    · split <;> rfl
    · rfl
  · rfl
theorem State.tmWake_wakeKeeps (s : State) (n : Nat) : wakeKeeps s (s.tmWake n) := by
  have hstat : rDbgShalt ≠ rTmStat n := by
    simp only [rDbgShalt, rDbg, rTmStat, rTm]
    omega
  have hset (t : State) : wakeKeeps t (t.rset (rTmStat n) 0) := ⟨rfl, rfl, by rw [State.reg_rset, if_neg hstat], fun _ => rfl⟩
  have hother {t u : State} (f : Tmr → Tmr) (q : Nat) (h : wakeKeeps t u) : wakeKeeps t ((u.modTmr n f).pulse q) :=
    h.trans ⟨rfl, rfl, rfl, fun _ => rfl⟩
  have hmod (f : Tmr → Tmr) : wakeKeeps s (s.modTmr n f) := ⟨rfl, rfl, rfl, fun _ => rfl⟩
  unfold State.tmWake
  split
  · unfold State.tmEval
    extract_lets e s1
    have h1 : wakeKeeps s s1 := hmod _
    clear_value s1 e
    split
    · exact h1.trans ((hother _ _ (hset s1)).trans (State.tmRelease_wakeKeeps _ n _))
    · exact h1
  · exact .refl s

/-! ### Stands (R520) -/

theorem State.standThreads_nodup (s : State) (n : Nat) : (s.standThreads n).Nodup := List.nodup_range.filter _

section
variable {s : State} {n : Fin 16} (hopen : s.dbgOpen = true) (hm : s.mode = .run) (hempty : s.standState n ≠ 0) (hrel : s.standState n ≠ 5)
include hopen hm hempty hrel

theorem halts_halts : answers (.halts n) s fun t => commandDone s t ∧ t.rbit rDbgShalt n = true ∧
    (∀ j ∈ s.standThreads n, s.rbit rDbgShalt n = false → (t.thr j).halted = true) ∧ t.standState n = s.standState n ∧
    ∀ j, j ∉ s.standThreads n → t.thr j = s.thr j := by
  have hexec : exec (.halts n) s = .next (s.haltStand n).dbgDone :=
    congrArg Host.Outcome.next (State.dbgStand_acts hopen hm hempty hrel rfl)
  have hstat : rStcStat n ≠ rDbgCmdStat ∧ rStcStat n ≠ rDbgShalt := by
    simp only [rStcStat, rStc, rDbgCmdStat, rDbgShalt, rDbg]
    omega
  refine ⟨_, hexec, ?_⟩
  unfold State.haltStand
  split
  · next hset =>
    refine ⟨State.dbgDone_done rfl rfl, ?_, fun j _ hno => absurd hset (by simp [hno]), ?_, fun _ _ => rfl⟩
    · rw [State.rbit, State.reg_dbgDone _ (by decide)]
      exact hset
    · simp only [State.standState, State.rfld, State.reg_dbgDone _ hstat.1]
  · have hkept := State.each_haltOne_threadsOnly (s.standThreads n) (s.rset rDbgShalt n)
    have heach := State.each_haltOne (s.standThreads_nodup n) (s.rset rDbgShalt n)
    obtain ⟨hmem, hmode, -⟩ := hkept.fields
    refine ⟨State.dbgDone_done hmem hmode, ?_, fun j hj _ => ?_, ?_, fun j hj => (heach j).2 hj⟩
    · rw [State.rbit, State.reg_dbgDone _ (by decide), hkept.reg]
      exact State.rbit_rset_same _ _ (by omega)
    · exact ((heach j).1 hj).1
    · simp only [State.standState, State.rfld, State.reg_dbgDone _ hstat.1, hkept.reg, State.reg_rset, if_neg hstat.2]
theorem resumes_resumes (hhalt : s.rbit rDbgShalt n = true) : answers (.resumes n) s fun t => commandDone s t ∧ t.rbit rDbgShalt n = false ∧
    (∀ j ∈ s.standThreads n, (t.thr j).halted = false) ∧
    ((∀ q, s.tmDfrz q = false ∨ (s.tmr q).stand ≠ n.val) → ∀ j, j ∉ s.standThreads n → t.thr j = s.thr j) := by
  have hexec : exec (.resumes n) s = .next (((s.rclr rDbgShalt n).each (s.standThreads n) fun s t => s.resumeOne t false).each
      ((s.tmrs.map Prod.fst).filter fun k => s.tmDfrz k && decide ((s.tmr k).stand = n)) State.tmWake).dbgDone :=
    congrArg Host.Outcome.next (State.dbgStand_acts hopen hm hempty hrel hhalt)
  have hthr (j : Nat) : ((s.rclr rDbgShalt n).each (s.standThreads n) fun s t => s.resumeOne t false).thr j =
      if j ∈ s.standThreads n then { s.thr j with halted := false, step := false } else s.thr j :=
    State.thr_each_modThr (s.standThreads_nodup n) _ _ j
  have hkept : threadsOnly (s.rclr rDbgShalt n) ((s.rclr rDbgShalt n).each (s.standThreads n) fun s t => s.resumeOne t false) :=
    each_modThr_threadsOnly _ _ _
  generalize (s.rclr rDbgShalt n).each (s.standThreads n) (fun s t => s.resumeOne t false) = u at hexec hthr hkept
  obtain ⟨hmem, hmode, -⟩ := hkept.fields
  obtain ⟨wmem, wmode, wreg, wthr⟩ := wakeKeeps_each (fun t k => t.tmWake_wakeKeeps k) u
    (l := (s.tmrs.map Prod.fst).filter fun k => s.tmDfrz k && decide ((s.tmr k).stand = n))
  refine ⟨_, hexec, State.dbgDone_done (wmem.trans hmem) (wmode.trans hmode), ?_, fun j hj => ?_, fun hnone j hj => ?_⟩
  · rw [State.rbit, State.reg_dbgDone _ (by decide), wreg, hkept.reg, State.reg_rclr, if_pos rfl, getLsbD_clrBit _ _ _ (by omega)]
    simp
  · rw [State.dbgDone_thr, wthr, hthr, if_pos hj]
  · have hno : ((s.tmrs.map Prod.fst).filter fun k => s.tmDfrz k && decide ((s.tmr k).stand = n)) = [] := by
      rw [List.filter_eq_nil_iff]
      intro q _
      rcases hnone q with h | h <;> simp [h]
    rw [hno, State.dbgDone_thr]
    exact (hthr j).trans (if_neg hj)

end

/-! ### DBG_SHOLD through the release of a stand (R521) -/

/-- DBG_SHOLD stays. -/
def sholdKept (s t : State) : Prop := t.reg rDbgShold = s.reg rDbgShold
theorem sholdKept.refl (s : State) : sholdKept s s := rfl
theorem sholdKept.trans {s t u : State} (h : sholdKept s t) (k : sholdKept t u) : sholdKept s u := Eq.trans k h
theorem sholdKept.setReg (s : State) {a : Nat} (v : Word) (ha : rDbgShold ≠ a) : sholdKept s (s.setReg a v) := by
  rw [sholdKept, State.reg_setReg, if_neg ha]
theorem sholdKept.modReg (s : State) {a : Nat} (f : Word → Word) (ha : rDbgShold ≠ a) : sholdKept s (s.modReg a f) := .setReg s _ ha
theorem sholdKept_foldl {α : Type} {l : List α} {f : State → α → State} (hf : ∀ s x, sholdKept s (f s x)) (s : State) : sholdKept s (l.foldl f s) :=
  List.foldlRecOn l f (.refl s) fun _ h x _ => h.trans (hf _ x)
theorem sholdKept.of_regs {s t : State} (h : t.regs = s.regs) : sholdKept s t := State.reg_eq_of_regs_eq h _

theorem rDbgShold_ne_tm (n : Nat) : rDbgShold ≠ rTmCnt n ∧ rDbgShold ≠ rTmCtl n ∧ rDbgShold ≠ rTmStat n := by
  simp only [rDbgShold, rDbg, rTmCnt, rTmCtl, rTmStat, rTm]
  omega
theorem rDbgShold_ne_unit (n : Nat) : rDbgShold ≠ rPgOut n ∧ rDbgShold ≠ rPgZStat n ∧ rDbgShold ≠ rSeL n 0 ∧ rDbgShold ≠ rSeL n 1 ∧
    rDbgShold ≠ rSvStat n := by
  simp only [rDbgShold, rDbg, rPgOut, rPgZStat, rPgZ, rSeL, rSe, rSvStat, rSv]
  omega
theorem rDbgShold_ne_stand {n : Nat} (hn : n < 16) : rDbgShold ≠ rStcStat n ∧ rDbgShold ≠ rStcRcnt n := by
  simp only [rDbgShold, rDbg, rStcStat, rStcRcnt, rStc]
  omega

theorem State.tmStart_sholdKept (s : State) (n : Nat) (en : Bool) : sholdKept s (s.tmStart n en) := by
  obtain ⟨hcnt, hctl, -⟩ := rDbgShold_ne_tm n
  have hset : sholdKept s (s.tmSet n rTmCnt (s.tmVal n rTmPhase)) := by
    unfold State.tmSet
    dsimp only
    split
    · exact (sholdKept.setReg s _ hcnt).trans (.setReg _ _ (rDbgShold_ne_tm (n + 1)).1)
    · exact .setReg s _ hcnt
  have hput (t : State) : sholdKept t (t.rput (rTmCtl n) 0 en) := .modReg t _ hctl
  unfold State.tmStart
  exact (hset.trans (hput _)).trans (.of_regs rfl)
theorem State.tmWake_sholdKept (s : State) (n : Nat) : sholdKept s (s.tmWake n) := s.tmWake_sameRegs n _ (rDbgShold_ne_tm n).2.2
theorem State.recBin_sholdKept (s : State) (unit metric index bin sev : Nat) : sholdKept s (s.recBin unit metric index bin sev) :=
  State.reg_recBin s unit metric index bin sev (by decide)
theorem State.chargeExempt_sholdKept (s : State) (z q : Nat) : sholdKept s (s.chargeExempt z q) := by
  unfold State.chargeExempt
  extract_lets s1 s2
  have h1 : sholdKept s s1 := .of_regs rfl
  have h2 : sholdKept s s2 := h1.trans (.modReg s1 _ (rDbgShold_ne_unit z).2.1)
  clear_value s2 s1
  split
  · split
    · exact h2
    · exact h2.trans (State.recBin_sholdKept _ _ _ _ _ _)
  · exact h1
theorem State.exempt_sholdKept (s : State) (n : Nat) (f : Pin → Pin) : sholdKept s (s.exempt n f) := by
  unfold State.exempt
  dsimp only
  split
  · split
    · exact .of_regs rfl
    · exact State.chargeExempt_sholdKept (s.modPin n f) _ _
  · exact .of_regs rfl
theorem State.pinRelease_sholdKept (s : State) (n : Nat) : sholdKept s (s.pinRelease n) :=
  (sholdKept.setReg s _ (rDbgShold_ne_unit n).1).trans (State.exempt_sholdKept _ n _)
theorem State.seStart_sholdKept (s : State) (n : Nat) : sholdKept s (s.seStart n) := by
  obtain ⟨-, -, h0, h1, -⟩ := rDbgShold_ne_unit n
  unfold State.seStart
  exact ((sholdKept.setReg s _ h0).trans (.setReg _ _ h1)).trans (.of_regs rfl)
theorem State.svRestart_sholdKept (s : State) (p : SvcRec → Bool) : sholdKept s (s.svRestart p) := by
  have hbegin (t : State) (n : Nat) : sholdKept t (t.svBegin n) := by
    have hinit : sholdKept t (t.rsetFld (rSvStat n) 0 2 1) := .modReg t _ (rDbgShold_ne_unit n).2.2.2.2
    unfold State.svBegin
    exact hinit.trans (.of_regs rfl)
  unfold State.svRestart
  split
  · exact .refl s
  · exact sholdKept_foldl (by exact fun t r => (sholdKept.modReg t _ (rDbgShold_ne_unit r.n).2.2.2.2).trans (hbegin _ r.n)) s
theorem State.standStart_sholdKept (s : State) {n : Nat} (hn : n < 16) : sholdKept s (s.standStart n) := by
  unfold State.standStart
  split
  · exact .refl s
  · extract_lets s1 s2 s3 s4
    have h1 : sholdKept s s1 := by
      refine .of_regs (State.each_keeps (·.regs) (s.standThreads n) _ ?_ s)
      exact fun _ _ => rfl
    have h2 : sholdKept s1 s2 := by
      refine sholdKept_foldl (fun t r => ?_) s1
      split
      · exact .refl t
      · exact (t.tmStart_sholdKept r.n _).trans (State.tmWake_sholdKept _ r.n)
    have h3 : sholdKept s2 s3 := by
      refine sholdKept_foldl (fun t r => ?_) s2
      exact t.pinRelease_sholdKept r.n
    have h4 : sholdKept s3 s4 := by
      refine sholdKept_foldl (fun t r => ?_) s3
      exact t.seStart_sholdKept r.n
    replace h4 := ((h1.trans h2).trans h3).trans h4
    clear_value s4
    split
    · have hload : sholdKept s4 (s4.wdLoad n) := .modReg s4 _ (rDbgShold_ne_stand hn).1
      exact (h4.trans hload).trans (.of_regs rfl)
    · exact h4.trans (.of_regs rfl)
theorem State.standReleaseNow_sholdKept (s : State) {n : Nat} (hn : n < 16) : sholdKept s (s.standReleaseNow n) := by
  obtain ⟨hstat, hcnt⟩ := rDbgShold_ne_stand hn
  unfold State.standReleaseNow
  extract_lets d bucket s1 s2 s3 s4
  have h1 : sholdKept s s1 := (sholdKept.modReg s _ hstat).trans (.modReg _ _ hstat)
  have h2 : sholdKept s s2 := h1.trans (s1.standStart_sholdKept hn)
  have h3 : sholdKept s s3 := by
    refine (h2.trans (sholdKept.modReg s2 _ hcnt)).trans (sholdKept_foldl ?_ _)
    exact fun t k => t.recBin_sholdKept 0x02 0x01 n k 1
  have h4 : sholdKept s s4 := h3.trans (.of_regs rfl)
  clear_value s4
  exact h4.trans (s4.svRestart_sholdKept _)
theorem State.letGo_sholdKept (s : State) : sholdKept s s.letGo :=
  List.foldlRecOn (motive := fun t => sholdKept s t) _ _ (.refl s) fun t h n hn =>
    h.trans (t.standReleaseNow_sholdKept (List.mem_range.1 (List.mem_of_mem_filter hn)))

theorem dbgSholdWrite_writes {s : State} (hopen : s.dbgOpen = true) (n : Fin 16) (v : Word) : answers (.dbgSholdWrite v) s fun t =>
    t.reg rDbgShold = v &&& 0xFFFF#32 ∧ (s.mode = .run → s.standState n = 4 → v.getLsbD n = false → t.standState n = 1) ∧
    (s.mode = .run → (∀ j, j < 16 → s.standState j ≠ 4) → sameRegs s t (fun x => x = rDbgShold) ∧ t = { s with regs := t.regs }) := by
  have hexec : exec (.dbgSholdWrite v) s = .next (s.dbgShold v) := congrArg Host.Outcome.next (if_pos hopen)
  have hreg : (s.setReg rDbgShold (v &&& 0xFFFF#32)).reg rDbgShold = v &&& 0xFFFF#32 := by rw [State.reg_setReg, if_pos rfl]
  have hstate {j : Nat} (hj : j < 16) : (s.setReg rDbgShold (v &&& 0xFFFF#32)).standState j = s.standState j := by
    simp only [State.standState, State.rfld, State.reg_setReg, if_neg (rDbgShold_ne_stand hj).1.symm]
  have hsame := sameRegs_setReg s rDbgShold (v &&& 0xFFFF#32)
  have honly : onlyRegs s (s.setReg rDbgShold (v &&& 0xFFFF#32)) := rfl
  refine ⟨_, hexec, ?_, fun hm h4 hfree => ?_, fun hm hnone => ?_⟩
  · unfold State.dbgShold
    dsimp only
    split
    · exact Eq.trans (State.letGo_sholdKept (s.setReg rDbgShold (v &&& 0xFFFF#32))) hreg
    · exact hreg
  · unfold State.dbgShold
    dsimp only
    rw [if_pos hm]
    refine State.letGo_running n.isLt ((hstate n.isLt).trans h4) ?_
    rw [State.rbit, hreg, BitVec.getLsbD_and, hfree, Bool.false_and]
  · unfold State.dbgShold
    dsimp only
    rw [if_pos hm, State.letGo_none fun j hj => (hstate hj).symm ▸ hnone j hj]
    exact ⟨hsame, honly⟩

/-- A stand that the debugger holds stops before its release (R111). -/
theorem standRelease_holds {s : State} {n : Fin 16} (hm : s.mode = .run) (hstep : (s.stand n).step = .restored) (hstate : s.standState n = 2)
    (hhold : s.rbit rDbgShold n = true) : answers (.standRelease n []) s fun t => t.standState n = 4 ∧
      sameRegs s t (fun x => x = rStcStat n) ∧ t = { s with regs := t.regs, ses := t.ses } := by
  have hclocks (l : List Nat) (u : State) : u.seClocks l [] = { u with ses := (u.seClocks l []).ses } := by
    induction l generalizing u with
    | nil => rfl
    | cons k l ih => exact ih (u.modSe k _)
  have hu := hclocks (s.standSes n) s
  have hexec : exec (.standRelease n []) s = .next ((s.seClocks (s.standSes n) []).standGo n) :=
    congrArg Host.Outcome.next (if_pos ⟨hm, hstep, hstate⟩)
  generalize s.seClocks (s.standSes n) [] = u at hu hexec
  have hgo : u.standGo n = u.rsetFld (rStcStat n) 0 3 4 := if_pos (by rw [hu]; exact hhold)
  have honly : onlyRegs u (u.rsetFld (rStcStat n) 0 3 4) := rfl
  refine ⟨_, hexec, ?_, fun a ha => ?_, ?_⟩
  · rw [hgo, State.standState, State.rfld, State.reg_rsetFld, if_pos rfl, fld_setFld_same _ _ _ _ (by decide)]
    rfl
  · rw [hgo, State.reg_rsetFld, if_neg ha, hu]
    rfl
  · rw [hgo, honly, hu]

/-! ### The registers of a halted thread (R518) -/

section
variable {s : State} {k : Tid} (hopen : s.dbgOpen = true) (hsel : s.rfld rDbgTsel 0 7 = k.val) (r : Fin 41) (v : Word)
include hopen hsel

theorem dbgTreg_refused (hrun : (s.thr k).halted = false) (w : Bool) : answers (.dbgTregAccess w r v) s fun t =>
    t.rbit rDbgCmdStat 2 = true ∧ t.rfld rDbgCmdStat 8 4 = 4 ∧ dataKept s t := by
  have hexec : exec (.dbgTregAccess w r v) s = .next { s.dbgRefuse 4 with rdata := 0#32 } := by
    show execDbgTregAccess w r v s = _
    simp only [execDbgTregAccess, State.dbgTreg, hopen, hsel, hrun, Bool.not_false, if_true]
  obtain ⟨hbit, hreason⟩ := s.dbgRefuse_stat (reason := 4) (by decide)
  exact ⟨_, hexec, hbit, hreason, rfl, rfl, rfl⟩
variable (hhalt : (s.thr k).halted = true)
include hhalt
theorem dbgTreg_read : answers (.dbgTregAccess false r v) s fun t => t = { s with rdata := t.rdata } ∧
    (r.val = 0 → t.rdata = (s.thr s.tselRead).pc.setWidth 32) ∧ (1 ≤ r.val → r.val < 16 → t.rdata = (s.thr s.tselRead).rg r) ∧
    (r.val = 37 → t.rdata = (s.thr s.tselRead).tst) ∧ (r.val = 40 → t.rdata = (s.thr s.tselRead).evp.setWidth 32) := by
  have hexec : exec (.dbgTregAccess false r v) s = .next { s with rdata := (s.thr s.tselRead).dbgReg r } := by
    show execDbgTregAccess false r v s = _
    simp only [execDbgTregAccess, State.dbgTreg, hopen, hsel, hhalt, Bool.not_true, Bool.false_eq_true, if_false, if_true]
  refine ⟨_, hexec, rfl, fun h => ?_, fun h1 h2 => ?_, fun h => ?_, fun h => ?_⟩
  · simp [Thread.dbgReg, h]
  · simp [Thread.dbgReg, h2, show r.val ≠ 0 by omega]
  · simp [Thread.dbgReg, h, Thread.readTr]
  · simp [Thread.dbgReg, h]
theorem dbgTreg_write : answers (.dbgTregAccess true r v) s fun t => t.mem = s.mem ∧ didToCopies s t k fun h h' => h' = h.dbgSet r v := by
  have hexec : exec (.dbgTregAccess true r v) s = .next { s.each (s.copies k) (fun s t => s.modThr t fun h => h.dbgSet r v) with rdata := 0#32 } := by
    show execDbgTregAccess true r v s = _
    simp only [execDbgTregAccess, State.dbgTreg, hopen, hsel, hhalt, Bool.not_true, Bool.false_eq_true, if_false, if_true]
  obtain ⟨hmem, -⟩ := (each_modThr_threadsOnly s (s.copies k) fun h => h.dbgSet r v).fields
  exact ⟨_, hexec, hmem, didToCopies_modThr s k _⟩

end

/-- What a write of a thread register leaves in the thread (R518). -/
theorem Thread.dbgSet_sets (h : Thread) (r : Fin 41) (v : Word) : (r.val = 0 → (h.dbgSet r v).pc = v.setWidth 24) ∧
    (1 ≤ r.val → r.val < 16 → (h.dbgSet r v).rg r = v ∧ ∀ x : Nat, x ≠ r.val → (h.dbgSet r v).rg x = h.rg x) ∧
    (r.val = 38 → (h.dbgSet r v).tvec = v.setWidth 24) ∧ (r.val = 40 → (h.dbgSet r v).evp = h.evp &&& ~~~ (v.setWidth 8)) := by
  refine ⟨fun hr => ?_, fun h1 h2 => ?_, fun hr => ?_, fun hr => ?_⟩
  · simp [Thread.dbgSet, hr]
  · have hset : h.dbgSet r v = h.write r v := by simp [Thread.dbgSet, h2, show r.val ≠ 0 by omega]
    rw [hset]
    exact ⟨by simp [show r.val ≠ 0 by omega], fun x hx => by simp [hx]⟩
  · simp [Thread.dbgSet, hr, Thread.writeTr]
  · simp [Thread.dbgSet, hr]

theorem State.dbgAbortT_eq (s : State) (k p : Nat) : ∃ act, s.dbgAbortT k p =
    s.dbgThread k ((s.thr k).halted && ((s.thr (s.copyA k)).port p).bound && !((s.thr (s.copyA k)).port p).recv) act := by
  unfold State.dbgAbortT
  exact ⟨_, rfl⟩
/-- Whatever is true of every refused thread and stand command is true after each command. -/
theorem commands_refused (s : State) {P : State → Prop} (hthread : ∀ k ok act, P (s.dbgThread k ok act)) (hstand : ∀ n ok act, P (s.dbgStand n ok act))
    {k : Tid} {p : Port} {n : Fin 16} : ∀ c ∈ ([.haltt k, .resumet k, .stept k, .treset k, .dbgAbort k p, .halts n, .resumes n] : List Instr),
      answers c s P := by
  obtain ⟨act, habort⟩ := s.dbgAbortT_eq k p
  simp only [List.forall_mem_cons, List.not_mem_nil, false_imp_iff, implies_true, and_true]
  exact ⟨⟨_, rfl, hthread _ _ _⟩, ⟨_, rfl, hthread _ _ _⟩, ⟨_, rfl, hthread _ _ _⟩, ⟨_, rfl, hthread _ _ _⟩, ⟨_, rfl, habort ▸ hthread _ _ _⟩,
    ⟨_, rfl, hstand _ _ _⟩, ⟨_, rfl, hstand _ _ _⟩⟩

/-- Settles O53: a clause per command, from what each leaves. -/
theorem debuggerHaltsStepsAndResumes : Obligations.DebuggerHaltsStepsAndResumes := by
  unfold Obligations.DebuggerHaltsStepsAndResumes
  intro s k n p r v
  refine ⟨fun hclosed => ⟨?_, ⟨_, rfl, if_neg (by simp [hclosed])⟩, fun w => ⟨_, rfl, if_neg (by simp [hclosed])⟩⟩,
    fun hopen => ⟨fun hm => ?_, fun hm hidle => ?_, fun hm hidle => ⟨fun hrun => ?_, haltt_halts hopen hm hidle, fun hhalt =>
        ⟨resumet_resumes hopen hm hidle hhalt, stept_steps hopen hm hidle hhalt⟩, treset_asks hopen hm hidle, treset_waits hopen hm hidle,
        fun hhalt hbound hsend => ⟨dbgAbort_nothing hopen hm hidle hhalt hbound hsend, fun hstaged =>
          ⟨dbgAbort_discards hopen hm hidle hhalt hbound hsend hstaged, dbgAbort_flags hopen hm hidle hhalt hbound hsend hstaged⟩⟩⟩,
      fun hm hstand => ?_, fun hm hempty hrel => ⟨fun hrun => ?_, halts_halts hopen hm hempty hrel, resumes_resumes hopen hm hempty hrel⟩,
      standRelease_holds, dbgSholdWrite_writes hopen n v,
      fun hsel => ⟨dbgTreg_refused hopen hsel r v, fun hhalt => ⟨dbgTreg_read hopen hsel r v hhalt, ?_⟩⟩⟩⟩
  · exact commands_refused s (fun _ _ _ => State.dbgThread_closed hclosed) (fun _ _ _ => State.dbgStand_closed hclosed)
  · have hmode := s.dbgRefuse_refused (reason := 2) (by decide)
    exact commands_refused s (fun _ _ _ => (State.dbgThread_mode hopen hm).symm ▸ hmode) (fun _ _ _ => (State.dbgStand_mode hopen hm).symm ▸ hmode)
  · have htarget := s.dbgRefuse_refused (reason := 3) (by decide)
    have hthread (ok : Bool) (act : State → State) : refused s 3 (s.dbgThread k ok act) := State.dbgThread_target hopen hm hidle ▸ htarget
    simp only [List.forall_mem_cons, List.not_mem_nil, false_imp_iff, implies_true, and_true]
    obtain ⟨act, habort⟩ := s.dbgAbortT_eq k p
    exact ⟨⟨_, rfl, hthread _ _⟩, ⟨_, rfl, hthread _ _⟩, ⟨_, rfl, hthread _ _⟩, ⟨_, rfl, hthread _ _⟩, ⟨_, rfl, habort ▸ hthread _ _⟩⟩
  · have hstate := s.dbgRefuse_refused (reason := 4) (by decide)
    have hthread (ok : Bool) (act : State → State) (hok : ok = false) : refused s 4 (s.dbgThread k ok act) :=
      State.dbgThread_state hopen hm hidle hok ▸ hstate
    simp only [List.forall_mem_cons, List.not_mem_nil, false_imp_iff, implies_true, and_true]
    obtain ⟨act, habort⟩ := s.dbgAbortT_eq k p
    exact ⟨⟨_, rfl, hthread _ _ hrun⟩, ⟨_, rfl, hthread _ _ hrun⟩, ⟨_, rfl, habort ▸ hthread _ _ (by rw [hrun]; rfl)⟩⟩
  · have htarget := s.dbgRefuse_refused (reason := 3) (by decide)
    have hboth (ok : Bool) (act : State → State) : refused s 3 (s.dbgStand n ok act) := State.dbgStand_target hopen hm hstand ▸ htarget
    exact ⟨⟨_, rfl, hboth _ _⟩, ⟨_, rfl, hboth _ _⟩⟩
  · have hstate := s.dbgRefuse_refused (reason := 4) (by decide)
    have hboth (ok : Bool) (act : State → State) (hok : ok = false) : refused s 4 (s.dbgStand n ok act) :=
      State.dbgStand_state hopen hm hempty hrel hok ▸ hstate
    exact ⟨_, rfl, hboth _ _ hrun⟩
  · obtain ⟨t, hexec, hmem, hothers, hcopies⟩ := dbgTreg_write hopen hsel r v hhalt
    refine ⟨t, hexec, hothers, hmem, fun j hj => ?_⟩
    rw [hcopies j hj]
    exact (s.thr j).dbgSet_sets r v

end Machine
end Sys2Proof
end

section
/-! O51 refuted: a zeroise can carry out a store of a thread that has none of its own waiting (R105, R353, R508). -/
namespace Sys2Proof
namespace Machine

/-- A store to the program memory of engine 0 that still waits. -/
def strayStore : StoreEntry := { addr := 0x400000#24, size := .b8, data := 1#64 }
/-- A zeroise is asked for in RUN. Threads 0 and 16, of engines 0 and 1, belong to stand 0, the only one that runs. The crossing queue of
engine 0 holds a store in the name of thread 16, whose requests are looked for in the lanes and in the queue of engine 1. -/
def strayState : State :=
  { State.reset with
    mode := .run
    regs := Bank.put regReset [] (rStcStat 0) 1#32
    threads := [(0, { tst := 0x100#32 }), (16, { tst := 0x100#32 })]
    sec := { zero := .asked }
    sp := { xq := [(0, [(0, 0, .store 16 strayStore false)])], under := some (0#128, [], []), rekeyed := [0x40000] } }

/-- No thread has a store or a held operation, and none has a request that counts as its own. -/
theorem strayState_quiet : ∀ t : Tid, (strayState.thr t).sbuf = [] ∧ (strayState.thr t).held = [] ∧ strayState.requestsOf t = [] := by
  decide +kernel
/-- The drain of thread 0 moves the store into its lane; the drain of thread 16 finds it there and carries it out. -/
theorem zeroise_strayState {t : State} (h : exec .zeroise strayState = .next t) : t.byte 0x400000 = 1#8 := by
  have hnext : (if strayState.sec.zero ≠ .asked ∨ strayState.mode = .halted then _ else _ : State) = t := Host.Outcome.next.inj h
  rw [← hnext]
  decide +kernel

/-- Refutes O51: of a zeroise in RUN with every thread quiet it says that no byte outside the scratchpad changes. With a store of a thread
of engine 1 in the crossing queue of engine 0, which counts as no thread's request, the drain writes program memory. -/
theorem not_alarmsZeroiseAndTheDebugChallenge : ¬ Obligations.AlarmsZeroiseAndTheDebugChallenge := by
  unfold Obligations.AlarmsZeroiseAndTheDebugChallenge
  intro h
  obtain ⟨-, -, -, -, -, hzero, -⟩ := h strayState 0 .debugger 0#8 0 0 0#32 0 [] 0#16 false [] (by decide)
  obtain ⟨t, hexec, -, -, -, -, -, -, hbytes, -⟩ := hzero rfl (by decide) fun _ => strayState_quiet
  have hkept := hbytes 0x400000 (by decide)
  rw [zeroise_strayState hexec] at hkept
  exact absurd hkept (by decide)

end Machine
end Sys2Proof
end

section
/-! THEOREM. O44: the recorder's objects, its window and its clear (R467, R472–R479). -/
namespace Sys2Proof
namespace Machine

/-! ### Objects -/

@[simp] theorem State.obj_setObj (s : State) (i k : Nat) (o : RecObj) : (s.setObj i o).obj k = if k = i then o else s.obj k := by
  simp [State.setObj, State.obj, Bank.get_put]
theorem State.obj_of_pool {s t : State} (h : t.recd.pool = s.recd.pool) (k : Nat) : t.obj k = s.obj k := by simp only [State.obj, h]
theorem State.valid_of_pool {s t : State} (h : t.recd.pool = s.recd.pool) : t.valid = s.valid := by
  simp only [State.valid, State.obj_of_pool h]
theorem State.mem_valid {s : State} {k : Nat} : k ∈ s.valid ↔ k < 256 ∧ (s.obj k).valid = true := by
  rw [State.valid, members, List.mem_filter, List.mem_range]

/-! ### One update applied (R473, R474) -/

section
variable {s : State} {u : RecUpd} {i : Nat}

/-- The object as it is made. -/
def State.newObj (s : State) (u : RecUpd) : RecObj :=
  { valid := true, key := u.key, sev := u.sev, extreme := (match u.dat with
    | .bin _ _ => false
    | .value _ => true), created := s.aon, order := s.recd.applied + 1 }
theorem State.applyUpd_known (h : s.valid.find? (fun i => decide ((s.obj i).key = u.key)) = some i) :
    (∀ k, (s.applyUpd u).obj k = if k = i then { (s.obj i).take u.dat s.aon false with order := s.recd.applied + 1 } else s.obj k) ∧
    (s.applyUpd u).regs = s.regs ∧ (s.applyUpd u).recd.queue = s.recd.queue ∧ (s.applyUpd u).recd.clear = s.recd.clear ∧
    (s.applyUpd u).recd.commit = s.recd.commit := by
  have hobj (k : Nat) := s.obj_setObj i k { (s.obj i).take u.dat s.aon false with order := s.recd.applied + 1 }
  unfold State.applyUpd
  rw [h]
  exact ⟨hobj, rfl, rfl, rfl, rfl⟩
theorem State.applyUpd_free (hkey : s.valid.find? (fun i => decide ((s.obj i).key = u.key)) = none)
    (h : (List.range 256).find? (fun i => !(s.obj i).valid) = some i) : s.applyUpd u = s.create i u := by
  unfold State.applyUpd
  rw [hkey, h]
theorem State.applyUpd_victim (hkey : s.valid.find? (fun i => decide ((s.obj i).key = u.key)) = none)
    (hfull : (List.range 256).find? (fun i => !(s.obj i).valid) = none) (h : s.victim u.sev = some i) :
    s.applyUpd u = (s.rcount rErRepl 0 32 1).create i u := by
  unfold State.applyUpd
  rw [hkey, hfull]
  dsimp only
  rw [h]
theorem State.applyUpd_drop (hkey : s.valid.find? (fun i => decide ((s.obj i).key = u.key)) = none)
    (hfull : (List.range 256).find? (fun i => !(s.obj i).valid) = none) (h : s.victim u.sev = none) :
    s.applyUpd u = s.rcount (rErDrop u.sev) 0 32 1 := by
  unfold State.applyUpd
  rw [hkey, hfull]
  dsimp only
  rw [h]

/-- What the making of an object changes beside its slot. -/
theorem State.create_leaves (s : State) (i : Nat) (u : RecUpd) (hsev : u.sev ≠ 4) :
    (∀ k, (s.create i u).obj k = if k = i then (s.newObj u).take u.dat s.aon true else s.obj k) ∧ (s.create i u).regs = s.regs ∧
    (s.create i u).recd.queue = s.recd.queue ∧ (s.create i u).fires = (if 2 ≤ u.sev then (s.pulse 267).fires else s.fires) := by
  have hnew (k : Nat) := s.obj_setObj i k ((s.newObj u).take u.dat s.aon true)
  unfold State.create
  dsimp only
  rw [if_pos hsev]
  split
  · exact ⟨hnew, rfl, rfl, rfl⟩
  · exact ⟨hnew, rfl, rfl, rfl⟩

/-- An object just made or updated holds `n` more in bin `b` (R473). -/
theorem RecObj.take_bin (o : RecObj) (b n : Nat) (now : RStamp) (fresh : Bool) : o.take (.bin b n) now fresh =
    { o with updated := now, updcnt := satAdd 32 o.updcnt 1, bins := Bank.put (fun _ => 0) o.bins b (satAdd 32 (Bank.get (fun _ => 0) o.bins b) n) } := rfl

/-- The object that an update makes. -/
def madeBy (s : State) (u : RecUpd) (b n : Nat) (o : RecObj) : Prop :=
  o.valid = true ∧ o.key = u.key ∧ o.sev = u.sev ∧ o.extreme = false ∧ o.created = s.aon ∧ o.updated = s.aon ∧ o.updcnt = 1 ∧
  Bank.get (fun _ => 0) o.bins b = min (2 ^ 32 - 1) n
theorem State.newObj_made {b n : Nat} (hdat : u.dat = .bin b n) : madeBy s u b n ((s.newObj u).take u.dat s.aon true) := by
  rw [hdat, RecObj.take_bin]
  refine ⟨rfl, rfl, rfl, ?_, rfl, rfl, rfl, ?_⟩
  · simp only [State.newObj, hdat]
  · rw [Bank.get_put_same]
    simp [State.newObj, satAdd, Bank.get]
end

section
variable {s : State} {u : RecUpd} {q : List RecUpd} {b n : Nat} {i : Fin 256} (hm : s.mode ≠ .halted) (hqueue : s.recd.queue = u :: q)
  (hclear : s.recd.clear = .none)
include hm hqueue hclear

/-- The oldest update leaves the queue and is applied (R472). -/
theorem exec_recorderUpdateApply : exec (.recorderUpdateApply []) s = .next ((s.modRec fun r => { r with queue := q }).applyUpd u) := by
  show execRecorderUpdateApply [] s = _
  unfold execRecorderUpdateApply
  rw [hqueue]
  dsimp only
  rw [if_neg hm, hclear]
  rfl

variable (hdat : u.dat = .bin b n)
include hdat

theorem recorderUpdateApply_known (hknown : s.valid.find? (fun i => decide ((s.obj i).key = u.key)) = some i.val) :
    answers (.recorderUpdateApply []) s fun t => t.recd.queue = q ∧ (∀ k, k ≠ i.val → t.obj k = s.obj k) ∧ t.regs = s.regs ∧
      (t.obj i).updated = s.aon ∧ (t.obj i).created = (s.obj i).created ∧ (t.obj i).updcnt = min (2 ^ 32 - 1) ((s.obj i).updcnt + 1) ∧
      ∀ k, Bank.get (fun _ => 0) (t.obj i).bins k = if k = b then min (2 ^ 32 - 1) (Bank.get (fun _ => 0) (s.obj i).bins b + n)
        else Bank.get (fun _ => 0) (s.obj i).bins k := by
  refine ⟨_, exec_recorderUpdateApply hm hqueue hclear, ?_⟩
  obtain ⟨hobj, hregs, hq, -⟩ := State.applyUpd_known (s := s.modRec fun r => { r with queue := q }) hknown
  have hsame := (hobj i).trans (if_pos rfl)
  rw [hdat, RecObj.take_bin] at hsame
  refine ⟨hq, fun k hk => (hobj k).trans (if_neg hk), hregs, ?_⟩
  rw [hsame]
  exact ⟨rfl, rfl, rfl, fun k => Bank.get_put _ _ _ _ _⟩

variable (hknown : s.valid.find? (fun i => decide ((s.obj i).key = u.key)) = none)
include hknown

theorem recorderUpdateApply_free (hfree : (List.range 256).find? (fun i => !(s.obj i).valid) = some i.val) (hsev : u.sev ≠ 4) :
    answers (.recorderUpdateApply []) s fun t => t.recd.queue = q ∧ (∀ k, k ≠ i.val → t.obj k = s.obj k) ∧ madeBy s u b n (t.obj i) ∧
      t.regs = s.regs ∧ t.fires = (if 2 ≤ u.sev then (s.pulse 267).fires else s.fires) := by
  refine ⟨_, exec_recorderUpdateApply hm hqueue hclear, ?_⟩
  rw [State.applyUpd_free (s := s.modRec fun r => { r with queue := q }) hknown hfree]
  obtain ⟨hobj, hregs, hq, hfires⟩ := (s.modRec fun r => { r with queue := q }).create_leaves i u hsev
  refine ⟨hq, fun k hk => (hobj k).trans (if_neg hk), ?_, hregs, hfires⟩
  rw [hobj, if_pos rfl]
  exact State.newObj_made hdat
theorem recorderUpdateApply_full (hfull : (List.range 256).find? (fun i => !(s.obj i).valid) = none) (hsev : u.sev < 4) :
    (s.victim u.sev = some i.val → answers (.recorderUpdateApply []) s fun t => t.recd.queue = q ∧ (∀ k, k ≠ i.val → t.obj k = s.obj k) ∧
      madeBy s u b n (t.obj i) ∧ ticked (s.reg rErRepl) (t.reg rErRepl) 0 32) ∧
    (s.victim u.sev = none → answers (.recorderUpdateApply []) s fun t => t.recd.pool = s.recd.pool ∧ t.recd.queue = q ∧
      ticked (s.reg (rErDrop u.sev)) (t.reg (rErDrop u.sev)) 0 32) := by
  have hcount (a : Nat) : ticked (s.reg a) (((s.modRec fun r => { r with queue := q }).rcount a 0 32 1).reg a) 0 32 := by
    rw [State.reg_rcount, if_pos rfl, ticked, fld_satFld _ _ _ (by decide)]
    rfl
  refine ⟨fun hvictim => ?_, fun hvictim => ?_⟩
  · refine ⟨_, exec_recorderUpdateApply hm hqueue hclear, ?_⟩
    rw [State.applyUpd_victim (s := s.modRec fun r => { r with queue := q }) hknown hfull hvictim]
    obtain ⟨hobj, hregs, hq, -⟩ := ((s.modRec fun r => { r with queue := q }).rcount rErRepl 0 32 1).create_leaves i u (by omega)
    refine ⟨hq, fun k hk => (hobj k).trans (if_neg hk), ?_, ?_⟩
    · rw [hobj, if_pos rfl]
      exact State.newObj_made hdat
    · rw [State.reg_eq_of_regs_eq hregs]
      exact hcount _
  · refine ⟨_, exec_recorderUpdateApply hm hqueue hclear, ?_⟩
    rw [State.applyUpd_drop (s := s.modRec fun r => { r with queue := q }) hknown hfull hvictim]
    exact ⟨rfl, rfl, hcount _⟩

end

/-! ### The window (R475) -/

theorem rErWin_ne_rErCursor (w : Nat) : rErWin w ≠ rErCursor := by
  simp only [rErWin, rErCursor, rEr]
  omega
theorem rErWin_inj {w k : Nat} (h : rErWin w = rErWin k) : w = k := by
  simp only [rErWin, rEr] at h
  omega
theorem State.foldl_setReg_reg {l : List Nat} (hl : l.Nodup) (f : Nat → Nat) (hf : ∀ w k, f w = f k → w = k) (v : Nat → Word) (s : State) {w : Nat}
    (hw : w ∈ l) : (l.foldl (fun t n => t.setReg (f n) (v n)) s).reg (f w) = v w := by
  induction l generalizing s with
  | nil => exact absurd hw List.not_mem_nil
  | cons n l ih =>
    obtain ⟨hn, hl⟩ := List.nodup_cons.1 hl
    rw [List.foldl_cons]
    rcases List.mem_cons.1 hw with rfl | hw
    · have hother : ∀ k ∈ l, f w ≠ f k := fun k hk h => hn (by rwa [hf w k h])
      rw [State.reg_foldl_setReg_other v hother, State.reg_setReg, if_pos rfl]
    · exact ih hl _ hw

/-- What the latch shows of object `i`, and what it leaves. -/
theorem State.latch_shows (s : State) {i : Nat} (hi : i < 256) : onlyRegs s (s.latch i) ∧
    (∀ w, w < 32 → (s.latch i).reg (rErWin w) = objWord i (s.obj i) w) ∧
    (s.latch i).reg rErCursor = putBit (setFld (s.reg rErCursor) 0 8 i) 24 (s.obj i).valid := by
  let s1 := (List.range 32).foldl (fun (t : State) w => t.setReg (rErWin w) (objWord i (s.obj i) w)) s
  have hframe : onlyRegs s s1 := State.foldl_setReg_frame (List.range 32) rErWin (fun w => objWord i (s.obj i) w) s
  have hwin {w : Nat} (hw : w < 32) : s1.reg (rErWin w) = objWord i (s.obj i) w :=
    State.foldl_setReg_reg List.nodup_range rErWin (fun _ _ => rErWin_inj) (fun w => objWord i (s.obj i) w) s (List.mem_range.2 hw)
  have hcursor : s1.reg rErCursor = s.reg rErCursor :=
    State.reg_foldl_setReg_other (fun w => objWord i (s.obj i) w) (fun w _ => (rErWin_ne_rErCursor w).symm) s
  have hlatch : s.latch i = (s1.rsetFld rErCursor 0 8 i).rput rErCursor 24 (s.obj i).valid := rfl
  clear_value s1
  rw [hlatch]
  refine ⟨(hframe.rsetFld ..).modReg .., fun w hw => ?_, ?_⟩
  · have hne := rErWin_ne_rErCursor w
    rw [State.reg_rput, if_neg hne, State.reg_rsetFld, if_neg hne, hwin hw]
  · rw [State.reg_rput, if_pos rfl, State.reg_rsetFld, if_pos rfl, hcursor]

theorem fld_putBit_other (w : Word) {k lo n : Nat} (b : Bool) (hk : k < lo ∨ lo + n ≤ k) (h : lo + n ≤ 32) :
    fld (putBit w k b) lo n = fld w lo n := by
  apply Nat.eq_of_testBit_eq
  intro j
  rw [testBit_fld, testBit_fld]
  by_cases hj : j < n
  · rw [getLsbD_putBit _ _ _ _ (by omega), if_neg (by omega)]
  · simp [hj]

theorem fld_clrBit_other (w : Word) {k lo n : Nat} (hk : k < lo ∨ lo + n ≤ k) (h : lo + n ≤ 32) : fld (clrBit w k) lo n = fld w lo n :=
  fld_putBit_other w false hk h

section
variable {s : State} (hm : s.mode ≠ .halted) (ix : Byte) (minsev : Fin 8)
include hm

theorem erCursorLoad_shows : answers (.erCursorLoad ix minsev) s fun t =>
    (∀ w, w < 32 → t.reg (rErWin w) = objWord ix.toNat (s.obj ix.toNat) w) ∧ fld (t.reg rErCursor) 0 8 = ix.toNat ∧
    fld (t.reg rErCursor) 8 3 = minsev.val ∧ (t.reg rErCursor).getLsbD 24 = (s.obj ix.toNat).valid ∧ t.recd = s.recd ∧ dataKept s t := by
  refine answers_of_gated hm rfl ?_
  have hix : ix.toNat < 256 := ix.isLt
  obtain ⟨honly, hwin, hcursor⟩ := (s.rsetFld rErCursor 8 3 minsev).latch_shows hix
  have hkept := ((onlyRegs.refl s).rsetFld rErCursor 8 3 minsev).trans honly
  rw [State.reg_rsetFld, if_pos rfl] at hcursor
  change onlyRegs s (s.cursorLoad ix.toNat minsev) at hkept
  change (s.cursorLoad ix.toNat minsev).reg rErCursor = putBit _ 24 (s.obj ix.toNat).valid at hcursor
  refine ⟨hwin, ?_, ?_, ?_, ?_, ?_⟩
  · rw [hcursor, fld_putBit_other _ _ (by decide) (by decide), fld_setFld_same _ _ _ _ (by decide)]
    exact Nat.mod_eq_of_lt hix
  · rw [hcursor, fld_putBit_other _ _ (by decide) (by decide), fld_setFld_other _ _ _ _ _ _ (by decide) (by decide),
      fld_setFld_same _ _ _ _ (by decide)]
    exact Nat.mod_eq_of_lt minsev.isLt
  · rw [hcursor, getLsbD_putBit _ _ _ _ (by decide), if_pos rfl]
  · unfold onlyRegs at hkept
    rw [hkept]
  · unfold onlyRegs at hkept
    rw [hkept]
    exact ⟨rfl, rfl, rfl⟩

/-- The cursor as a write with NEXT = 1 leaves it before it looks for the next object. -/
def State.cursorAt (s : State) (i minsev : Nat) : State := (s.rsetFld rErCursor 8 3 minsev).rsetFld rErCursor 0 8 i
omit hm in
theorem State.cursorNext_eq (s : State) (i minsev : Nat) : s.cursorNext i minsev =
    match s.valid.find? (fun j => decide (i < j) && decide (minsev ≤ (s.obj j).sev)) with
    | some j => ((s.cursorAt i minsev).latch j).rclr rErCursor 25
    | none => (s.cursorAt i minsev).rset rErCursor 25 := rfl
omit hm in
theorem State.cursorAt_onlyRegs (s : State) (i minsev : Nat) : onlyRegs s (s.cursorAt i minsev) := ((onlyRegs.refl s).rsetFld ..).rsetFld ..
omit hm in
theorem State.cursorAt_win (s : State) (i minsev w : Nat) : (s.cursorAt i minsev).reg (rErWin w) = s.reg (rErWin w) := by
  have hne := rErWin_ne_rErCursor w
  rw [State.cursorAt, State.reg_rsetFld, if_neg hne, State.reg_rsetFld, if_neg hne]
theorem erCursorNext_found {i : Fin 256}
    (hnext : s.valid.find? (fun j => decide (ix.toNat < j) && decide (minsev.val ≤ (s.obj j).sev)) = some i.val) :
    answers (.erCursorNext ix minsev) s fun t => (∀ w, w < 32 → t.reg (rErWin w) = objWord i (s.obj i) w) ∧
      fld (t.reg rErCursor) 0 8 = i.val ∧ (t.reg rErCursor).getLsbD 25 = false ∧ t.recd = s.recd := by
  refine answers_of_gated hm rfl ?_
  obtain ⟨honly, hwin, hcursor⟩ := (s.cursorAt ix.toNat minsev).latch_shows i.isLt
  have hkept := (s.cursorAt_onlyRegs ix.toNat minsev).trans honly
  rw [State.cursorNext_eq, hnext]
  dsimp only
  generalize (s.cursorAt ix.toNat minsev).latch i = u at hwin hcursor hkept
  refine ⟨fun w hw => ?_, ?_, ?_, ?_⟩
  · rw [State.reg_rclr, if_neg (rErWin_ne_rErCursor w)]
    exact hwin w hw
  · rw [State.reg_rclr, if_pos rfl, hcursor, fld_clrBit_other _ (by decide) (by decide), fld_putBit_other _ _ (by decide) (by decide),
      fld_setFld_same _ _ _ _ (by decide)]
    exact Nat.mod_eq_of_lt i.isLt
  · rw [State.reg_rclr, if_pos rfl, getLsbD_clrBit _ _ _ (by decide)]
    simp
  · unfold onlyRegs at hkept
    rw [hkept]
    rfl
theorem erCursorNext_none (hnext : s.valid.find? (fun j => decide (ix.toNat < j) && decide (minsev.val ≤ (s.obj j).sev)) = none) :
    answers (.erCursorNext ix minsev) s fun t => (t.reg rErCursor).getLsbD 25 = true ∧ ∀ w, w < 32 → t.reg (rErWin w) = s.reg (rErWin w) := by
  refine answers_of_gated hm rfl ?_
  rw [State.cursorNext_eq, hnext]
  exact ⟨State.rbit_rset_same _ _ (by decide), fun w _ => by
    rw [State.reg_rset, if_neg (rErWin_ne_rErCursor w), State.cursorAt_win]⟩

/-! ### A clear is asked for (R477) -/

omit ix minsev in
theorem erClrctl_asks (hclear : s.recd.clear = .none) (v : Word) :
    (fld v 0 16 = 0xE2C1 → answers (.erClrctl v) s fun t => t.recd = { s.recd with clear := .check v } ∧ t.regs = s.regs ∧
      ∃ r, t.ports.cpWait = s.ports.cpWait ++ [r] ∧ r.user = .clear ∧ r.op = opCheck) ∧
    (fld v 0 16 ≠ 0xE2C1 → answers (.erClrctl v) s fun t => t = s.rset rErStat 7) := by
  refine ⟨fun hkey => ?_, fun hkey => ?_⟩
  · refine answers_of_gated hm rfl ?_
    unfold State.clrCtl
    rw [if_pos ⟨hkey, hclear⟩]
    exact ⟨rfl, rfl, _, rfl, rfl, rfl⟩
  · refine answers_of_gated hm rfl ?_
    unfold State.clrCtl
    rw [if_neg fun h => hkey h.1]

end

/-! ### The pass of a clear (R478, R479) -/

theorem State.foldl_free {l : List Nat} (s : State) (k : Nat) :
    (l.foldl (fun (s : State) i => s.setObj i {}) s).obj k = if k ∈ l then {} else s.obj k := by
  induction l generalizing s with
  | nil => rfl
  | cons i l ih =>
    rw [List.foldl_cons, ih, State.obj_setObj]
    by_cases hk : k ∈ l <;> by_cases hi : k = i <;> simp [hk, hi]

theorem State.create_clear (s : State) (i : Nat) {u : RecUpd} (hu : u.key = clearKey) (hsev : u.sev = 4) :
    (∀ k, (s.create i u).obj k = if k = i then (s.newObj u).take u.dat s.aon true else s.obj k) ∧ (s.create i u).regs = s.regs ∧
    (s.create i u).recd.clear = s.recd.clear := by
  have hnew (k : Nat) := s.obj_setObj i k ((s.newObj u).take u.dat s.aon true)
  have hask (t : State) (b : Bool) : (t.askCommit b).recd.pool = t.recd.pool ∧ (t.askCommit b).regs = t.regs ∧
      (t.askCommit b).recd.clear = t.recd.clear := by
    unfold State.askCommit
    split
    · exact ⟨rfl, rfl, rfl⟩
    · split <;> exact ⟨rfl, rfl, rfl⟩
  have hstand (t : State) : t.keyStand u.key = none := by
    rw [hu]
    rfl
  unfold State.create
  dsimp only
  rw [if_neg (by simp [hsev]), if_pos (by omega), hstand]
  dsimp only
  obtain ⟨hpool, hregs, hclear⟩ := hask _ _
  exact ⟨fun k => (State.obj_of_pool hpool k).trans (hnew k), hregs, hclear⟩

/-- The objects that a clear of severities up to `top` frees. -/
def State.clearGoes (s : State) (top i : Nat) : Bool := (s.obj i).valid && decide ((s.obj i).sev ≤ top) && decide ((s.obj i).key ≠ clearKey)
/-- The update with which a clear records itself. -/
def clearUpd (top : Nat) : RecUpd := { key := clearKey, sev := 4, dat := .bin top 1 }
/-- The pass up to its own record: objects freed and, by bit 19, the counters. -/
def State.clearFreed (s : State) (v : Word) : State :=
  let s1 := (s.valid.filter (s.clearGoes (min 4 (fld v 16 3)))).foldl (fun (s : State) i => s.setObj i {}) (s.modRec fun r => { r with clear := .none })
  if v.getLsbD 19 then ((List.range 5).foldl (fun (s : State) k => s.setReg (rErDrop k) 0#32) s1).setReg rErRepl 0#32 else s1

theorem exec_recorderClearPass {s : State} {v : Word} (hm : s.mode ≠ .halted) (hclear : s.recd.clear = .pass v) (hlen : s.valid.length < 256) :
    exec .recorderClearPass s = .next ((((s.clearFreed v).applyUpd (clearUpd (min 4 (fld v 16 3)))).askCommit true).rset rErStat 4) := by
  have hroom : ¬ ((!s.valid.any (fun i => decide ((s.obj i).key = clearKey)) && decide (s.valid.length = 256) &&
      !s.valid.any (s.clearGoes (min 4 (fld v 16 3)))) = true) := by
    simp [Nat.ne_of_lt hlen]
  show execRecorderClearPass s = _
  unfold execRecorderClearPass
  rw [hclear]
  dsimp only
  rw [if_neg hm]
  exact congrArg Host.Outcome.next (if_neg hroom)

theorem rErDrop_inj {k j : Nat} (h : rErDrop k = rErDrop j) : k = j := by
  simp only [rErDrop, rEr] at h
  omega
section
variable {s : State} {v : Word}

theorem State.freed_frame (l : List Nat) (s : State) :
    (l.foldl (fun (s : State) i => s.setObj i {}) s).recd.clear = s.recd.clear := by
  induction l generalizing s with
  | nil => rfl
  | cons i l ih => exact ih (s.setObj i {})
theorem State.clearFreed_leaves (s : State) (v : Word) : (s.clearFreed v).recd.clear = .none ∧
    (∀ k, k < 256 → (s.clearFreed v).obj k = if s.clearGoes (min 4 (fld v 16 3)) k then {} else s.obj k) ∧
    (v.getLsbD 19 = true → ∀ k, k < 5 → (s.clearFreed v).reg (rErDrop k) = 0#32) := by
  let s1 := (s.valid.filter (s.clearGoes (min 4 (fld v 16 3)))).foldl (fun (s : State) i => s.setObj i {}) (s.modRec fun r => { r with clear := .none })
  have hclear : s1.recd.clear = .none := State.freed_frame _ _
  have hobj {k : Nat} (hk : k < 256) : s1.obj k = if s.clearGoes (min 4 (fld v 16 3)) k then {} else s.obj k := by
    refine (State.foldl_free _ k).trans ?_
    have hmem : k ∈ s.valid.filter (s.clearGoes (min 4 (fld v 16 3))) ↔ s.clearGoes (min 4 (fld v 16 3)) k = true := by
      rw [List.mem_filter, State.mem_valid, and_iff_right_iff_imp]
      intro h
      simp only [State.clearGoes, Bool.and_eq_true] at h
      exact ⟨hk, h.1.1⟩
    simp only [hmem]
    rfl
  have hfreed : s.clearFreed v =
      if v.getLsbD 19 then ((List.range 5).foldl (fun (s : State) k => s.setReg (rErDrop k) 0#32) s1).setReg rErRepl 0#32 else s1 := rfl
  clear_value s1
  rw [hfreed]
  split
  · have hframe : onlyRegs s1 ((List.range 5).foldl (fun (s : State) k => s.setReg (rErDrop k) 0#32) s1) :=
      State.foldl_setReg_frame (List.range 5) rErDrop (fun _ => 0#32) s1
    have hdrop {k : Nat} (hk : k < 5) : ((List.range 5).foldl (fun (s : State) k => s.setReg (rErDrop k) 0#32) s1).reg (rErDrop k) = 0#32 :=
      State.foldl_setReg_reg List.nodup_range rErDrop (fun _ _ => rErDrop_inj) (fun _ => 0#32) s1 (List.mem_range.2 hk)
    generalize (List.range 5).foldl (fun (s : State) k => s.setReg (rErDrop k) 0#32) s1 = u at hframe hdrop
    have hrecd : u.recd = s1.recd := by
      unfold onlyRegs at hframe
      rw [hframe]
    refine ⟨(congrArg Recorder.clear hrecd).trans hclear, fun k hk => ?_, fun _ k hk => ?_⟩
    · exact (State.obj_of_pool (congrArg Recorder.pool hrecd) k).trans (hobj hk)
    · have hne : rErDrop k ≠ rErRepl := by
        simp only [rErDrop, rErRepl, rEr]
        omega
      rw [State.reg_setReg, if_neg hne, hdrop hk]
  · next h19 => exact ⟨hclear, fun k hk => hobj hk, fun h => absurd h h19⟩

/-- A pool with a free slot has one after the pass. -/
theorem State.clearFreed_room (hlen : s.valid.length < 256) : (List.range 256).find? (fun i => !((s.clearFreed v).obj i).valid) ≠ none := by
  intro hnone
  have hall : ∀ k < 256, (s.obj k).valid = true := by
    intro k hk
    have hvalid := List.find?_eq_none.1 hnone k (List.mem_range.2 hk)
    rw [(s.clearFreed_leaves v).2.1 k hk] at hvalid
    split at hvalid
    · exact absurd rfl hvalid
    · simpa using hvalid
  have hfull : s.valid = List.range 256 := by
    rw [State.valid, members, List.filter_eq_self]
    exact fun k hk => hall k (List.mem_range.1 hk)
  rw [hfull, List.length_range] at hlen
  exact absurd hlen (Nat.lt_irrefl _)

/-- The record of the clear: one object of the clear's key; every other object stays. -/
theorem State.clearRecorded (top : Nat) (hroom : (List.range 256).find? (fun i => !(s.obj i).valid) ≠ none) : ∃ i, i < 256 ∧
    ((s.obj i).valid = true → (s.obj i).key = clearKey) ∧ ((s.applyUpd (clearUpd top)).obj i).valid = true ∧
    ((s.applyUpd (clearUpd top)).obj i).key = clearKey ∧ (∀ k, k ≠ i → (s.applyUpd (clearUpd top)).obj k = s.obj k) ∧
    (s.applyUpd (clearUpd top)).regs = s.regs ∧ (s.applyUpd (clearUpd top)).recd.clear = s.recd.clear := by
  cases hknown : s.valid.find? (fun i => decide ((s.obj i).key = (clearUpd top).key)) with
  | some i =>
    obtain ⟨hobj, hregs, -, hclear, -⟩ := State.applyUpd_known hknown
    have hkey : (s.obj i).key = (clearUpd top).key := by simpa using List.find?_some hknown
    obtain ⟨hi, hvalid⟩ := State.mem_valid.1 (List.mem_of_find?_eq_some hknown)
    have hsame := (hobj i).trans (if_pos rfl)
    refine ⟨i, hi, fun _ => hkey, ?_, ?_, fun k hk => (hobj k).trans (if_neg hk), hregs, hclear⟩
    · rw [hsame]
      exact hvalid
    · rw [hsame]
      exact hkey
  | none =>
    obtain ⟨i, hfree⟩ := Option.ne_none_iff_exists'.1 hroom
    rw [State.applyUpd_free hknown hfree]
    obtain ⟨hobj, hregs, hclear⟩ := s.create_clear i (u := clearUpd top) rfl rfl
    have hfresh : (s.obj i).valid = false := by simpa using List.find?_some hfree
    have hsame := (hobj i).trans (if_pos rfl)
    refine ⟨i, List.mem_range.1 (List.mem_of_find?_eq_some hfree), fun h => absurd h (by simp [hfresh]), ?_, ?_,
      fun k hk => (hobj k).trans (if_neg hk), hregs, hclear⟩
    · rw [hsame]
      rfl
    · rw [hsame]
      rfl

theorem recorderClearPass_clears (hm : s.mode ≠ .halted) (hclear : s.recd.clear = .pass v) (hlen : s.valid.length < 256) :
    answers .recorderClearPass s fun t => t.recd.clear = .none ∧ (t.reg rErStat).getLsbD 4 = true ∧
      (∀ k, k < 256 → (s.obj k).valid = true → (s.obj k).key ≠ clearKey →
        if (s.obj k).sev ≤ min 4 (fld v 16 3) then (t.obj k).valid = false ∨ (t.obj k).key = clearKey else t.obj k = s.obj k) ∧
      (∃ k, k < 256 ∧ (t.obj k).valid = true ∧ (t.obj k).key = clearKey) ∧
      (v.getLsbD 19 = true → ∀ k, k < 5 → t.reg (rErDrop k) = 0#32) := by
  obtain ⟨fclear, fobj, fdrop⟩ := s.clearFreed_leaves v
  obtain ⟨i, hi, hold, hvalid, hkey, hother, hregs, hcl⟩ := State.clearRecorded (min 4 (fld v 16 3)) (State.clearFreed_room (v := v) hlen)
  have hask (t : State) : ((t.askCommit true).rset rErStat 4).recd.clear = t.recd.clear ∧
      ((t.askCommit true).rset rErStat 4).recd.pool = t.recd.pool ∧
      ∀ a, a ≠ rErStat → ((t.askCommit true).rset rErStat 4).reg a = t.reg a := by
    have hcommit : (t.askCommit true).recd.clear = t.recd.clear ∧ (t.askCommit true).recd.pool = t.recd.pool ∧ (t.askCommit true).regs = t.regs := by
      unfold State.askCommit
      split
      · exact ⟨rfl, rfl, rfl⟩
      · split <;> exact ⟨rfl, rfl, rfl⟩
    obtain ⟨h1, h2, h3⟩ := hcommit
    exact ⟨h1, h2, fun a ha => by rw [State.reg_rset, if_neg ha, State.reg_eq_of_regs_eq h3]⟩
  refine ⟨_, exec_recorderClearPass hm hclear hlen, ?_⟩
  obtain ⟨aclear, apool, areg⟩ := hask ((s.clearFreed v).applyUpd (clearUpd (min 4 (fld v 16 3))))
  have aobj (k : Nat) := State.obj_of_pool apool k
  refine ⟨aclear.trans (hcl.trans fclear), State.rbit_rset_same _ _ (by decide), fun k hk hkv hkk => ?_, ⟨i, hi, ?_, ?_⟩, fun h19 k hk => ?_⟩
  · rw [aobj]
    by_cases hki : k = i
    · subst hki
      split
      · exact .inr hkey
      · next htop =>
        have hstays : (s.clearFreed v).obj k = s.obj k := (fobj k hk).trans (if_neg (by simp [State.clearGoes, htop]))
        rw [hstays] at hold
        exact absurd (hold hkv) hkk
    · rw [hother k hki, fobj k hk]
      split
      · next htop => exact .inl (by rw [if_pos (by simp [State.clearGoes, hkv, htop, hkk])])
      · next htop => exact if_neg (by simp [State.clearGoes, htop])
  · rw [aobj]
    exact hvalid
  · rw [aobj]
    exact hkey
  · have hne : rErDrop k ≠ rErStat := by
      simp only [rErDrop, rErStat, rEr]
      omega
    rw [areg _ hne, State.reg_eq_of_regs_eq hregs]
    exact fdrop h19 k hk

end

/-- Settles O44: updates by what finds their object, the window by its latch, the clear by what its pass frees and records. -/
theorem recorderKeepsObjects : Obligations.RecorderKeepsObjects := by
  unfold Obligations.RecorderKeepsObjects
  intro s u q b n i ix minsev v hm
  exact ⟨fun hqueue hclear hdat => ⟨recorderUpdateApply_known hm hqueue hclear hdat, recorderUpdateApply_free hm hqueue hclear hdat,
      recorderUpdateApply_full hm hqueue hclear hdat⟩,
    erCursorLoad_shows hm ix minsev, erCursorNext_found hm ix minsev, erCursorNext_none hm ix minsev, fun hclear => erClrctl_asks hm hclear v,
    recorderClearPass_clears hm⟩

end Machine
end Sys2Proof
end

section
/-! O37, O38, O39 and O41 refuted. Each clause refuted counts in a unit register and then answers on a channel `d`. The number of a
channel has no bound in the statements, so the configuration register of `d` (R247) can be the very counter: with the count the
allotment of `d` changes between the state of which the statement asks for room and the sending. -/
namespace Sys2Proof
namespace Machine

/-- The channel whose configuration register is counter `2 k` of service instance 0. -/
def countedChan (k : Nat) : Nat := 0x16002 + k
theorem rMcCfg_countedChan : rMcCfg (countedChan 0) = rSvCnt 0 0 ∧ rMcCfg (countedChan 1) = rSvCnt 0 2 := ⟨rfl, rfl⟩

/-- A counter that reads as an allotment of 127 words, and with one count more as none. -/
def lastRoom : Word := 0x007FFFFF#32
theorem fld_lastRoom : fld lastRoom 16 7 = 127 ∧ fld (lastRoom + 1#32) 16 7 = 0 := by decide

/-- Instance 0, of a type, runs in stand 0 on thread 0. Its ports 0, 1 and 2 are bound to channel 0, which holds the request `ws`, and to
the channels of its counters 0 and 2, which hold nothing. -/
def countedState (type : Nat) (ws : List Word) : State :=
  { mode := .run
    regs := [(rStcStat 0, 1#32), (rSvStat 0, 2#32), (rSvCnt 0 0, lastRoom), (rSvCnt 0 2, lastRoom)].foldl
      (fun b p => Bank.put regReset b p.1 p.2) []
    threads := [(0, { ports := [(0, { bound := true, ch := 0 }), (1, { bound := true, ch := countedChan 0 }),
      (2, { bound := true, ch := countedChan 1 })] })]
    chans := [(0, { msgs := [{ words := goodWords ws, total := ws.length }] })]
    image := some { svcs := [{ n := 0, type := type, stand := 0, thr := [0], se := [], ch := [], params := [] }] } }

/-- The record of its instance. -/
def countedRec (type : Nat) : SvcRec := { n := 0, type := type, stand := 0, thr := [0], se := [], ch := [], params := [] }

/-- The channel of such a counter has room for the longest message. -/
theorem countedState_roomFor (type : Nat) (ws : List Word) :
    (countedState type ws).roomFor (countedChan 0) ∧ (countedState type ws).roomFor (countedChan 1) := by
  have hfree : (countedState type ws).freeWords (countedChan 0) = 127 ∧ (countedState type ws).freeWords (countedChan 1) = 127 := by
    change (countedState 0 []).allot (countedChan 0) - 0 - 0 = 127 ∧ (countedState 0 []).allot (countedChan 1) - 0 - 0 = 127
    decide +kernel
  have hchan : (countedState type ws).chan (countedChan 0) = {} ∧ (countedState type ws).chan (countedChan 1) = {} := ⟨rfl, rfl⟩
  rw [State.roomFor, State.roomFor, hfree.1, hfree.2, hchan.1, hchan.2]
  exact ⟨⟨by decide, by decide, rfl, rfl⟩, by decide, by decide, rfl, rfl⟩
/-- A running instance has its request. -/
theorem countedState_asked {type : Nat} {ws : List Word} (hon : (countedState type ws).svOn 0 type = some (countedRec type)) :
    (countedState type ws).asked 0 type (countedRec type) 0 (countedChan 0) ws false :=
  ⟨hon, rfl, rfl, rfl, by decide, ⟨_, [], rfl, rfl, rfl⟩, show epKind 0#32 ≠ 4 by decide, (countedState_roomFor type ws).1⟩

/-- A UART request for one character. -/
def oneChar : List Word := [svHead 0x11 0 1 false 0, 65#32]
/-- A ping of the bridge. -/
def onePing : List Word := [svHead 0x0B 0 0 false 0]

/-- The response is held back, its channel being left without room by the count of the characters sent. -/
theorem uartSend_countedState : ∃ t, exec (.uartSend 0) (countedState 1 oneChar) = .next t ∧ (t.chan (countedChan 0)).msgs = [] :=
  ⟨_, rfl, by decide +kernel⟩
/-- The same of the count of requests. -/
theorem bridgePing_countedState : ∃ t, exec (.bridgePing 0) (countedState 8 onePing) = .next t ∧ (t.chan (countedChan 0)).msgs = [] :=
  ⟨_, rfl, by decide +kernel⟩
/-- The same of the count of line errors. -/
theorem uartData_countedState : ∃ t, exec (.uartData 0 [65#8] true false false false) (countedState 1 []) = .next t ∧
    (t.chan (countedChan 1)).msgs = [] :=
  ⟨_, rfl, by decide +kernel⟩

/-- An answer and an outcome of the same command are of one state. -/
theorem answers.of_exec {c : Instr} {s t : State} {P : State → Prop} (h : answers c s P) (hexec : exec c s = .next t) : P t := by
  obtain ⟨u, hu, hP⟩ := h
  rwa [← Host.Outcome.next.inj (hu.symm.trans hexec)]
/-- A channel that received a message holds one. -/
theorem received.msgs_ne {s t : State} {c d : Nat} {ws : List Word} (h : received s t c d ws) : (t.chan d).msgs ≠ [] := by
  rw [h.1]
  simp

/-- Refutes O37: of a UART request served it says that the response is received on a channel with room, but counting the character
takes the room where the channel's configuration register is the counter. -/
theorem not_servicesAnswerTheirRequests : ¬ Obligations.ServicesAnswerTheirRequests := by
  unfold Obligations.ServicesAnswerTheirRequests
  intro h
  obtain ⟨huart, -⟩ := h (countedState 1 oneChar) 0 (countedRec 1) 0 (countedChan 0) oneChar false 0 [] [] [] 0
  obtain ⟨hsend, -⟩ := huart (countedState_asked (by decide +kernel))
  obtain ⟨t, hexec, hmsgs⟩ := uartSend_countedState
  obtain ⟨⟨-, hreceived, -⟩, -⟩ := (hsend (by decide) (by decide) (by decide)).of_exec hexec
  exact hreceived.msgs_ne hmsgs

/-- Refutes O38: the same of a ping, which is counted before it is answered. -/
theorem not_bridgeReadsWritesAndAnswersPing : ¬ Obligations.BridgeReadsWritesAndAnswersPing := by
  unfold Obligations.BridgeReadsWritesAndAnswersPing
  intro h
  obtain ⟨hping, -⟩ := h (countedState 8 onePing) 0 (countedRec 8) 0 (countedChan 0) onePing false 0
    (countedState_asked (by decide +kernel)) (by decide)
  obtain ⟨t, hexec, hmsgs⟩ := bridgePing_countedState
  obtain ⟨-, hreceived, -⟩ := (hping (by decide) (by decide) (by decide)).of_exec hexec
  exact hreceived.msgs_ne hmsgs

/-- Refutes O39: the same of a character with a parity error, which is counted before the message goes to the application. -/
theorem not_servicesServeTheLine : ¬ Obligations.ServicesServeTheLine := by
  unfold Obligations.ServicesServeTheLine
  intro h
  obtain ⟨-, huart, -⟩ := h (countedState 1 []) 0 (countedRec 1) (countedChan 1) [] 65 0 0 0 0 0 [] 0 0 0 0 0 rfl
  obtain ⟨-, hparity, -⟩ := huart (by decide +kernel) rfl
  obtain ⟨t, hexec, hmsgs⟩ := uartData_countedState
  obtain ⟨hreceived, -⟩ := (hparity rfl (countedState_roomFor 1 []).2 rfl).of_exec hexec
  exact hreceived.msgs_ne hmsgs

/-- The channel whose configuration register is the count of words lost on links. -/
def lostChan : Nat := 0xC204
theorem rMcCfg_lostChan : rMcCfg lostChan = rLkLost := rfl
/-- Link 0 is UP and leads to node 5. The channel of the lost words is fed by node 5, and has an allotment of 0. -/
def lostState : State :=
  { mode := .run
    regs := [(rLkCfg 0, 1#32), (rLkNodeId, 1#32)].foldl (fun b p => Bank.put regReset b p.1 p.2) []
    chans := [(lostChan, { hasRec := true, sendEp := 0x40000000#32 })]
    links := [(0, { up := true })]
    image := some { nodes := [(5#32, 0)] } }
theorem lostState_linkIdle : lostState.linkIdle 0 := by
  refine ⟨by decide +kernel, by decide +kernel, rfl, by decide, by decide, ?_, rfl, rfl⟩
  decide
/-- The SYNC with counters 0 and 5 is granted 5 words, the number of those lost. -/
theorem syncFrame_lostState : ∃ t, exec (.syncFrame 0 (lostState.nextFrame 0 lostState.nodeId 5#32 lostChan (leBytes 2 0 ++ leBytes 2 5))) lostState =
    .next t ∧ (t.lk 0).line.map (fun p => p.2.payload.head?) = some (some 5#8) :=
  ⟨_, rfl, by decide +kernel⟩

/-- Refutes O41: of a SYNC taken it says that the GRANT names the words free before it, but the words lost are counted first, which
changes the allotment where the channel's configuration register is that counter. -/
theorem not_linkFramesAreTakenInOrder : ¬ Obligations.LinkFramesAreTakenInOrder := by
  unfold Obligations.LinkFramesAreTakenInOrder
  intro h
  obtain ⟨-, hframes⟩ := h lostState 0 lostChan 5 0 0 0 5#32 0#32 0#32 0#32 [] ⟨.ack, { dst := 0#32, src := 0#32 }, 0, none, 0, 0⟩ ⟨[], 0, false, false⟩ [] rfl
  obtain ⟨-, -, -, -, hsync, -⟩ := hframes lostState_linkIdle
  obtain ⟨t, hexec, hline⟩ := syncFrame_lostState
  obtain ⟨-, -, -, g, hg, -, -, hpay⟩ := (hsync (by decide +kernel) (by decide +kernel) (by decide) (by decide +kernel)).of_exec hexec
  have hfree : lostState.freeWords lostChan = 0 := by decide +kernel
  rw [show (t.lk 0).line = _ from hg] at hline
  rw [hfree] at hpay
  simp [hpay] at hline

end Machine
end Sys2Proof
end

section
/-! Services at their channels (R413): the head message taken, a message put where there is room; what else of the state that leaves alone. -/
namespace Sys2Proof
namespace Machine

/-! ### Service instances -/

section
variable (s : State) (i : Nat)

@[simp] theorem State.svc_modSvc (f : Svc → Svc) : (s.modSvc i f).svc i = f (s.svc i) := by
  simp [State.modSvc, State.svc]
@[simp] theorem State.dnp_modSvc (f : Svc → Svc) : (s.modSvc i f).dnp i = (f (s.svc i)).dnp := by
  simp [State.dnp]
@[simp] theorem State.svc_modDnp (f : Dnp → Dnp) : (s.modDnp i f).svc i = { s.svc i with dnp := f (s.dnp i) } := by
  simp [State.modDnp, State.dnp]
@[simp] theorem State.dnp_modDnp (f : Dnp → Dnp) : (s.modDnp i f).dnp i = f (s.dnp i) := by
  simp [State.dnp]
end

/-- Nothing but services differs. -/
def svcsOnly (s t : State) : Prop := t = { s with svcs := t.svcs }

section
variable {s t u : State}

theorem svcsOnly.refl (s : State) : svcsOnly s s := rfl
theorem svcsOnly.modSvc (h : svcsOnly s t) (i : Nat) (f : Svc → Svc) : svcsOnly s (t.modSvc i f) := by
  rw [svcsOnly, h]; rfl
theorem svcsOnly.modDnp (h : svcsOnly s t) (i : Nat) (f : Dnp → Dnp) : svcsOnly s (t.modDnp i f) := h.modSvc i _
theorem svcsOnly.trans (h : svcsOnly s t) (k : svcsOnly t u) : svcsOnly s u := by
  rw [svcsOnly, k, h]
theorem svcsOnly.dataKept (h : svcsOnly s t) : dataKept s t := by rw [h]; exact ⟨rfl, rfl, rfl⟩
theorem svcsOnly.regs (h : svcsOnly s t) : t.regs = s.regs := by rw [h]
theorem svcsOnly.reg (h : svcsOnly s t) (a : Nat) : t.reg a = s.reg a := by rw [h]; rfl
theorem svcsOnly.chan (h : svcsOnly s t) (c : Nat) : t.chan c = s.chan c := by rw [h]; rfl
end

/-! ### Taking a message -/

/-- Nothing but the pool and MC_POOLERR differs. -/
def poolOnly (s t : State) : Prop := t = { s with pool := t.pool, regs := t.regs } ∧ sameRegs s t (fun a => a = rMcPoolErr)

theorem poolOnly.each {s t : State} (h : poolOnly s t) (l : List Nat) {f : State → Nat → State}
    (hf : ∀ t n, poolOnly s t → poolOnly s (f t n)) : poolOnly s (t.each l f) := by
  induction l generalizing t with
  | nil => exact h
  | cons n l ih => exact ih (hf t n h)
theorem poolOnly.readRow {s t : State} (h : poolOnly s t) (row : Nat) : poolOnly s (t.readRow row) :=
  h.each _ fun t j ht => by
    dsimp only
    split
    · obtain ⟨hframe, hregs⟩ := ht
      refine ⟨?_, fun a ha => ?_⟩
      · rw [hframe]; rfl
      · rw [State.reg_rcount, if_neg ha, State.reg_setPool, hregs a ha]
    · exact ht
theorem State.readWords_poolOnly (s : State) (c k n : Nat) : poolOnly s (s.readWords c k n) :=
  poolOnly.each ⟨rfl, fun _ _ => rfl⟩ _ fun _ _ ht => ht.readRow _

/-- `t` is `s` with the head message of channel `c` taken, by a service that holds nothing back: `rest` stay. -/
structure tookHead (s t : State) (i c : Nat) (rest : List Msg) : Prop where
  frame : t = { s with pool := t.pool, regs := t.regs, chans := t.chans, svcs := t.svcs }
  regs : sameRegs s t (fun a => a = rMcPoolErr)
  svc : t.svc i = s.svc i
  msgs : (t.chan c).msgs = rest

theorem State.freeHead_msgs {s : State} {c : Nat} {m : Msg} {rest : List Msg} (h : (s.chan c).msgs = m :: rest) :
    ((s.freeHead c).chan c).msgs = rest := by
  obtain ⟨ch', ⟨hch, -⟩, hmsgs, -⟩ := (chanOnly.refl s c).freeHead h
  rw [hch, hmsgs]
theorem any_bad_goodWords (ws : List Word) : (goodWords ws).any (·.bad) = false := by simp [goodWords]
theorem map_v_goodWords (ws : List Word) : (goodWords ws).map (·.v) = ws := by simp [goodWords, Function.comp_def]

/-- A service that holds nothing back takes the head message of its channel (R413). -/
theorem State.svTake_head {s : State} {i role p c : Nat} {r : SvcRec} {m : Msg} {rest : List Msg} {ws : List Word}
    (hout : (s.svc i).out = []) (hchan : s.svChan r role p = some c) (hmsgs : (s.chan c).msgs = m :: rest) (hws : m.words = goodWords ws) :
    ∃ t, s.svTake i r role p = (some ws, t) ∧ tookHead s t i c rest := by
  let s1 := s.modSvc i (fun v => { v with out := [] })
  have hflush : s.svFlush i = s1 := by simp only [State.svFlush, hout, State.svFlushN, s1]
  have hsvc : s1.svc i = s.svc i := by rw [State.svc_modSvc, ← hout]
  have htake : s.svTake i r role p = (some ws, (s1.readWords c 0 m.words.length).freeHead c) := by
    have hchan1 : s1.svChan r role p = some c := hchan
    have hmsgs1 : (s1.chan c).msgs = m :: rest := hmsgs
    simp only [State.svTake, hflush, hsvc, hout, hchan1, hmsgs1, hws, any_bad_goodWords, map_v_goodWords, List.isEmpty_nil, Bool.not_true,
      Bool.false_eq_true, if_false]
  obtain ⟨hframe, hregs⟩ := s1.readWords_poolOnly c 0 m.words.length
  have hmsgs2 : ((s1.readWords c 0 m.words.length).chan c).msgs = m :: rest := by
    rw [hframe]; exact hmsgs
  refine ⟨_, htake, ?_, hregs, ?_, State.freeHead_msgs hmsgs2⟩
  · rw [hframe]; rfl
  · rw [← hsvc, hframe]; rfl

/-! ### Putting a message -/

/-- Words staged one after the other. -/
theorem State.stage_spec (c : Nat) : ∀ (ws : List Word) (s : State), ∃ wr, (s.stage c ws).chan c =
    { s.chan c with staged := (s.chan c).staged ++ goodWords ws, wr := wr } ∧ (∀ k, k ≠ c → (s.stage c ws).chan k = s.chan k) ∧
    s.stage c ws = { s with pool := (s.stage c ws).pool, chans := (s.stage c ws).chans }
  | [], s => ⟨(s.chan c).wr, by simp [State.stage, goodWords], fun _ _ => rfl, rfl⟩
  | w :: ws, s => by
    obtain ⟨hch, hother, -⟩ := chanOnly_stage s c w
    obtain ⟨wr, hch', hother', hframe⟩ := State.stage_spec c ws (s.stage c [w])
    have hstep : s.stage c (w :: ws) = (s.stage c [w]).stage c ws := rfl
    refine ⟨wr, ?_, fun k hk => ?_, ?_⟩
    · rw [hstep, hch', hch]
      simp [goodWords]
    · rw [hstep, hother' k hk, hother k hk]
    · rw [hstep, hframe]; rfl

/-- A message of at most 32 words is put into a channel with room for the longest (R413). -/
theorem State.putMsg_roomFor {s : State} {d : Nat} {ws : List Word} (hroom : s.roomFor d) (hlen : ws.length ≤ 32) :
    ∃ t, s.putMsg d ws = some t ∧ received s t d d ws ∧ t = { s with pool := t.pool, chans := t.chans } := by
  obtain ⟨hfree, hmsgs, hstaged, -⟩ := hroom
  have hput : s.putMsg d ws = some ((s.stage d ws).publish d) := by
    have hfull : (s.chan d).fullMsgs = false := by simp [Chan.fullMsgs]; omega
    have hwords : ¬ s.freeWords d < ws.length := by omega
    simp [State.putMsg, hfull, hwords]
  obtain ⟨wr, hch, hother, hframe⟩ := State.stage_spec d ws s
  obtain ⟨hpub, hpubother, -⟩ := (chanOnly.refl (s.stage d ws) d).publish
  refine ⟨_, hput, ⟨?_, fun k _ hk => ?_⟩, ?_⟩
  · rw [hpub, hch, hstaged]
    simp [goodWords]
  · rw [hpubother k hk, hother k hk]
  · rw [hframe]; rfl

end Machine
end Sys2Proof
end

section
/-! The DNP3 outstation (R422–R428): what it sends, controls answered, events stored; and O40. -/
namespace Sys2Proof
namespace Machine

/-! ### Octets sent (R422, R423) -/

/-- Nothing but services differs, and of outstation `i` nothing but what sending the fragment `b` changes. -/
structure sentOnly (s t : State) (i : Nat) (b : List Byte) : Prop where
  frame : svcsOnly s t
  dnp : t.dnp i = { s.dnp i with
    iin := (t.dnp i).iin, more := (t.dnp i).more, mseq := (t.dnp i).mseq, tseq := (t.dnp i).tseq, out := (t.dnp i).out
    dlTries := (t.dnp i).dlTries, sent := b }

section
variable (s : State) (i : Nat) (r : SvcRec)

theorem State.dlPush_keeps : svcsOnly s (s.dlPush i r) ∧ (s.dlPush i r).dnp i = s.dnp i := by
  unfold State.dlPush
  split
  · exact ⟨.refl s, rfl⟩
  · exact ⟨(svcsOnly.refl s).modSvc _ _, State.dnp_modSvc s i _⟩

theorem State.dlSend_sentOnly (b : List Byte) : sentOnly s (s.dlSend i r b) i b := by
  unfold State.dlSend
  extract_lets segs s1
  have hs1 : svcsOnly s s1 := (svcsOnly.refl s).modDnp i _
  have hdnp1 : s1.dnp i = { s.dnp i with tseq := (s1.dnp i).tseq, sent := b } := by simp [s1]
  split
  · obtain ⟨hframe, hdnp⟩ := (s1.modDnp i (fun d => { d with out := d.out ++ segs, dlTries := some (d.dlTries.getD 0) })).dlPush_keeps i r
    refine ⟨(hs1.modDnp i _).trans hframe, ?_⟩
    rw [hdnp, State.dnp_modDnp, hdnp1]
  · refine ⟨hs1.modSvc i _, ?_⟩
    rw [State.dnp_modSvc, show (s1.svc i).dnp = _ from hdnp1]

/-- The octets of a fragment: control octet, function code, IIN, and the objects that fit. -/
def State.fragOctets (fc seq : Nat) (first con : Bool) (objs : List (List Byte)) : List Byte :=
  let fit := takeFit 2044 objs
  [BitVec.ofNat 8 (128 * b2n first + 64 * b2n fit.2.isEmpty + 32 * b2n (con || !fit.2.isEmpty) + 16 * b2n (fc == 130) + seq % 16),
    BitVec.ofNat 8 fc] ++ leBytes 2 (s.dnp i).iinNow.toNat ++ fit.1.flatten

theorem State.appFrag_sentOnly (fc seq : Nat) (first con : Bool) (objs : List (List Byte)) :
    sentOnly s (s.appFrag i r fc seq first con objs) i (s.fragOctets i fc seq first con objs) := by
  unfold State.appFrag
  extract_lets fit d ac b
  obtain ⟨hframe, hdnp⟩ := (s.modDnp i (fun d => { d with iin := d.iin &&& ~~~ 0x0701#16, more := fit.2, mseq := seq })).dlSend_sentOnly i r b
  refine ⟨((svcsOnly.refl s).modDnp i _).trans hframe, ?_⟩
  rw [hdnp, State.dnp_modDnp]
  rfl

/-- A response of one object that fits, without a confirmation. -/
theorem State.appSendObjs_one (seq : Nat) {o : List Byte} (hlen : o.length ≤ 2044) : sentOnly s (s.appSendObjs i r 129 seq false [o]) i
    ([BitVec.ofNat 8 (0xC0 + seq % 16), BitVec.ofNat 8 129] ++ leBytes 2 (s.dnp i).iinNow.toNat ++ o) := by
  have hoct : s.fragOctets i 129 seq true false [o] =
      [BitVec.ofNat 8 (0xC0 + seq % 16), BitVec.ofNat 8 129] ++ leBytes 2 (s.dnp i).iinNow.toNat ++ o := by
    simp [State.fragOctets, takeFit, hlen, b2n]
  exact hoct ▸ s.appFrag_sentOnly i r 129 seq true false [o]

/-- An unsolicited response sent waits for its confirmation (R425). -/
theorem State.unsol_waits (tries : Nat) : svcsOnly s (s.unsol i r tries) ∧ ((s.unsol i r tries).dnp i).unsolWait = some tries ∧
    ((s.unsol i r tries).dnp i).sent.getD 1 0#8 = 130#8 := by
  unfold State.unsol
  extract_lets s1
  obtain ⟨hframe, hdnp⟩ := s1.appFrag_sentOnly i r 130 (s1.dnp i).useq true true
    (if (s1.dnp i).null then [] else (s1.dnp i).eventObjs (fun e => if e.sent then some 0 else none))
  have hwait : (s1.dnp i).unsolWait = some tries := by simp [s1]
  unfold State.appSendObjs
  refine ⟨((svcsOnly.refl s).modDnp i _).trans hframe, ?_, ?_⟩
  · rw [hdnp]
    exact hwait
  · rw [hdnp]
    rfl

/-! ### Controls (R428) -/

/-- The last control of a request has its status: the master is answered. -/
theorem State.ctlDone_last {seq code : Nat} (htodo : (s.dnp i).todo = []) (hreq : (s.dnp i).req = some (seq, true))
    (hlen : (ctlEcho ((s.dnp i).ctl.length + 1) (s.dnp i).ctl ((s.dnp i).codes ++ [code])).length ≤ 2044) :
    svcsOnly s (s.ctlDone i r code) ∧ ((s.ctlDone i r code).dnp i).ctlTag = none ∧
    ((s.ctlDone i r code).dnp i).codes = (s.dnp i).codes ++ [code] ∧ ((s.ctlDone i r code).dnp i).req = none ∧
    ((s.ctlDone i r code).dnp i).sent = [BitVec.ofNat 8 (0xC0 + seq % 16), BitVec.ofNat 8 129] ++ leBytes 2 (s.dnp i).iinNow.toNat ++
      ctlEcho ((s.dnp i).ctl.length + 1) (s.dnp i).ctl ((s.dnp i).codes ++ [code]) := by
  let s1 := s.modDnp i (fun d => { d with ctlTag := none, codes := d.codes ++ [code] })
  let s2 := s1.modDnp i (fun d => { d with req := none })
  let o := ctlEcho ((s.dnp i).ctl.length + 1) (s.dnp i).ctl ((s.dnp i).codes ++ [code])
  have hs1 : s1.dnp i = { s.dnp i with ctlTag := none, codes := (s.dnp i).codes ++ [code] } := State.dnp_modDnp s i _
  have hs2 : s2.dnp i = { s.dnp i with ctlTag := none, codes := (s.dnp i).codes ++ [code], req := none } := by
    rw [State.dnp_modDnp, hs1]
  have hdone : s.ctlDone i r code = s2.appSendObjs i r 129 seq false [o] := by
    have h1 : (s1.dnp i).todo.any (·.2) = false := by rw [hs1]; simp [htodo]
    have h2 : (s1.dnp i).req = some (seq, true) := by rw [hs1]; exact hreq
    have h3 : (s1.dnp i).ctl = (s.dnp i).ctl ∧ (s1.dnp i).codes = (s.dnp i).codes ++ [code] := by rw [hs1]; exact ⟨rfl, rfl⟩
    change (if (s1.dnp i).todo.any (·.2) then s1 else _) = _
    rw [h1, h2]
    change s2.appSendObjs i r 129 seq false [ctlEcho ((s1.dnp i).ctl.length + 1) (s1.dnp i).ctl (s1.dnp i).codes] = _
    rw [h3.1, h3.2]
  obtain ⟨hframe, hdnp⟩ := s2.appSendObjs_one i r seq hlen
  rw [hdone]
  refine ⟨(((svcsOnly.refl s).modDnp i _).modDnp i _).trans hframe, ?_, ?_, ?_, ?_⟩
  · rw [hdnp, hs2]
  · rw [hdnp, hs2]
  · rw [hdnp, hs2]
  · rw [hdnp, hs2]
    rfl
end

/-! ### Events (R425) -/

/-- A table word read where it stands clean (R414): nothing but the scratchpad's own state differs. -/
theorem State.svRead_clean {s : State} {a : Nat} (hlim : a < s.spLimit) (hbad : s.spPoisoned (wordOf a) = false) (hunder : s.sp.under = none) :
    ∃ w t, s.svRead a = (some w, t) ∧ t = { s with sp := t.sp, mem := t.mem } := by
  let u := s.dmaGrant (wordBank (wordOf a))
  obtain ⟨t, hread, hframe, -⟩ := State.spRead_clean (s := u) hbad hunder .master
  refine ⟨BitVec.ofNat 32 (t.spReadLE (a / 4 * 4) 4), t, ?_, ?_⟩
  · have hgood : SpOut.good .clean = true := rfl
    simp only [State.svRead, if_neg (Nat.not_le.mpr hlim), show s.dmaGrant (wordBank (wordOf a)) = u from rfl, hread, hgood, if_true]
  · rw [hframe]; rfl

/-- Where a word stands, and whether it is poisoned, rests on the page table and the scratchpad's own state alone. -/
theorem State.home_congr {s t : State} (hcfg : t.reg rSpCfg = s.reg rSpCfg) (hret : ∀ e, t.reg (rSpRet e) = s.reg (rSpRet e)) (hsp : t.sp = s.sp)
    (hkind : t.kind = s.kind) (w : Nat) : t.home w = s.home w := by
  simp only [State.home, State.retEntries, State.retDst, State.poolPage, State.sparePages, State.rfld, State.rbit, hcfg, hret, hsp, hkind]
  rfl
theorem State.spPoisoned_congr {s t : State} (hcfg : t.reg rSpCfg = s.reg rSpCfg) (hret : ∀ e, t.reg (rSpRet e) = s.reg (rSpRet e))
    (hsp : t.sp = s.sp) (hkind : t.kind = s.kind) (w : Nat) : t.spPoisoned w = s.spPoisoned w := by
  rw [State.spPoisoned, State.home_congr hcfg hret hsp hkind, State.badAt, hsp]
  rfl

/-- An event stored where there is a place, unsolicited responses being off. -/
theorem State.dnpStore_free {s : State} {i : Nat} {r : SvcRec} (e : DnpEvent) (hroom : (s.dnp i).events.length < r.par 42 2)
    (hoff : r.parBit 22 0 = false) : s.dnpStore i r e = s.modDnp i (fun d => { d with events := d.events ++ [e] }) := by
  simp [State.dnpStore, Nat.not_le.mpr hroom, State.unsolFree, hoff]

/-- A message of the events endpoint with a class of its own, for a binary input. -/
theorem exec_dnp3Event {s : State} {i : Fin 64} {r : SvcRec} {c : Nat} {p v : Word} {m : Msg} {rest : List Msg} (hon : s.svOn i 3 = some r)
    (hout : (s.svc i).out = []) (hunder : s.sp.under = none) (hchan : s.svChan r 1 2 = some c) (hmsgs : (s.chan c).msgs = m :: rest)
    (hwords : m.words = goodWords [svHead 0x32 0 0 false 0, p, v]) (hentry : fld p 24 3 = 0) (hcls : fld p 28 2 ≠ 0)
    (halign : r.par 44 4 % 16 = 0) (hlim : r.par 44 4 + 4 < s.spLimit) (hbad : s.spPoisoned (wordOf (r.par 44 4)) = false)
    (hoff : r.parBit 22 0 = false) (hroom : (s.dnp i).events.length < r.par 42 2) :
    answers (.dnp3Event i) s fun t => (t.chan c).msgs = rest ∧ ∃ e, (t.dnp i).events = (s.dnp i).events ++ [e] ∧ e.cls = fld p 28 2 ∧
      e.point = p ∧ e.value = v ∧ e.sent = false := by
  obtain ⟨t, htake, hframe, hregs, hsvc, hrest⟩ := State.svTake_head hout hchan hmsgs hwords
  have hreg : ∀ a, a ≠ rMcPoolErr → t.reg a = s.reg a := hregs
  have hlimit : t.spLimit = s.spLimit := by
    rw [State.spLimit, State.spLimit, State.sparePages, State.sparePages, State.rfld, State.rfld, hreg _ (by decide), hframe]
  have hword : wordOf (r.par 44 4 + 8 * 0 + 4) = wordOf (r.par 44 4) := by simp only [wordOf]; omega
  have hpois : t.spPoisoned (wordOf (r.par 44 4 + 8 * 0 + 4)) = false := by
    rw [hword, State.spPoisoned_congr (hreg _ (by decide)) (fun e => hreg _ (by simp only [rSpRet, rSp, rMcPoolErr]; omega)) (by rw [hframe]) (by rw [hframe])]
    exact hbad
  obtain ⟨cfg, u, hread, hframe'⟩ := State.svRead_clean (s := t) (by rw [hlimit]; exact hlim) hpois (by rw [hframe]; exact hunder)
  have hdnp : u.dnp i = s.dnp i := by
    rw [hframe', State.dnp, State.dnp, ← hsvc]; rfl
  let e : DnpEvent := { cls := fld p 28 2, point := p, value := v, ms := u.dnpTime i }
  have hexec : exec (.dnp3Event i) s = .next (u.dnpStore i r e) := by
    obtain ⟨hopc, hlen⟩ : mOpc [svHead 0x32 0 0 false 0, p, v] = 0x32 ∧ mLen [svHead 0x32 0 0 false 0, p, v] = 0 := by
      change fld (svHead 0x32 0 0 false 0) 0 8 = 0x32 ∧ fld (svHead 0x32 0 0 false 0) 16 7 = 0
      decide
    obtain ⟨h1, h2⟩ : mWord [svHead 0x32 0 0 false 0, p, v] 1 = p ∧ mWord [svHead 0x32 0 0 false 0, p, v] 2 = v := ⟨rfl, rfl⟩
    show execDnp3Event i s = _
    simp [execDnp3Event, hon, htake, hopc, hlen, h1, h2, hentry, hread, hcls, e]
  refine ⟨_, hexec, ?_, e, ?_, rfl, rfl, rfl, rfl⟩
  · rw [State.dnpStore_free e (by rw [hdnp]; exact hroom) hoff, hframe']
    exact hrest
  · rw [State.dnpStore_free e (by rw [hdnp]; exact hroom) hoff, State.dnp_modDnp, hdnp]

/-- A primary frame without its confirmation is repeated, or what waits is given up (R422). -/
theorem exec_dnp3LinkConfirmTimeout {s : State} {i : Fin 64} {r : SvcRec} {k : Nat} (hon : s.svOn i 3 = some r) (htries : (s.dnp i).dlTries = some k) :
    answers (.dnp3LinkConfirmTimeout i) s fun t => t.dnp i =
      (if k < r.par 17 1 then { s.dnp i with dlTries := some (k + 1) } else { s.dnp i with dlTries := none, out := [] }) ∧ dataKept s t := by
  by_cases hk : k < r.par 17 1
  · let s1 := s.modDnp i (fun d => { d with dlTries := some (k + 1) })
    obtain ⟨hframe, hdnp⟩ := s1.dlPush_keeps i r
    refine ⟨s1.dlPush i r, ?_, ?_, (((svcsOnly.refl s).modDnp i _).trans hframe).dataKept⟩
    · show execDnp3LinkConfirmTimeout i s = _
      simp only [execDnp3LinkConfirmTimeout, hon, htries, if_pos hk, s1]
    · rw [hdnp, if_pos hk, State.dnp_modDnp]
  · refine ⟨s.modDnp i (fun d => { d with dlTries := none, out := [] }), ?_, ?_, rfl, rfl, rfl⟩
    · show execDnp3LinkConfirmTimeout i s = _
      simp only [execDnp3LinkConfirmTimeout, hon, htries, if_neg hk]
    · rw [if_neg hk, State.dnp_modDnp]

/-- The head of a reply with a status and without data. -/
theorem svHead_reply {k st : Nat} (hst : st < 128) :
    mOpc [svHead 0xB1 (k % 256) 0 false st] = 0xB1 ∧ mTag [svHead 0xB1 (k % 256) 0 false st] = k % 256 ∧
    mLen [svHead 0xB1 (k % 256) 0 false st] = 0 ∧ fld (svHead 0xB1 (k % 256) 0 false st) 24 8 = st := by
  simp only [mOpc, mTag, mLen, List.headD_cons, svHead, b2n, fld, BitVec.toNat_ofNat, Bool.false_eq_true, if_false]
  omega

/-- The reply to the last control of a request answers the master (R428). -/
theorem exec_dnp3ControlReply {s : State} {i : Fin 64} {r : SvcRec} {c k st seq : Nat} {m : Msg} {rest : List Msg} (hon : s.svOn i 3 = some r)
    (hout : (s.svc i).out = []) (hchan : s.svChan r 1 1 = some c) (hmsgs : (s.chan c).msgs = m :: rest)
    (hwords : m.words = goodWords [svHead 0xB1 (k % 256) 0 false st]) (hst : st < 128) (htag : (s.dnp i).ctlTag = some (k % 256))
    (htodo : (s.dnp i).todo = []) (hreq : (s.dnp i).req = some (seq, true))
    (hlen : (ctlEcho ((s.dnp i).ctl.length + 1) (s.dnp i).ctl ((s.dnp i).codes ++ [st])).length ≤ 2044) :
    answers (.dnp3ControlReply i) s fun t => (t.dnp i).ctlTag = none ∧ (t.dnp i).codes = (s.dnp i).codes ++ [st] ∧ (t.dnp i).req = none ∧
      (t.dnp i).sent = [BitVec.ofNat 8 (0xC0 + seq % 16), BitVec.ofNat 8 129] ++ leBytes 2 (s.dnp i).iinNow.toNat ++
        ctlEcho ((s.dnp i).ctl.length + 1) (s.dnp i).ctl ((s.dnp i).codes ++ [st]) ∧ (t.chan c).msgs = rest := by
  obtain ⟨t, htake, -, -, hsvc, hrest⟩ := State.svTake_head hout hchan hmsgs hwords
  have hdnp : t.dnp i = s.dnp i := by rw [State.dnp, State.dnp, hsvc]
  rw [← hdnp] at htag htodo hreq hlen ⊢
  obtain ⟨hframe, hctl, hcodes, hreqs, hsent⟩ := t.ctlDone_last i r htodo hreq hlen
  obtain ⟨hopc, htagw, hlenw, hstat⟩ := svHead_reply (k := k) hst
  refine ⟨t.ctlDone i r st, ?_, hctl, hcodes, hreqs, hsent, by rw [hframe.chan]; exact hrest⟩
  show execDnp3ControlReply i s = _
  simp [execDnp3ControlReply, hon, htake, hopc, htagw, hlenw, hstat, htag, show ¬ 127 < st by omega]

/-! ### Link frames (R422) -/

section
variable (s : State) (i : Nat) (r : SvcRec)

/-- Unconfirmed user data. -/
theorem State.dnpFrame_unconfirmed {f : DlFrame} (hone : ¬ 0xFFFD ≤ f.dst) (hctrl : f.ctrl = 0xC4) :
    s.dnpFrame i r f false = s.dnpSegment i r f.data false false := by
  simp [State.dnpFrame, hctrl, hone]
/-- A segment that is a whole fragment. -/
theorem State.dnpSegment_whole (b : List Byte) (hlen : b.length ≤ 2048) : s.dnpSegment i r (0xC0#8 :: b) false false =
    (s.modDnp i (fun d => { d with seg := none })).dnpFragment i r b false false := by
  simp [State.dnpSegment, hlen]
/-- A request for the delay is answered with a free value. -/
theorem State.dnpFragment_delay (hsa : r.parBit 32 0 = false) : s.dnpFragment i r [0xC5#8, 23#8] false false =
    ((s.svCount i 2 1).appSendObjs i r 129 5 false [[52#8, 2#8, 7#8, 1#8] ++ leBytes 2 s.free.toNat]).drew := by
  simp [State.dnpFragment, hsa, State.dnpRequest]
  rfl
end

section
variable {s : State} {i : Fin 64} {r : SvcRec} {frame : List Byte} (hon : s.svOn i 3 = some r)
include hon

/-- A frame with a wrong CRC. -/
theorem exec_dnp3LinkFrame_bad (hparse : dlParse frame = none) : answers (.dnp3LinkFrame i frame false) s fun t =>
    ticked (s.reg (rSvCnt i 1)) (t.reg (rSvCnt i 1)) 0 32 ∧ (t.reg (rSvStat i)).getLsbD 13 = true ∧ t.svcs = s.svcs ∧ dataKept s t := by
  refine ⟨(s.svCount i 1 1).svFlag i 13, ?_, ?_, ?_, rfl, rfl, rfl, rfl⟩
  · show execDnp3LinkFrame i frame false s = _
    simp only [execDnp3LinkFrame, hon, hparse]
  · rw [State.svFlag, State.reg_rset, if_neg (by simp only [rSvCnt, rSvStat, rSv]; omega)]
    exact s.rcount_ticked _ _ _ (by decide)
  · rw [State.svFlag, State.reg_rset, if_pos rfl, getLsbD_setBit _ _ _ (by decide)]
    simp

variable {f : DlFrame} (hparse : dlParse frame = some f) (hsrc : f.src = r.par 14 2) (hdst : f.dst = r.par 12 2)
include hparse hsrc hdst

/-- A frame for this outstation is counted and taken. -/
theorem exec_dnp3LinkFrame_own : exec (.dnp3LinkFrame i frame false) s = .next ((s.svCount i 0 1).dnpFrame i r f false) := by
  show execDnp3LinkFrame i frame false s = _
  simp only [execDnp3LinkFrame, hon, hparse, hsrc, hdst, true_or, and_self, if_true]

/-- Reset of the link. -/
theorem exec_dnp3LinkFrame_reset (hone : f.dst < 0xFFFD) (hctrl : f.ctrl = 0xC0) : answers (.dnp3LinkFrame i frame false) s fun t =>
    ticked (s.reg (rSvCnt i 0)) (t.reg (rSvCnt i 0)) 0 32 ∧ dataKept s t ∧ t.dnp i = { s.dnp i with reset := true, fcb := true } ∧
    (t.svc i).line = dlFrame 0 (r.par 14 2) (r.par 12 2) [] := by
  let s1 := s.svCount i 0 1
  have hframe : s1.dnpFrame i r f false = (s1.modDnp i (fun d => { d with reset := true, fcb := true })).dlReply i r 0 := by
    simp only [State.dnpFrame, hctrl, decide_eq_false (Nat.not_le.mpr hone)]
    rfl
  have hkept : svcsOnly s1 ((s1.modDnp i (fun d => { d with reset := true, fcb := true })).dlReply i r 0) := ((svcsOnly.refl s1).modDnp i _).modSvc i _
  have hdnp : ((s1.modDnp i (fun d => { d with reset := true, fcb := true })).dlReply i r 0).dnp i = { s.dnp i with reset := true, fcb := true } := by
    rw [State.dlReply, State.dnp_modSvc]
    exact State.dnp_modDnp s1 i _
  have hline : (((s1.modDnp i (fun d => { d with reset := true, fcb := true })).dlReply i r 0).svc i).line = dlFrame 0 (r.par 14 2) (r.par 12 2) [] := by
    rw [State.dlReply, State.svc_modSvc]
  refine ⟨_, (exec_dnp3LinkFrame_own hon hparse hsrc hdst).trans (congrArg _ hframe), ?_, hkept.dataKept, hdnp, hline⟩
  rw [hkept.reg]
  exact s.rcount_ticked _ _ _ (by decide)

/-- A request for the delay (R423): the free value stands for the time that the spec leaves open. -/
theorem exec_dnp3LinkFrame_delay (hone : f.dst < 0xFFFD) (hctrl : f.ctrl = 0xC4) (hdata : f.data = [0xC0#8, 0xC5#8, 23#8]) (hsa : r.parBit 32 0 = false) :
    answers (.dnp3LinkFrame i frame false) s fun t =>
      ticked (s.reg (rSvCnt i 0)) (t.reg (rSvCnt i 0)) 0 32 ∧ ticked (s.reg (rSvCnt i 2)) (t.reg (rSvCnt i 2)) 0 32 ∧ dataKept s t ∧
      (t.dnp i).sent = [BitVec.ofNat 8 0xC5, BitVec.ofNat 8 129] ++ leBytes 2 (s.dnp i).iinNow.toNat ++ [52#8, 2#8, 7#8, 1#8] ++
        leBytes 2 s.free.toNat := by
  let s1 := (s.svCount i 0 1).modDnp i (fun d => { d with seg := none })
  let s2 := s1.svCount i 2 1
  let o := [52#8, 2#8, 7#8, 1#8] ++ leBytes 2 s.free.toNat
  have hframe : (s.svCount i 0 1).dnpFrame i r f false = (s2.appSendObjs i r 129 5 false [o]).drew := by
    rw [State.dnpFrame_unconfirmed _ i r (Nat.not_le.mpr hone) hctrl, hdata, State.dnpSegment_whole _ i r _ (by decide),
      State.dnpFragment_delay _ i r hsa]
    rfl
  obtain ⟨hkept, hdnp⟩ := s2.appSendObjs_one i r 5 (show o.length ≤ 2044 by simp [o, leBytes])
  generalize s2.appSendObjs i r 129 5 false [o] = u at hframe hkept hdnp
  have hreg : ∀ a, u.drew.reg a = s2.reg a := hkept.reg
  have hdata : dataKept s u.drew := hkept.dataKept
  refine ⟨u.drew, (exec_dnp3LinkFrame_own hon hparse hsrc hdst).trans (congrArg _ hframe), ?_, ?_, hdata, ?_⟩
  · rw [hreg, show s2 = s1.rcount (rSvCnt i 2) 0 32 1 from rfl, State.reg_rcount, if_neg (by simp only [rSvCnt, rSv]; omega)]
    exact s.rcount_ticked _ _ _ (by decide)
  · have h2 : (s.svCount i 0 1).reg (rSvCnt i 2) = s.reg (rSvCnt i 2) := by
      rw [State.svCount, State.reg_rcount, if_neg (by simp only [rSvCnt, rSv]; omega)]
    rw [hreg, ← h2]
    exact s1.rcount_ticked _ _ _ (by decide)
  · have hs2 : s2.dnp i = { s.dnp i with seg := none } := by
      change s1.dnp i = _
      rw [State.dnp_modDnp]
      rfl
    change (u.dnp i).sent = _
    rw [hdnp, hs2, List.append_assoc]
    rfl
end

/-! ### O40 -/

/-- Settles O40, clause by clause. -/
theorem dnpOutstationServesTheMaster : Obligations.DnpOutstationServesTheMaster := by
  unfold Obligations.DnpOutstationServesTheMaster
  intro s i r d c frame f p v w rep l m rest st k seq hon hout hunder x counted echo header
  refine ⟨?_, ?_, ?_, ?_, ?_, ?_, ?_, ?_, ?_, ?_⟩
  · exact exec_dnp3LinkFrame_bad hon
  · intro hparse hsrc hdst hone
    exact ⟨exec_dnp3LinkFrame_reset hon hparse hsrc hdst hone, exec_dnp3LinkFrame_delay hon hparse hsrc hdst hone⟩
  · intro htodo htag hchan hlen hroom
    obtain ⟨t, hput, hreceived, hframe⟩ := State.putMsg_roomFor (ws := svMsg 0x31 x.tag 0 false w []) hroom
      (by simp [svMsg, packBytes]; omega)
    refine ⟨t.modDnp i (fun d => { d with todo := l, tag := (d.tag + 1) % 256, ctlTag := if rep then some d.tag else none }), ?_, hreceived, ?_, ?_⟩
    · show execDnp3Control i s = _
      simp only [execDnp3Control, hon, show (s.dnp i).todo = _ from htodo, show (s.dnp i).ctlTag = _ from htag, hchan,
        show s.putMsg d (svMsg 0x31 (s.dnp i).tag 0 false w []) = _ from hput]
    · rw [State.dnp_modDnp, hframe]
      rfl
    · rw [hframe]; rfl
  · intro hchan hmsgs hwords _ hst htag htodo hreq hlen
    exact exec_dnp3ControlReply hon hout hchan hmsgs hwords hst htag htodo hreq hlen
  · intro htag htodo hreq hlen
    obtain ⟨hframe, hrest⟩ := s.ctlDone_last i r htodo hreq hlen
    refine ⟨s.ctlDone i r 1, ?_, hrest.1, hrest.2.1, hrest.2.2.2, hframe.dataKept⟩
    show execDnp3ApprspTimeout i s = _
    simp only [execDnp3ApprspTimeout, hon, show (s.dnp i).ctlTag = _ from htag, Option.isSome_some, if_true]
  · intro hchan hmsgs hwords _
    exact exec_dnp3Event hon hout hunder hchan hmsgs hwords
  · intro hbit hwait hpend
    obtain ⟨hframe, hwaits, hsent⟩ := s.unsol_waits i r 0
    refine ⟨s.unsol i r 0, ?_, hwaits, hsent, hframe.dataKept, hframe.regs⟩
    show execDnp3UnsolHold i s = _
    simp only [execDnp3UnsolHold, hon, State.unsolFree, hbit, show (s.dnp i).unsolWait = _ from hwait, Option.isNone_none, Bool.and_true,
      decide_eq_true (show 0 < (s.dnp i).pendingEvents from hpend), if_true]
  · intro hwait hnull hno
    constructor
    · intro hlt
      obtain ⟨hframe, hwaits, -⟩ := s.unsol_waits i r (k + 1)
      refine ⟨s.unsol i r (k + 1), ?_, hwaits, hframe.dataKept⟩
      show execDnp3ConfirmTimeout i s = _
      simp only [execDnp3ConfirmTimeout, hon, show (s.dnp i).unsolWait = _ from hwait, decide_eq_true hlt, Bool.or_true, if_true]
    · intro hge
      refine ⟨s.modDnp i (fun d => { d with unsolWait := none, events := d.events.map (fun e => { e with sent := false }) }), ?_,
        State.dnp_modDnp s i _⟩
      show execDnp3ConfirmTimeout i s = _
      simp only [execDnp3ConfirmTimeout, hon, show (s.dnp i).unsolWait = _ from hwait, show (s.dnp i).null = _ from hnull, hno,
        Nat.not_lt.mpr hge, decide_false, Bool.or_false, Bool.false_eq_true, if_false]
  · refine ⟨s.modDnp i (fun d => { d with keys := false, asdus := 0 }), ?_, State.dnp_modDnp s i _, ⟨rfl, rfl, rfl⟩, rfl⟩
    show execDnp3SessionKeyExpiry i s = _
    simp only [execDnp3SessionKeyExpiry, hon]
  · exact exec_dnp3LinkConfirmTimeout hon

end Machine
end Sys2Proof
end

section
/-! Links without GCM (R441, R447, R457): a frame put on the line, a frame entered and sent, and what that leaves alone. -/
namespace Sys2Proof
namespace Machine

/-! ### One link -/

section
variable (s : State) (n : Nat)

@[simp] theorem State.lk_modLk (f : Link → Link) (m : Nat) : (s.modLk n f).lk m = if m = n then f (s.lk n) else s.lk m := by
  simp [State.modLk, State.lk, Bank.get_put]
@[simp] theorem State.reg_modLk (f : Link → Link) (a : Nat) : (s.modLk n f).reg a = s.reg a := rfl

/-- Nothing but registers and links differs. -/
def linksOnly (s t : State) : Prop := t = { s with regs := t.regs, links := t.links }

theorem linksOnly.refl (s : State) : linksOnly s s := rfl
theorem linksOnly.trans {s t u : State} (h : linksOnly s t) (k : linksOnly t u) : linksOnly s u := by
  unfold linksOnly at h k ⊢
  rw [k, h]
theorem linksOnly.modLk {s t : State} (h : linksOnly s t) (n : Nat) (f : Link → Link) : linksOnly s (t.modLk n f) := h.trans rfl
theorem linksOnly.setReg {s t : State} (h : linksOnly s t) (a : Nat) (v : Word) : linksOnly s (t.setReg a v) := h.trans rfl
theorem linksOnly.rcount {s t : State} (h : linksOnly s t) (a lo n k : Nat) : linksOnly s (t.rcount a lo n k) := h.setReg a _
theorem linksOnly.dataKept {s t : State} (h : linksOnly s t) : dataKept s t := by rw [h]; exact ⟨rfl, rfl, rfl⟩
theorem linksOnly.chan {s t : State} (h : linksOnly s t) (c : Nat) : t.chan c = s.chan c := by rw [h]; rfl
theorem linksOnly.fires {s t : State} (h : linksOnly s t) : t.fires = s.fires := by rw [h]

/-! ### A frame on the line -/

/-- The frame as it leaves on link `n` without GCM. -/
def State.stamped (f : LinkFrame) : LinkFrame :=
  { f with ack := (s.lk n).next, rwin := s.rfree n, enc := false, tag := [], session := 0#32, txcnt := 0 }

/-- The link of which a frame leaves. -/
def State.lineLink (ty : FType) (f : LinkFrame) : Link :=
  { s.lk n with
    ackDue := false, line := some (ty, s.stamped n f)
    deps := if ty = .time then (leNat (f.payload.take 2), s.ct) :: (s.lk n).deps.take 1 else (s.lk n).deps }

variable {s n}

/-- A frame leaves on a link without GCM: it is counted where it is sent for the first time, and nothing but the link changes. -/
structure putsFrame (s t : State) (n : Nat) (ty : FType) (f : LinkFrame) : Prop where
  frame : linksOnly s t
  lk : t.lk n = s.lineLink n ty f
  others : ∀ m, m ≠ n → t.lk m = s.lk m
  regs : sameRegs s t (fun a => a = rLkTxf n ∧ f.retx = false)
  counted : f.retx = false → ticked (s.reg (rLkTxf n)) (t.reg (rLkTxf n)) 0 32

theorem State.lkPut_plain (hgcm : s.lkGcm n = false) (ty : FType) (f : LinkFrame) : putsFrame s (s.lkPut n ty f) n ty f := by
  let s0 := s.modLk n (fun l => { l with ackDue := false })
  let s1 := if f.retx then s0 else s0.rcount (rLkTxf n) 0 32 1
  let line : Link → Link := fun l => { l with
    line := some (ty, s.stamped n f), deps := if ty = .time then (leNat (f.payload.take 2), s.ct) :: l.deps.take 1 else l.deps }
  have hput : s.lkPut n ty f = s1.modLk n line := by
    simp only [State.lkPut, hgcm, Bool.false_and, Bool.false_eq_true, if_false, State.lkLine]
    rfl
  have hlk : ∀ m, s1.lk m = s0.lk m := by
    intro m
    simp only [s1]
    split <;> rfl
  have hframe : linksOnly s s1 := by
    simp only [s1]
    split
    · exact (linksOnly.refl s).modLk n _
    · exact ((linksOnly.refl s).modLk n _).rcount ..
  rw [hput]
  refine ⟨hframe.modLk n _, ?_, fun m hm => ?_, fun a ha => ?_, fun hretx => ?_⟩
  · rw [State.lk_modLk, if_pos rfl, hlk, State.lk_modLk, if_pos rfl]
    rfl
  · rw [State.lk_modLk, if_neg hm, hlk, State.lk_modLk, if_neg hm]
  · rw [State.reg_modLk]
    simp only [s1]
    split
    · rfl
    · rename_i hretx
      rw [State.reg_rcount, if_neg fun h => ha ⟨h, by simpa using hretx⟩]
      rfl
  · rw [State.reg_modLk]
    simp only [s1, hretx]
    exact s.rcount_ticked _ _ _ (by decide)

section
variable {t : State} {ty : FType} {f : LinkFrame} (h : putsFrame s t n ty f)
include h

theorem putsFrame.reg {a : Nat} (ha : a ≠ rLkTxf n) : t.reg a = s.reg a := h.regs a fun h => ha h.1
theorem putsFrame.line : putFrame t n ty (fun g => g = s.stamped n f) := ⟨_, by rw [h.lk]; rfl, rfl⟩
theorem putsFrame.sent (hretx : f.retx = false) :
    ticked (s.reg (rLkTxf n)) (t.reg (rLkTxf n)) 0 32 ∧ sameRegs s t (fun x => x = rLkTxf n) :=
  ⟨h.counted hretx, fun _ ha => h.reg ha⟩
end

theorem putFrame.imp {t : State} {n : Nat} {ty : FType} {p q : LinkFrame → Prop} (h : putFrame t n ty p) (hpq : ∀ g, p g → q g) :
    putFrame t n ty q := by
  obtain ⟨g, hg, hp⟩ := h
  exact ⟨g, hg, hpq g hp⟩

/-! ### A frame entered and sent (R457) -/

/-- A link without GCM that is UP, has nothing waiting, and of which the peer has acknowledged everything and has room. -/
structure State.clear (s : State) (n : Nat) : Prop where
  up : (s.lk n).up = true
  gcm : s.lkGcm n = false
  wait : (s.lk n).wait = []
  seq : (s.lk n).seq < 65536
  acked : (s.lk n).peerAck = (s.lk n).seq
  room : 1 ≤ (s.lk n).peerRwin

theorem takeSrc_single (p : LkEnt → Bool) (e : LkEnt) : takeSrc p [e] = if p e then some (e, []) else none := by
  cases h : p e <;> simp [takeSrc, h]
theorem nextEnt_single (turn : Nat) {e : LkEnt} (hsrc : e.src < 5) : nextEnt turn [e] = some (e, []) := by
  have hturn : (turn + (e.src + 5 - turn % 5) % 5) % 5 = e.src := by omega
  have hsome : (((List.range 5).map (fun k => (turn + k) % 5)).findSome? (fun k => takeSrc (fun e => decide (e.src = k)) [e])).isSome = true := by
    rw [List.findSome?_isSome_iff]
    refine ⟨e.src, List.mem_map.mpr ⟨(e.src + 5 - turn % 5) % 5, List.mem_range.mpr (Nat.mod_lt _ (by decide)), hturn⟩, ?_⟩
    simp [takeSrc_single]
  obtain ⟨q, hq⟩ := Option.isSome_iff_exists.mp hsome
  obtain ⟨k, -, hk⟩ := List.exists_of_findSome?_eq_some hq
  have hval : q = (e, []) := by
    rw [takeSrc_single] at hk
    split at hk
    · exact (Option.some.inj hk).symm
    · cases hk
  rw [nextEnt, takeSrc_single]
  split
  · rename_i h; split at h
    · exact h.symm
    · cases h
  · rw [hq, hval]

/-- The entry as it is sent. -/
def State.numbered (s : State) (n : Nat) (e : LkEnt) : LkEnt := { e with f := { e.f with seq := (s.lk n).seq } }

/-- A frame that enters a clear link is sent at once, and is stored until it is acknowledged. -/
theorem State.lkEnter_clear (h : s.clear n) {e : LkEnt} (hsrc : e.src < 5) : ∃ s1, linksOnly s s1 ∧ s1.regs = s.regs ∧
    s1.lk n = { s.lk n with seq := ((s.lk n).seq + 1) % 65536, store := (s.lk n).store ++ [s.numbered n e], turn := (e.src + 1) % 5 } ∧
    (∀ m, m ≠ n → s1.lk m = s.lk m) ∧ putsFrame s1 (s.lkEnter n e) n e.ty (s.numbered n e).f := by
  obtain ⟨hup, hgcm, hwait, hseq, hacked, hroom⟩ := h
  let s0 := s.modLk n (fun l => { l with wait := l.wait ++ [e] })
  let s1 := s0.modLk n (fun l => { l with
    seq := (l.seq + 1) % 65536, store := l.store ++ [s.numbered n e], wait := [], turn := (e.src + 1) % 5 })
  have hlk0 : s0.lk n = { s.lk n with wait := [e] } := by rw [State.lk_modLk, if_pos rfl, hwait]; rfl
  have hlk1 : s1.lk n = { s.lk n with seq := ((s.lk n).seq + 1) % 65536, store := (s.lk n).store ++ [s.numbered n e], turn := (e.src + 1) % 5 } := by
    rw [State.lk_modLk, if_pos rfl, hlk0, ← hwait]
  have hgcm0 : s0.lkGcm n = false := by
    simp only [State.lkGcm, hlk0] at hgcm ⊢
    exact hgcm
  have hgcm1 : s1.lkGcm n = false := by
    simp only [State.lkGcm, hlk1] at hgcm ⊢
    exact hgcm
  have hwindow : ¬ min 64 (s.lk n).peerRwin ≤ seqSub (s.lk n).seq (s.lk n).peerAck := by
    rw [hacked]; unfold seqSub; omega
  have henter : s.lkEnter n e = s1.lkPut n e.ty (s.numbered n e).f := by
    show s0.lkPump n = _
    rw [State.lkPump, hlk0]
    simp only [State.lkPumpN, List.length_singleton, hlk0, hup, hgcm0, hwindow, Bool.not_true, Bool.false_and, decide_false, Bool.or_false,
      Bool.false_eq_true, if_false, nextEnt_single _ hsrc]
    rfl
  refine ⟨s1, ((linksOnly.refl s).modLk n _).modLk n _, rfl, hlk1, fun m hm => ?_, ?_⟩
  · rw [State.lk_modLk, if_neg hm, State.lk_modLk, if_neg hm]
  · rw [henter]
    exact State.lkPut_plain hgcm1 _ _
end

end Machine
end Sys2Proof
end

section
/-! What time and commands do to a link (R443–R449, R457–R462, R466), clause by clause; and O42. -/
namespace Sys2Proof
namespace Machine

/-- Little-endian bytes read back. -/
theorem leNat_leBytes (n : Nat) : ∀ v, leNat (leBytes n v) = v % 256 ^ n := by
  induction n with
  | zero => intro v; simp [leBytes, leNat, Nat.mod_one]
  | succ n ih =>
    intro v
    simp only [leBytes, leNat, ih, BitVec.toNat_ofNat, Nat.pow_succ']
    exact (Nat.mod_mul).symm

section
variable {s : State} {n : Fin 4}

/-! ### Frames to the peer (R445, R446, R448, R462) -/

/-- An unsequenced frame to the peer. -/
theorem State.lkSay_plain (hgcm : s.lkGcm n = false) (ty : FType) (payload : List Byte) : putsFrame s (s.lkSay n ty payload) n ty
    { dst := s.reg (rLkPeer n), src := s.nodeId, ttl := max 1 (s.rfld rLkGCfg 0 8), payload := payload } := State.lkPut_plain hgcm _ _

theorem exec_helloPeriod_down (hon : s.lkOn n = true) (hgcm : s.lkGcm n = false) (hup : (s.lk n).up = false) (hses : (s.lk n).session ≠ 0#32) :
    answers (.helloPeriod n) s fun t =>
      putFrame t n .hello (fun g => g.src = s.nodeId ∧ g.payload.take 8 = leBytes 4 s.nodeId.toNat ++ leBytes 4 (s.lk n).session.toNat) ∧
      (ticked (s.reg (rLkTxf n)) (t.reg (rLkTxf n)) 0 32 ∧ sameRegs s t (fun x => x = rLkTxf n)) ∧ dataKept s t := by
  have hexec : exec (.helloPeriod n) s = .next (s.lkHello n) := by
    show execHelloPeriod n s = _
    simp only [execHelloPeriod, hon, hup, Bool.not_false, Bool.and_self, if_true]
  unfold State.lkHello at hexec
  extract_lets l flags at hexec
  rw [if_neg hses] at hexec
  refine ⟨_, hexec, (State.lkPut_plain hgcm _ _).line.imp ?_, (State.lkPut_plain hgcm _ _).sent rfl, (State.lkPut_plain hgcm _ _).frame.dataKept⟩
  rintro g rfl
  exact ⟨rfl, rfl⟩

variable (h : s.linkIdle n)
include h

theorem exec_linkKeepalive : answers (.linkKeepalive n) s fun t => putFrame t n .ack (fun g => g.payload = [] ∧ g.ack = (s.lk n).next) ∧
    (ticked (s.reg (rLkTxf n)) (t.reg (rLkTxf n)) 0 32 ∧ sameRegs s t (fun x => x = rLkTxf n)) ∧ dataKept s t := by
  obtain ⟨hon, hgcm, hup, -⟩ := h
  have hput := State.lkSay_plain hgcm .ack []
  refine ⟨s.lkSay n .ack [], ?_, hput.line.imp ?_, hput.sent rfl, hput.frame.dataKept⟩
  · show execLinkKeepalive n s = _
    simp only [execLinkKeepalive, hon, hup, Bool.and_self, if_true]
  · rintro g rfl
    exact ⟨rfl, rfl⟩

theorem exec_ackDelay (hdue : (s.lk n).ackDue = true) : answers (.ackDelay n) s fun t => (t.lk n).ackDue = false ∧ (t.lk n).sacked = false ∧
    putFrame t n .ack (fun g => g.payload = [] ∧ g.ack = (s.lk n).next) ∧ dataKept s t := by
  obtain ⟨hon, hgcm, hup, -, -, hall, -⟩ := h
  obtain ⟨-, -, hrstore⟩ := hall n n.isLt
  have hput := State.lkSay_plain hgcm .ack []
  have hlk := (s.lkSay n .ack []).lk_modLk n (fun l => { l with sacked := false }) n
  rw [if_pos rfl, hput.lk] at hlk
  refine ⟨(s.lkSay n .ack []).modLk n (fun l => { l with sacked := false }), ?_, ?_, ?_, ⟨_, (congrArg Link.line hlk).trans rfl, rfl, rfl⟩,
    (hput.frame.modLk n _).dataKept⟩
  · show execAckDelay n s = _
    simp only [execAckDelay, hon, hup, hdue, hrstore, List.isEmpty_nil, Bool.and_self, if_true]
  · rw [hlk]; rfl
  · rw [hlk]

theorem exec_timePeriod (hbit : s.rbit (rLkCtl n) 0 = true) : answers (.timePeriod n) s fun t =>
    (t.lk n).tsn = ((s.lk n).tsn + 1) % 65536 ∧ ((t.lk n).deps.head? = some (((s.lk n).tsn + 1) % 65536, s.ct)) ∧
    (ticked (s.reg (rLkTxf n)) (t.reg (rLkTxf n)) 0 32 ∧ sameRegs s t (fun x => x = rLkTxf n)) ∧ dataKept s t ∧
    putFrame t n .time (fun g => g.payload.take 2 = leBytes 2 (((s.lk n).tsn + 1) % 65536)) := by
  obtain ⟨hon, hgcm, hup, -⟩ := h
  have hexec : exec (.timePeriod n) s = execTimePeriod n s := rfl
  unfold execTimePeriod at hexec
  rw [hon, hup, hbit, if_pos (by decide)] at hexec
  extract_lets l tsn dep arr pay at hexec
  have hput := State.lkSay_plain hgcm .time pay
  have hlk := (s.lkSay n .time pay).lk_modLk n (fun l => { l with tsn := tsn }) n
  rw [if_pos rfl, hput.lk] at hlk
  have htsn : leNat (pay.take 2) = tsn := by
    change leNat (leBytes 2 tsn) = tsn
    rw [leNat_leBytes]
    exact Nat.mod_eq_of_lt (Nat.mod_lt _ (by decide))
  refine ⟨_, hexec, ?_, ?_, hput.sent rfl, (hput.frame.modLk n _).dataKept, ⟨_, (congrArg Link.line hlk).trans rfl, rfl⟩⟩
  · rw [hlk]
  · rw [hlk]
    change some (leNat (pay.take 2), s.ct) = _
    rw [htsn]
end

/-! ### Links that go DOWN (R445, R446) -/

/-- With no FREEZE waiting a canopy freeze is not acted on. -/
theorem State.frzCheck_idle {s : State} (h : s.frzWait = false) : s.frzCheck = s := by simp [State.frzCheck, h]

/-- A link that stores and holds back nothing goes DOWN: counted, recorded and signalled, and nothing else. -/
theorem State.lkDown_quiet {s : State} {n : Fin 4} (hup : (s.lk n).up = true) (hstore : (s.lk n).store = []) (hwait : (s.lk n).wait = [])
    (hfrz : s.frzWait = false) : ((s.lkDown n).lk n).up = false ∧ ((s.lkDown n).lk n).lock = (s.lk n).lock ∧
    sameRegs s (s.lkDown n) (fun a => a = rLkDowns n ∨ a = rErQlost) ∧
    ticked (s.reg (rLkDowns n)) ((s.lkDown n).reg (rLkDowns n)) 0 16 ∧ (s.lkDown n).fires = (s.pulse (258 + n)).fires ∧
    dataKept s (s.lkDown n) := by
  let s1 := s.modLk n (fun l => { l with up := false, sacked := false, wait := l.wait.filter (fun e => decide (e.src = 4)) })
  let s2 := s1.rcount (rLkDowns n) 0 16 1
  let s3 := s2.recBin 0x0A 0x01 0 n 2
  have hlk1 : s1.lk n = { s.lk n with up := false, sacked := false } := by
    rw [State.lk_modLk, if_pos rfl, hwait, ← hwait]
    simp [hwait]
  have hdown : s.lkDown n = s3.pulse (258 + n) := by
    have hquiet : (s3.pulse (258 + n)).frzWait = false := by
      change (s2.recPush _).frzWait = false
      rw [State.recPush_frame]
      exact hfrz
    have hcasts : castsOf ((s1.lk n).store ++ (s1.lk n).wait) = [] := by rw [hlk1]; simp [hstore, hwait, castsOf]
    have hraw : s.lkDown n = (s3.pulse (258 + n)).frzCheck := by
      unfold State.lkDown
      rw [if_pos hup]
      simp only [hwait, List.filter_nil, List.foldl_nil]
      rw [show castsOf _ = [] from hcasts]
      rfl
    rw [hraw, State.frzCheck_idle hquiet]
  have hreg : ∀ a, a ≠ rErQlost → (s.lkDown n).reg a = s2.reg a := fun a ha => by
    rw [hdown]
    exact s2.reg_recBin _ _ _ _ _ ha
  have hlk : (s.lkDown n).lk n = s1.lk n := by
    rw [hdown]
    change Bank.get _ (s2.recPush _).links n = _
    simp only [State.recPush_fields]
    rfl
  have hne : rLkDowns n ≠ rErQlost := by simp only [rLkDowns, rLk, rErQlost, rEr]; omega
  refine ⟨by rw [hlk, hlk1], by rw [hlk, hlk1], fun a ha => ?_, ?_, ?_, ?_⟩
  · rw [hreg a fun h => ha (.inr h), State.reg_rcount, if_neg fun h => ha (.inl h)]
    rfl
  · rw [hreg _ hne]
    exact s1.rcount_ticked _ _ _ (by decide)
  · have hroutes : s3.routesOf (258 + n) = s.routesOf (258 + n) := by
      refine State.routesOf_congr (fun a hlo hhi => ?_) (by omega)
      rw [s2.reg_recBin _ _ _ _ _ (by simp only [rErQlost, rEr]; omega), State.reg_rcount,
        if_neg (by simp only [rLkDowns, rLk]; omega)]
      rfl
    rw [hdown, State.pulse, State.pulse, hroutes, show s3.fires = s.fires by rw [show s3 = s2.recPush _ from rfl]; simp only [State.recPush_fields]; rfl]
  · rw [hdown]
    exact ⟨(s2.recPush_fields _).1, (s2.recPush_fields _).2.1, (s2.recPush_fields _).2.2.1⟩

section
variable {s : State} {n : Fin 4} (h : s.linkIdle n)
include h

theorem exec_linkSilenceTimeout : answers (.linkSilenceTimeout n) s fun t => (t.lk n).up = false ∧
    ticked (s.reg (rLkDowns n)) (t.reg (rLkDowns n)) 0 16 ∧ t.fires = (s.pulse (258 + n.val)).fires ∧ dataKept s t := by
  obtain ⟨hon, -, hup, -, -, hall, hfrz, -⟩ := h
  obtain ⟨hstore, hwait, -⟩ := hall n n.isLt
  obtain ⟨hdown, -, -, hcount, hfires, hdata⟩ := State.lkDown_quiet hup hstore hwait hfrz
  refine ⟨s.lkDown n, ?_, hdown, hcount, hfires, hdata⟩
  show execLinkSilenceTimeout n s = _
  simp only [execLinkSilenceTimeout, hon, if_true]

theorem exec_linkLockFall (inFrame : Bool) (hmode : s.lkMode n = 1) : answers (.linkLockFall n inFrame) s fun t =>
    ((t.lk n).up = false ∧ ticked (s.reg (rLkDowns n)) (t.reg (rLkDowns n)) 0 16 ∧ t.fires = (s.pulse (258 + n.val)).fires ∧ dataKept s t) ∧
    (t.lk n).lock = false ∧ (inFrame = true → ticked (s.reg (rLkErr n)) (t.reg (rLkErr n)) 0 16) := by
  obtain ⟨hon, -, hup, -, -, hall, hfrz, -⟩ := h
  obtain ⟨hstore, hwait, -⟩ := hall n n.isLt
  let s0 := if inFrame then s.rcount (rLkErr n) 0 16 1 else s
  let s1 := s0.modLk n (fun l => { l with lock := false })
  have hframe : onlyRegs s s0 := by
    simp only [s0]
    split
    · exact (onlyRegs.refl s).rcount ..
    · exact .refl s
  have hreg0 : ∀ a, a ≠ rLkErr n → s0.reg a = s.reg a := fun a ha => by
    simp only [s0]
    split
    · rw [State.reg_rcount, if_neg ha]
    · rfl
  have hlk0 : s0.lk n = s.lk n := by rw [hframe]; rfl
  have hlk : s1.lk n = { s.lk n with lock := false } := by rw [State.lk_modLk, if_pos rfl, hlk0]
  have hfrz1 : s1.frzWait = false := by
    change s0.frzWait = false
    rw [hframe]; exact hfrz
  obtain ⟨hdown, hlock, hregs, hcount, hfires, hdata⟩ := State.lkDown_quiet (s := s1) (by rw [hlk]; exact hup) (by rw [hlk]; exact hstore)
    (by rw [hlk]; exact hwait) hfrz1
  refine ⟨s1.lkDown n, ?_, ⟨hdown, ?_, ?_, ?_⟩, ?_, fun hin => ?_⟩
  · show execLinkLockFall n inFrame s = _
    simp only [execLinkLockFall, hon, hmode, decide_true, Bool.and_self, if_true, s1, s0]
  · rw [← hreg0 _ (by simp only [rLkDowns, rLkErr, rLk]; omega)]
    exact hcount
  · have hroutes : s1.routesOf (258 + n) = s.routesOf (258 + n) :=
      State.routesOf_congr (fun a hlo hhi => hreg0 a (by simp only [rLkErr, rLk]; omega)) (by omega)
    have hsame : s1.fires = s.fires := by
      change s0.fires = _
      rw [hframe]
    rw [hfires, State.pulse, State.pulse, hroutes, hsame]
  · obtain ⟨hthreads, hchans, hmem⟩ := hdata
    have hdata0 : dataKept s s0 := by rw [hframe]; exact ⟨rfl, rfl, rfl⟩
    exact ⟨hthreads.trans hdata0.1, hchans.trans hdata0.2.1, hmem.trans hdata0.2.2⟩
  · rw [hlock, hlk]
  · rw [hregs (rLkErr n) (by simp only [rLkErr, rLkDowns, rLk, rErQlost, rEr]; omega)]
    change ticked _ (s0.reg _) 0 16
    simp only [s0, hin, if_true]
    exact s.rcount_ticked _ _ _ (by decide)

/-! ### Sequenced frames of this node (R443, R455, R458, R466) -/

theorem State.linkIdle.clear (hroom : 1 ≤ (s.lk n).peerRwin) (hacked : (s.lk n).peerAck = (s.lk n).seq) : s.clear n := by
  obtain ⟨-, hgcm, hup, hseq, -, hall, -⟩ := h
  exact ⟨hup, hgcm, (hall n n.isLt).2.1, hseq, hacked, hroom⟩
end

section
variable {s : State} {n : Nat}

/-- What a frame that enters a clear link comes to: it is on the line, and nothing but registers and links differs. -/
theorem State.lkEnter_puts (hc : s.clear n) {e : LkEnt} (hsrc : e.src < 5) : linksOnly s (s.lkEnter n e) ∧
    ((s.lkEnter n e).lk n).seq = ((s.lk n).seq + 1) % 65536 ∧ ((s.lkEnter n e).lk n).busy = (s.lk n).busy ∧
    (∀ a, (a ≠ rLkTxf n) → (s.lkEnter n e).reg a = s.reg a) ∧
    putFrame (s.lkEnter n e) n e.ty (fun g => g.dst = e.f.dst ∧ g.src = e.f.src ∧ g.chan = e.f.chan ∧ g.credit = e.f.credit ∧ g.payload = e.f.payload) := by
  obtain ⟨s1, hframe, hregs, hlk, -, hput⟩ := State.lkEnter_clear hc hsrc
  refine ⟨hframe.trans hput.frame, ?_, ?_, fun a ha => ?_, hput.line.imp ?_⟩
  · rw [hput.lk, State.lineLink, hlk]
  · rw [hput.lk, State.lineLink, hlk]
  · rw [hput.reg ha, State.reg, hregs]
    rfl
  · rintro g rfl
    exact ⟨rfl, rfl, rfl, rfl, rfl⟩

theorem State.clear.modChan (hc : s.clear n) (c : Nat) (f : Chan → Chan) : (s.modChan c f).clear n :=
  ⟨hc.up, hc.gcm, hc.wait, hc.seq, hc.acked, hc.room⟩

/-- A frame to one node leaves on the link to it; a credit owed to the node goes with it. -/
theorem State.lkOriginate_puts (hc : s.clear n) (ty : FType) {dst : Word} (hdst : dst ≠ 0xFFFFFFFF#32) (hroute : s.routeTo dst = some n)
    (chan : Nat) (payload : List Byte) (origin : Option Nat) :
    putFrame (s.lkOriginate ty dst chan payload origin) n ty (fun g => g.dst = dst ∧ g.chan = chan ∧ g.payload = payload) := by
  unfold State.lkOriginate
  simp only [if_neg hdst, hroute]
  split
  · refine (State.lkEnter_puts (hc.modChan _ _) (show 4 < 5 by decide)).2.2.2.2.imp ?_
    rintro g ⟨hd, -, hch, -, hpay⟩
    exact ⟨hd, hch, hpay⟩
  · refine (State.lkEnter_puts hc (show 4 < 5 by decide)).2.2.2.2.imp ?_
    rintro g ⟨hd, -, hch, -, hpay⟩
    exact ⟨hd, hch, hpay⟩
end

section
variable {s : State} {n : Fin 4} {c : Fin 4096} (hc : s.clear n) (hrun : s.mode = .run)
include hc hrun

theorem exec_creditTimeout (hkind : epKind (s.chan c).sendEp = 4) (howed : 0 < (s.chan c).owedM)
    (hroute : s.routeTo (s.epNode (s.chan c).sendEp) = some n.val) : answers (.creditTimeout c) s fun t =>
      t.chan c = { s.chan c with owedW := 0, owedM := 0 } ∧
      putFrame t n .credit (fun g => g.dst = s.epNode (s.chan c).sendEp ∧
        g.credit = some (epUnit (s.chan c).sendEp, (s.chan c).owedW, (s.chan c).owedM)) ∧
      (t.lk n).seq = ((s.lk n).seq + 1) % 65536 := by
  have howes : s.owes c = true := by simp [State.owes, hkind, howed]
  have hexec : exec (.creditTimeout c) s = execCreditTimeout c s := rfl
  unfold execCreditTimeout at hexec
  rw [if_pos ⟨hrun, howes⟩] at hexec
  extract_lets q dst at hexec
  rw [show q.2.routeTo dst = some n.val from hroute] at hexec
  obtain ⟨hframe, hseq, -, -, hput⟩ := State.lkEnter_puts (hc.modChan c (fun h => { h with owedW := 0, owedM := 0 }))
    (e := { ty := .credit, src := 4, f := { dst := dst, src := s.nodeId, ttl := max 1 (s.rfld rLkGCfg 0 8), chan := q.1.1, credit := some q.1 } })
    (show 4 < 5 by decide)
  refine ⟨_, hexec, ?_, hput.imp ?_, hseq⟩
  · exact (hframe.chan c).trans ((State.chan_setChan s c c _).trans (if_pos rfl))
  · rintro g ⟨hd, -, -, hcr, -⟩
    exact ⟨hd, hcr⟩

theorem exec_syncWaitTimeout (hkind : epKind (s.chan c).recvEp = 4) (hdst : s.epNode (s.chan c).recvEp ≠ 0xFFFFFFFF#32)
    (hwait : (s.chan c).msgs.any (fun m => !m.sent) = true) (hroute : s.routeTo (s.epNode (s.chan c).recvEp) = some n.val) :
    answers (.syncWaitTimeout c) s fun t => putFrame t n .sync (fun g => g.dst = s.epNode (s.chan c).recvEp ∧
      g.chan = epUnit (s.chan c).recvEp ∧ g.payload = leBytes 2 (s.chan c).sentM.toNat ++ leBytes 2 (s.chan c).sentW.toNat) := by
  refine ⟨s.lkSync c, ?_, State.lkOriginate_puts hc .sync hdst hroute _ _ _⟩
  show execSyncWaitTimeout c s = _
  rw [execSyncWaitTimeout, if_pos ⟨hrun, hkind, hdst, hwait⟩]
end

/-! ### Frames sent again (R446, R448) -/

/-- What settling messages of a link that goes DOWN keeps. -/
def State.linkPart (s : State) : List (Nat × Link) × Bool := (s.links, s.frzWait)

theorem State.lk_of_links {s t : State} (h : t.links = s.links) (n : Nat) : t.lk n = s.lk n := by simp only [State.lk, h]
theorem State.foldl_part {α β : Type} (g : State → β) {f : State → α → State} (hf : ∀ s a, g (f s a) = g s) (l : List α) :
    ∀ s, g (l.foldl f s) = g s := by
  induction l with
  | nil => exact fun _ => rfl
  | cons a l ih => exact fun s => (ih (f s a)).trans (hf s a)
theorem State.linkPart_lkDrop (s : State) (m kind : Nat) : (s.lkDrop m kind).linkPart = s.linkPart := by
  unfold State.linkPart State.lkDrop State.recBin
  rw [State.recPush_frame]
  rfl
theorem State.linkPart_castFree (c k : Nat) : ∀ s : State, (s.castFree c k).linkPart = s.linkPart := by
  induction k with
  | zero => exact fun _ => rfl
  | succ k ih =>
    intro s
    rw [State.castFree]
    split
    · rfl
    · exact ih _
theorem State.linkPart_castSettle (s : State) (c : Nat) : (s.castSettle c).linkPart = s.linkPart := by
  unfold State.castSettle
  split
  · exact State.linkPart_castFree _ _ s
  · split <;> rfl


section
variable {s : State} {n : Fin 4} {e : LkEnt} {l : List LkEnt} (hon : s.lkOn n = true) (hup : (s.lk n).up = true) (hstore : (s.lk n).store = e :: l)
include hon hup hstore

theorem exec_retransmitTimeout_again (hgcm : s.lkGcm n = false) (htries : e.tries < 8) : answers (.retransmitTimeout n) s fun t =>
    ticked (s.reg (rLkRetx n)) (t.reg (rLkRetx n)) 0 16 ∧
    putFrame t n e.ty (fun g => g.seq = e.f.seq ∧ g.retx = true ∧ g.payload = e.f.payload) ∧
    ((t.lk n).store.head?.map (·.tries)) = some (e.tries + 1) := by
  have hexec : exec (.retransmitTimeout n) s = .next (s.lkResend n e) := by
    show execRetransmitTimeout n s = _
    simp only [execRetransmitTimeout, hon, hup, hstore, Nat.not_le.mpr htries, Bool.and_self, if_true, if_false]
  unfold State.lkResend at hexec
  extract_lets s1 at hexec
  have hlk1 : (s1.lk n).store = { e with tries := e.tries + 1 } :: l.map (fun d => if d.f.seq = e.f.seq then { d with tries := d.tries + 1 } else d) ∧
      (s1.lk n).recov = (s.lk n).recov := by
    have hlk : (s.rcount (rLkRetx n) 0 16 1).lk n = s.lk n := rfl
    simp only [s1, State.lk_modLk, if_true, hlk, hstore, List.map_cons, true_and]
  have hgcm1 : s1.lkGcm n = false := by
    have hcfg : s1.reg (rLkCfg n) = s.reg (rLkCfg n) := by
      change (s.rcount _ _ _ _).reg _ = _
      rw [State.reg_rcount, if_neg (by simp only [rLkCfg, rLkRetx, rLk]; omega)]
    rw [State.lkGcm, State.rbit, hcfg, hlk1.2]
    exact hgcm
  have hput := State.lkPut_plain hgcm1 e.ty { e.f with retx := true }
  refine ⟨_, hexec, ?_, hput.line.imp ?_, ?_⟩
  · rw [hput.reg (by simp only [rLkRetx, rLkTxf, rLk]; omega)]
    exact s.rcount_ticked _ _ _ (by decide)
  · rintro g rfl
    exact ⟨rfl, rfl, rfl⟩
  · rw [hput.lk]
    change ((s1.lk n).store.head?.map (·.tries)) = _
    rw [hlk1.1]
    rfl

theorem exec_retransmitTimeout_down (htries : 8 ≤ e.tries) (hfrz : s.frzWait = false) :
    answers (.retransmitTimeout n) s fun t => (t.lk n).up = false := by
  have hexec : exec (.retransmitTimeout n) s = .next (s.lkDown n) := by
    show execRetransmitTimeout n s = _
    simp only [execRetransmitTimeout, hon, hup, hstore, htries, Bool.and_self, if_true]
  unfold State.lkDown at hexec
  rw [if_pos hup] at hexec
  extract_lets fw s1 s2 s3 at hexec
  have hpart : (((s3.rcount (rLkDowns n) 0 16 1).recBin 0x0A 0x01 0 n 2).pulse (258 + n)).linkPart = s1.linkPart := by
    have h4 : (((s3.rcount (rLkDowns n) 0 16 1).recBin 0x0A 0x01 0 n 2).pulse (258 + n)).linkPart = s3.linkPart := by
      unfold State.linkPart State.recBin
      change (((s3.rcount (rLkDowns n) 0 16 1).recPush _).links, ((s3.rcount (rLkDowns n) 0 16 1).recPush _).frzWait) = _
      rw [State.recPush_frame]
      rfl
    rw [h4]
    exact (State.each_keeps State.linkPart _ _ State.linkPart_castSettle _).trans
      (State.foldl_part State.linkPart (fun s (e : LkEnt) => s.linkPart_lkDrop e.src 0) fw s1)
  obtain ⟨hlinks, hwait⟩ := Prod.mk.inj hpart
  rw [State.frzCheck_idle (hwait.trans hfrz)] at hexec
  refine ⟨_, hexec, ?_⟩
  refine (congrArg Link.up (State.lk_of_links hlinks n)).trans ?_
  simp only [s1, State.lk_modLk, if_true]
end

/-! ### Commands of a maintenance writer (R461, R466) -/

/-- The links of a broadcast rest on the default link and the flags of the peers. -/
theorem State.castLinks_congr {s t : State} (hroute : t.reg rLkRoute = s.reg rLkRoute) (hflags : ∀ m, t.reg (rLkPeerF m) = s.reg (rLkPeerF m))
    (hlinks : t.links = s.links) (k : Nat) : t.castLinks k = s.castLinks k := by
  simp only [State.castLinks, State.isChild, State.defLink, State.rfld, State.rbit, hroute, hflags, State.lk_of_links hlinks]
  rfl

theorem State.freezeTrigger_run {s : State} (hrun : s.mode = .run) (bit : Nat) :
    s.freezeTrigger bit = ({ s with frzTrig := s.frzTrig ++ [bit] } : State).rset rDbgFrzCause bit := by
  unfold State.freezeTrigger
  rw [hrun]
/-- With no FREEZE on a link a canopy freeze that waits is acted on. -/
theorem State.frzCheck_acts {s : State} (hrun : s.mode = .run) (hall : ∀ m, m < 4 → (s.lk m).store = [] ∧ (s.lk m).wait = []) :
    ({ s with frzWait := true } : State).frzCheck =
      ({ s with frzWait := false, frzTrig := s.frzTrig ++ [6] } : State).rset rDbgFrzCause 6 := by
  have hnone : ((List.range 4).any fun n => ((s.lk n).store ++ (s.lk n).wait).any (fun e => decide (e.ty = .freeze))) = false := by
    rw [List.any_eq_false]
    intro m hm
    obtain ⟨hstore, hwait⟩ := hall m (List.mem_range.mp hm)
    simp [hstore, hwait]
  have hcheck : ({ s with frzWait := true } : State).frzCheck = ({ s with frzWait := false } : State).freezeTrigger 6 := by
    unfold State.frzCheck
    exact if_pos (by rw [Bool.true_and]; exact congrArg (!·) hnone)
  rw [hcheck]
  exact State.freezeTrigger_run (s := { s with frzWait := false }) hrun 6

section
variable {s : State} {n : Fin 4} {m : Master} (h : s.linkIdle n) (hmaint : s.maint m = true)
include h hmaint

theorem exec_lkFrzcmd (hrun : s.mode = .run) (hcast : s.castLinks 4 = []) : answers (.lkFrzcmd m 0x5A3F#16) s fun t =>
    (t.reg rLkGStat).getLsbD 1 = true ∧
    t.frzTrig = s.frzTrig ++ (if (s.reg rLkGCfg).getLsbD 8 || (s.reg rLkGCfg).getLsbD 9 then [6] else []) := by
  obtain ⟨-, -, -, -, -, hall, -⟩ := h
  let s1 := s.rset rLkGStat 1
  have horig : s1.lkOriginate .freeze 0xFFFFFFFF#32 0 [] none = s1 := by
    have hroute : s1.reg rLkRoute = s.reg rLkRoute := by rw [State.reg_rset, if_neg (by decide)]
    have hflags : ∀ k, s1.reg (rLkPeerF k) = s.reg (rLkPeerF k) := fun k => by
      rw [State.reg_rset, if_neg (by simp only [rLkPeerF, rLk, rLkGStat]; omega)]
    have hcast1 : s1.castLinks 4 = [] := (State.castLinks_congr hroute hflags rfl 4).trans hcast
    rw [State.lkOriginate, if_pos rfl, hcast1]
    rfl
  have hacts : s1.frzActs true = ((s.reg rLkGCfg).getLsbD 8 || (s.reg rLkGCfg).getLsbD 9) := by
    have hcfg : s1.reg rLkGCfg = s.reg rLkGCfg := by rw [State.reg_rset, if_neg (by decide)]
    simp only [State.frzActs, State.rbit, hcfg, Bool.and_true]
  have hstat : (s1.reg rLkGStat).getLsbD 1 = true := by
    rw [State.reg_rset, if_pos rfl, getLsbD_setBit _ _ _ (by decide)]
    simp
  have hfreeze : s.lkFreeze m 0x5A3F = if s1.frzActs true then { s1 with frzWait := true }.frzCheck else s1 := by
    simp only [State.lkFreeze, hmaint, hrun, Bool.not_true, Bool.false_eq_true, if_false, and_self, if_true]
    rw [horig]
  refine answers_of_gated (t := s.lkFreeze m 0x5A3F) (by rw [hrun]; decide) rfl ?_
  rw [hfreeze, hacts]
  split
  · rw [State.frzCheck_acts (s := s1) hrun fun k hk => ⟨(hall k hk).1, (hall k hk).2.1⟩]
    refine ⟨?_, rfl⟩
    rw [State.reg_rset, if_neg (by decide)]
    exact hstat
  · exact ⟨hstat, (List.append_nil _).symm⟩

theorem exec_rtxSend {len : Fin 512} (hm : s.mode ≠ .halted) (hbusy : (s.lk n).busy = false) (hlo : 4 ≤ len.val) (hhi : len.val ≤ 256)
    (halign : len.val % 4 = 0) (hroom : 1 ≤ (s.lk n).peerRwin) (hacked : (s.lk n).peerAck = (s.lk n).seq) :
    answers (.rtxSend m n len) s fun t => (t.lk n).busy = true ∧ putFrame t n .recov (fun g => g.dst = s.reg (rLkPeer n) ∧
      g.payload = (bytesOf ((List.range 64).map (fun w => s.reg (rLkRtxBuf n w)))).take len) := by
  obtain ⟨hup, hgcm, hwait, hseq, hack, hrw⟩ := h.clear hroom hacked
  let s0 := s.modLk n (fun l => { l with busy := true })
  have hlk : s0.lk n = { s.lk n with busy := true } := by rw [State.lk_modLk, if_pos rfl]
  have hclear : s0.clear n := by
    refine ⟨by rw [hlk]; exact hup, ?_, by rw [hlk]; exact hwait, by rw [hlk]; exact hseq, by rw [hlk]; exact hack, by rw [hlk]; exact hrw⟩
    simp only [State.lkGcm, hlk] at hgcm ⊢
    exact hgcm
  let e : LkEnt := { ty := .recov, src := 4, f := { dst := s.reg (rLkPeer n), src := s.nodeId, ttl := max 1 (s.rfld rLkGCfg 0 8)
                                                    payload := (bytesOf ((List.range 64).map (fun w => s.reg (rLkRtxBuf n w)))).take len } }
  obtain ⟨-, -, hb, -, hput⟩ := State.lkEnter_puts hclear (e := e) (show 4 < 5 by decide)
  have hsend : s.lkRtx m n len = s0.lkEnter n e := by
    have hlen : ¬ len.val < 4 ∧ ¬ 256 < len.val := ⟨Nat.not_lt.mpr hlo, Nat.not_lt.mpr hhi⟩
    simp only [State.lkRtx, hmaint, hup, hbusy, hlen, halign, Bool.not_true, Bool.or_self, decide_false, ne_eq, not_true_eq_false,
      Bool.false_eq_true, if_false]
    rfl
  refine answers_of_gated hm (t := s.lkRtx m n len) rfl ?_
  rw [hsend]
  refine ⟨by rw [hb, hlk], hput.imp ?_⟩
  rintro g ⟨hd, -, -, -, hpay⟩
  exact ⟨hd, hpay⟩

omit h in
theorem exec_rtxSend_busy {len : Fin 512} (hm : s.mode ≠ .halted) (hbusy : (s.lk n).busy = true) :
    answers (.rtxSend m n len) s fun t => t = s.rset (rLkRtxStat n) 2 := by
  refine answers_of_gated hm (t := s.lkRtx m n len) rfl ?_
  simp only [State.lkRtx, hmaint, hbusy, Bool.not_true, Bool.or_true, Bool.true_or, Bool.false_eq_true, if_false, if_true]
end

/-! ### Frames that wait (R443, R457) -/

theorem exec_linkCreditReturn {s : State} {n : Fin 4} {c : Fin 4096} {e : LkEnt} (hm : s.mode ≠ .halted) (hkind : epKind (s.chan c).sendEp = 4)
    (howed : 0 < (s.chan c).owedM) (hroute : s.routeTo (s.epNode (s.chan c).sendEp) = some n.val) (hwait : (s.lk n).wait = [e]) (hsrc : e.src = 4)
    (hdst : e.f.dst = s.epNode (s.chan c).sendEp) (hcredit : e.f.credit = none) : answers (.linkCreditReturn c) s fun t =>
      t.chan c = { s.chan c with owedW := 0, owedM := 0 } ∧ t.regs = s.regs ∧
      (t.lk n).wait = [{ e with f := { e.f with credit := some (epUnit (s.chan c).sendEp, (s.chan c).owedW, (s.chan c).owedM) } }] := by
  have howes : s.owes c = true := by simp [State.owes, hkind, howed]
  let e' : LkEnt := { e with f := { e.f with credit := some (epUnit (s.chan c).sendEp, (s.chan c).owedW, (s.chan c).owedM) } }
  let s1 := s.modChan c (fun h => { h with owedW := 0, owedM := 0 })
  let t := s1.modLk n (fun l => { l with wait := [e'] })
  have hlk : t.lk n = { s.lk n with wait := [e'] } := (s1.lk_modLk n _ n).trans (if_pos rfl)
  let p : LkEnt → Bool := fun e => decide (e.src = 4) && decide (e.f.dst = s.epNode (s.chan c).sendEp) && e.f.credit.isNone
  have hp : p e = true := by simp only [p, hsrc, hdst, hcredit, decide_true, Option.isNone_none, Bool.and_self]
  have hput : s.creditOn c n = some t := by
    have hany : (s.lk n).wait.any p = true := by rw [hwait, List.any_cons, hp, Bool.true_or]
    have hw : (s1.lk n).wait = [e] := hwait
    unfold State.creditOn
    extract_lets dst p' q
    rw [show p' = p from rfl, if_pos hany, show q.2 = s1 from rfl, State.modLk, hw, takeSrc_single, if_pos hp]
    simp only [List.map_cons, List.map_nil, if_true]
    rfl
  refine answers_of_gated hm (t := t) ?_ ⟨(State.chan_setChan s c c _).trans (if_pos rfl), rfl, by rw [hlk]⟩
  show execLinkCreditReturn c s = _
  simp only [execLinkCreditReturn, howes, hroute, hput, if_true, Option.getD_some]

theorem exec_staleFrameDrop {s : State} {n : Fin 4} {e : LkEnt} {l : List LkEnt} (hm : s.mode ≠ .halted) (hwait : (s.lk n).wait = e :: l)
    (hsrc : e.src = 0) (hbefore : ∀ j, j < n.val → (s.lk j).wait = []) : answers (.staleFrameDrop 0) s fun t => (t.lk n).wait = l ∧
      ticked (s.reg (rLkDrop 0)) (t.reg (rLkDrop 0)) 16 8 ∧ dataKept s t := by
  have hfrom : s.waitsFrom 0 = some n.val := by
    rw [State.waitsFrom, State.waitsFrom.firstOf4, List.find?_range_eq_some]
    refine ⟨by simp [hwait, hsrc], List.mem_range.mpr n.isLt, fun j hj => by simp [hbefore j hj]⟩
  let s1 := s.modLk n (fun l => { l with wait := match takeSrc (fun e => decide (e.src = 0)) l.wait with
        | some (_, w) => w
        | none => l.wait })
  have hlk : (s1.lk n).wait = l := by
    rw [State.lk_modLk, if_pos rfl]
    simp only [hwait, takeSrc, hsrc, decide_true, if_true]
  have hdrop : s1.lkDrop 0 2 = (s1.rcount (rLkDrop 0) 16 8 1).recPush _ := rfl
  refine answers_of_gated hm (t := s1.lkDrop 0 2) ?_ ⟨?_, ?_, ?_⟩
  · show execStaleFrameDrop 0 s = _
    simp only [execStaleFrameDrop, Fin.val_zero, hfrom]
    rfl
  · rw [State.lk_of_links (s := s1) (by rw [hdrop]; simp only [State.recPush_fields]; rfl)]
    exact hlk
  · rw [hdrop, State.reg_recPush _ _ (by decide)]
    exact s1.rcount_ticked _ _ _ (by decide)
  · rw [hdrop]
    exact ⟨(State.recPush_fields _ _).1, (State.recPush_fields _ _).2.1, (State.recPush_fields _ _).2.2.1⟩

/-! ### Sessions and the wait of a freeze (R446, R461, R549) -/

theorem exec_freezeAckWait {s : State} (hfrz : s.frzWait = true) (hrun : s.mode = .run) : answers .freezeAckWait s fun t =>
    t.frzWait = false ∧ t.frzTrig = s.frzTrig ++ [6] ∧ (t.reg rDbgFrzCause).getLsbD 6 = true ∧ dataKept s t := by
  refine answers_of_gated (t := ({ s with frzWait := false } : State).freezeTrigger 6) (by rw [hrun]; decide) ?_ ?_
  · show execFreezeAckWait s = _
    simp only [execFreezeAckWait, hfrz, if_true]
  · rw [State.freezeTrigger_run (s := { s with frzWait := false }) hrun]
    refine ⟨rfl, rfl, ?_, rfl, rfl, rfl⟩
    rw [State.reg_rset, if_pos rfl, getLsbD_setBit _ _ _ (by decide)]
    simp

theorem exec_sessionRenewal_below {s : State} {n : Fin 4} (hlow : (s.lk n).txcnt < 0xFFFF0000) : answers (.sessionRenewal n) s fun t => t = s := by
  refine ⟨s, ?_, rfl⟩
  show execSessionRenewal n s = _
  simp only [execSessionRenewal, txHold, Nat.not_le.mpr hlow, decide_false, Bool.and_false, Bool.false_eq_true, if_false]

theorem exec_sessionRenewal_due {s : State} {n : Fin 4} (hon : s.lkOn n = true) (hgcm : s.lkGcm n = true) (hstore : (s.lk n).store = [])
    (hhigh : 0xFFFF0000 ≤ (s.lk n).txcnt) (hnone : (s.ports.tr.any (fun r => decide (r.user = .session n))) = false) :
    answers (.sessionRenewal n) s fun t =>
      t = { s with ports := { s.ports with tr := s.ports.tr ++ [{ user := .session n.val, want := 1 }] } } := by
  refine ⟨s.trAsk (.session n) 1, ?_, rfl⟩
  show execSessionRenewal n s = _
  simp only [execSessionRenewal, State.lkRenew, txHold, hon, hgcm, hstore, hhigh, hnone, List.isEmpty_nil, decide_true, Bool.and_self,
    Bool.false_eq_true, if_true, if_false]

theorem exec_rtxSend_refused {s : State} {n : Fin 4} {m : Master} {len : Fin 512} (hm : s.mode ≠ .halted) (hmaint : s.maint m = false) :
    answers (.rtxSend m n len) s fun t => t = s.lkRefused m := by
  refine answers_of_gated hm (t := s.lkRtx m n len) rfl ?_
  simp only [State.lkRtx, hmaint, Bool.not_false, if_true]

/-! ### O42 -/

/-- Settles O42, clause by clause. -/
theorem linkTimersAndCommandsSendFrames : Obligations.LinkTimersAndCommandsSendFrames := by
  unfold Obligations.LinkTimersAndCommandsSendFrames
  intro s n m c e l len inFrame hm ch dst k down sent
  refine ⟨exec_helloPeriod_down, fun hidle => ⟨exec_linkKeepalive hidle, exec_linkSilenceTimeout hidle, exec_linkLockFall hidle inFrame,
    exec_ackDelay hidle, ?_, ?_, exec_timePeriod hidle, ?_⟩, ?_, exec_linkCreditReturn hm, exec_staleFrameDrop hm, exec_freezeAckWait,
    exec_sessionRenewal_below, exec_sessionRenewal_due, exec_rtxSend_refused hm⟩
  · exact fun hkind howed hrun hroute hroom hacked => exec_creditTimeout (hidle.clear hroom hacked) hrun hkind howed hroute
  · exact fun hkind hdst hwait hrun hroute hroom hacked => exec_syncWaitTimeout (hidle.clear hroom hacked) hrun hkind hdst hwait hroute
  · exact fun hmaint => ⟨exec_lkFrzcmd hidle hmaint, exec_rtxSend hidle hmaint hm, exec_rtxSend_busy hmaint hm⟩
  · exact fun hon hgcm hup hstore => ⟨exec_retransmitTimeout_again hon hup hstore hgcm, exec_retransmitTimeout_down hon hup hstore⟩

end Machine
end Sys2Proof
end

section
/-! RECOV frames (R464, R466): one frame taken in order, what its request does, the answer; and O43. -/
namespace Sys2Proof
namespace Machine

/-! ### Words of a payload -/

theorem length_leBytes (n : Nat) : ∀ v, (leBytes n v).length = n := by
  induction n with
  | zero => exact fun _ => rfl
  | succ n ih => exact fun v => congrArg (· + 1) (ih _)
/-- The first word of a payload. -/
theorem wordsOf_cons (w : Word) (b : List Byte) : wordsOf (leBytes 4 w.toNat ++ b) = w :: wordsOf b := by
  have hlen : (leBytes 4 w.toNat ++ b).length / 4 = b.length / 4 + 1 := by rw [List.length_append, length_leBytes]; omega
  have hfirst : (leBytes 4 w.toNat ++ b).take 4 = leBytes 4 w.toNat := List.take_left' (length_leBytes 4 _)
  have hrest : ∀ k, (leBytes 4 w.toNat ++ b).drop (4 * (k + 1)) = b.drop (4 * k) := fun k => by
    rw [List.drop_append, List.drop_eq_nil_of_le (by rw [length_leBytes]; omega), length_leBytes, List.nil_append]
    congr 1
  have hval : BitVec.ofNat 32 (leNat (leBytes 4 w.toNat)) = w := by
    rw [leNat_leBytes, Nat.mod_eq_of_lt (show w.toNat < 256 ^ 4 from w.isLt), BitVec.ofNat_toNat, BitVec.setWidth_eq]
  rw [wordsOf, hlen, List.range_succ_eq_map, List.map_cons, List.map_map]
  refine congrArg₂ List.cons ?_ ?_
  · rw [Nat.mul_zero, List.drop_zero, hfirst, hval]
  · refine List.map_congr_left fun k _ => ?_
    simp only [Function.comp_apply, Nat.succ_eq_add_one, hrest]
theorem wordsOf_bytesOf (ws : List Word) : wordsOf (bytesOf ws) = ws := by
  induction ws with
  | nil => rfl
  | cons w ws ih =>
    rw [show bytesOf (w :: ws) = leBytes 4 w.toNat ++ bytesOf ws from rfl, wordsOf_cons, ih]

/-! ### A frame in order (R447) -/

theorem seqSub_self {a : Nat} (h : a < 65536) : seqSub a a = 0 := by unfold seqSub; omega

section
variable {s : State} {n : Nat}

/-- Nothing but link `n` differs, which is `l`. -/
structure onLink (s t : State) (n : Nat) (l : Link) : Prop where
  frame : t = { s with links := t.links }
  lk : t.lk n = l
  others : ∀ m, m ≠ n → t.lk m = s.lk m

theorem onLink.modLk {t : State} {l : Link} (h : onLink s t n l) (f : Link → Link) : onLink s (t.modLk n f) n (f l) := by
  obtain ⟨hframe, hlk, hothers⟩ := h
  refine ⟨?_, ?_, fun m hm => ?_⟩
  · rw [hframe]; rfl
  · rw [State.lk_modLk, if_pos rfl, hlk]
  · rw [State.lk_modLk, if_neg hm, hothers m hm]
theorem onLink.refl (s : State) (n : Nat) : onLink s s n (s.lk n) := ⟨rfl, rfl, fun _ _ => rfl⟩

/-- An ACK of everything sent, where nothing is stored. -/
theorem onLink.lkAck_all {t : State} {l : Link} (h : onLink s t n l) (hstore : l.store = []) (hseq : l.seq < 65536) (hfrz : s.frzWait = false) :
    onLink s (t.lkAck n l.seq) n { l with peerAck := l.seq } := by
  let u := t.modLk n (fun k => { k with peerAck := l.seq, store := (k.store.filter (fun e => decide (seqSub e.f.seq l.seq < 32768))).map (fun e => e) })
  have hack : t.lkAck n l.seq = u := by
    have hfrz' : u.frzWait = false := by
      change t.frzWait = false
      rw [h.frame]; exact hfrz
    have hraw : t.lkAck n l.seq = u.frzCheck := by
      unfold State.lkAck
      simp only [h.lk, hstore, List.filter_nil, List.foldl_nil, seqSub_self hseq, Nat.zero_le, if_true, List.isEmpty_nil]
      rfl
    rw [hraw, State.frzCheck_idle hfrz']
  have hl : { l with peerAck := l.seq, store := (l.store.filter (fun e => decide (seqSub e.f.seq l.seq < 32768))).map (fun e => e) } =
      { l with peerAck := l.seq } := by
    simp only [hstore, List.filter_nil, List.map_nil]
  rw [hack, ← hl]
  exact h.modLk _

/-- A frame of SEQ NEXT, where no frame is stored, is stored and passed on. -/
theorem State.lkSeq_next {ty : FType} {f : LinkFrame} (hrstore : (s.lk n).rstore = []) (hseq : f.seq = (s.lk n).next)
    (hnext : (s.lk n).next < 65536) (hfree : s.rfree n ≠ 0) :
    s.lkSeq n ty f = (s.modLk n (fun l => { l with rstore := l.rstore ++ [(ty, f)], ackDue := true })).lkPass n 65 := by
  unfold State.lkSeq
  simp only [hseq, seqSub_self hnext, hrstore, hfree, List.any_nil, Bool.false_eq_true, or_self, show ¬ 64 ≤ 0 by decide, if_false, if_true]

/-- The only frame stored is passed on. -/
theorem State.lkPass_one {ty : FType} {f : LinkFrame} {t : State} (hrstore : (s.lk n).rstore = [(ty, f)]) (hseq : f.seq = (s.lk n).next)
    (ht : (s.modLk n (fun l =>
        { l with rstore := l.rstore.filter (fun p => decide (p.2.seq ≠ l.next)), next := (l.next + 1) % 65536 })).lkRoute n ty f = t)
    (hnone : (t.lk n).rstore = []) (k : Nat) : s.lkPass n (k + 2) = t := by
  have hlast : t.lkPass n (k + 1) = t := by simp only [State.lkPass, hnone, List.find?_nil]
  rw [State.lkPass, hrstore]
  simp only [hseq, List.find?_cons, decide_true]
  rw [ht, hlast]
end

/-- A RECOV frame in order was taken: it waits to be served, the link can send, and nothing else but counts and links changes. -/
structure tookRecov (s u : State) (n : Nat) (f : LinkFrame) : Prop where
  frame : u = { s with regs := u.regs, links := u.links, recovQ := [(n, f)] }
  regs : sameRegs s u (fun a => a = rLkRxf n)
  clear : u.clear n

theorem State.rfree_empty {s : State} {n : Nat} (hrstore : (s.lk n).rstore = []) (hwait : ∀ m, m < 4 → (s.lk m).wait = []) : s.rfree n = 64 := by
  have hsum : ((members 4 (fun _ => true)).map (fun m => ((s.lk m).wait.filter (fun e => decide (e.src = n))).length)).sum = 0 := by
    refine List.sum_eq_zero fun x hx => ?_
    obtain ⟨m, hm, rfl⟩ := List.mem_map.mp hx
    rw [hwait m (List.mem_range.mp (List.mem_filter.mp hm).1)]
    rfl
  rw [State.rfree, hrstore, hsum]
  rfl

/-- A RECOV frame for this node is delivered. -/
theorem State.lkRoute_recov {s : State} {n : Nat} {f : LinkFrame} (hmode : s.mode = .run ∨ s.mode = .recovery) (hdst : f.dst = s.nodeId)
    (hcredit : f.credit = none) : s.lkRoute n .recov f = { s with recovQ := s.recovQ ++ [(n, f)] } := by
  have hcred : ∀ sec, s.lkCredit f sec = s := fun sec => by simp only [State.lkCredit, hcredit]
  have hdeliver : ∀ sec, s.lkDeliver n .recov f sec = { s with recovQ := s.recovQ ++ [(n, f)] } := fun sec => by
    simp only [State.lkDeliver, hdst, hcred, if_true]
  unfold State.lkRoute
  rcases hmode with hrun | hrec
  · simp only [hrun, hdst, hdeliver, reduceCtorEq, if_false, if_true]
  · simp only [hrec, hdst, hdeliver, and_self, if_true]

/-- A RECOV frame in order on an idle link. -/
theorem State.lkFrame_recov {s : State} {n : Fin 4} (h : s.linkIdle n) (hmode : s.mode = .run ∨ s.mode = .recovery) (src : Word)
    {payload : List Byte} (hlen : lenOk .recov payload.length = true) :
    tookRecov s (s.lkFrame n .recov (s.nextFrame n s.nodeId src 0 payload)) n (s.nextFrame n s.nodeId src 0 payload) := by
  obtain ⟨hon, hgcm, hup, hseq, hnext, hall, hfrz, hq⟩ := h
  obtain ⟨hstore, hwait, hrstore⟩ := hall n n.isLt
  let f := s.nextFrame n s.nodeId src 0 payload
  let a := s.rcount (rLkRxf n) 0 32 1
  let l1 : Link := { s.lk n with lock := decide (s.lkMode n = 1), peerRwin := 64 }
  let l2 : Link := { l1 with peerAck := l1.seq }
  let l3 : Link := { l2 with rstore := [], next := (l1.next + 1) % 65536, ackDue := true }
  let b := a.modLk n (fun l => { l with lock := decide (s.lkMode n = 1), peerRwin := 64 })
  let c := b.lkAck n l1.seq
  let d := c.modLk n (fun l => { l with rstore := l.rstore ++ [(.recov, f)], ackDue := true })
  let pass : Link → Link := fun l => { l with rstore := l.rstore.filter (fun p => decide (p.2.seq ≠ l.next)), next := (l.next + 1) % 65536 }
  let e := d.modLk n pass
  let g : State := { e with recovQ := [(n, f)] }
  have hb : onLink a b n l1 := (onLink.refl a n).modLk _
  have hc : onLink a c n l2 := hb.lkAck_all hstore hseq hfrz
  have hd : onLink a d n { l2 with rstore := [(.recov, f)], ackDue := true } := by
    have hl : l2.rstore = [] := hrstore
    have := hc.modLk (fun l => { l with rstore := l.rstore ++ [(.recov, f)], ackDue := true })
    rwa [hl] at this
  have he : onLink a e n l3 := by
    have hseq' : f.seq = l2.next := rfl
    have hl : pass { l2 with rstore := [(.recov, f)], ackDue := true } = l3 := by simp [pass, hseq', l3]; rfl
    exact hl ▸ hd.modLk pass
  have hroute : e.lkRoute n .recov f = g := by
    have hmode' : e.mode = .run ∨ e.mode = .recovery := by rw [he.frame]; exact hmode
    have hnode : e.nodeId = s.nodeId := by
      rw [State.nodeId, he.frame]
      change a.reg rLkNodeId = _
      rw [State.reg_rcount, if_neg (by simp only [rLkNodeId, rLkRxf, rLk]; omega)]
      rfl
    have hrecovq : e.recovQ = [] := by rw [he.frame]; exact hq
    rw [State.lkRoute_recov hmode' hnode.symm rfl, hrecovq]
    rfl
  have hsq : c.lkSeq n .recov f = g := by
    have hfree : c.rfree n = 64 := State.rfree_empty (by rw [hc.lk]; exact hrstore) fun m hm => by
      by_cases hmn : m = n
      · rw [hmn, hc.lk]; exact hwait
      · rw [hc.others m hmn]; exact (hall m hm).2.1
    rw [State.lkSeq_next (by rw [hc.lk]; exact hrstore) (by rw [hc.lk]; rfl) (by rw [hc.lk]; exact hnext) (by rw [hfree]; decide)]
    exact State.lkPass_one (by rw [hd.lk]) (by rw [hd.lk]; rfl) hroute (congrArg Link.rstore he.lk) 63
  have hlkg : g.lk n = l3 := he.lk
  have hframe : s.lkFrame n .recov f = g := by
    have hgood : f.good = true ∧ f.enc = false ∧ f.payload = payload ∧ f.rwin = 64 ∧ f.ack = l1.seq ∧ f.dst = s.nodeId := ⟨rfl, rfl, rfl, rfl, rfl, rfl⟩
    obtain ⟨hg, henc, hpay, hrwin, hack, hdst⟩ := hgood
    have htake : s.lkTake n .recov f s.ct s.bt.bt = (c.lkSeq n .recov f).lkPump n := by
      unfold State.lkTake
      rw [if_neg (by simp [hdst])]
      extract_lets s1
      have hs1 : s1 = b := by simp only [s1, hrwin]; rfl
      rw [hs1, if_neg (by decide), hb.lk, if_neg (by rw [show l1.up = true from hup]; decide)]
      rfl
    unfold State.lkFrame
    rw [hon, hg, hpay, hlen, henc, hgcm, htake, hsq]
    simp only [State.lkPump, hlkg, show l3.wait = [] from hwait]
    rfl
  have hregs : sameRegs s g (fun x => x = rLkRxf n) := fun x hx => by
    change e.reg x = _
    rw [he.frame]
    change a.reg x = _
    rw [State.reg_rcount, if_neg hx]
  rw [hframe]
  refine ⟨?_, hregs, ?_⟩
  · have hreg : g.regs = a.regs := by
      change e.regs = _
      rw [he.frame]
    calc g = { ({ a with links := e.links } : State) with recovQ := [(n.val, f)] } :=
          congrArg (fun x : State => { x with recovQ := [(n.val, f)] }) he.frame
      _ = { s with regs := g.regs, links := g.links, recovQ := [(n.val, f)] } := by rw [hreg]; rfl
  · refine ⟨by rw [hlkg]; exact hup, ?_, by rw [hlkg]; exact hwait, by rw [hlkg]; exact hseq, by rw [hlkg], by rw [hlkg]; exact (by decide : 1 ≤ 64)⟩
    rw [State.lkGcm, State.rbit, hregs _ (by simp only [rLkCfg, rLkRxf, rLk]; omega), hlkg]
    exact hgcm

/-! ### The request served (R464) -/

/-- The word that heads a request or a response without a status. -/
def recovHead (op : Nat) (tag : Byte) : Word := BitVec.ofNat 32 (op + tag.toNat * 2 ^ 8)
theorem fld_recovHead {op : Nat} (hop : op < 256) (tag : Byte) : fld (recovHead op tag) 0 8 = op ∧ fld (recovHead op tag) 8 8 = tag.toNat := by
  have htag := tag.isLt
  simp only [fld, recovHead, BitVec.toNat_ofNat]
  omega

/-- A request in a frame in order. -/
def State.recovReq (s : State) (n : Nat) (src : Word) (op : Nat) (tag : Byte) (l : List Byte) : LinkFrame :=
  s.nextFrame n s.nodeId src 0 (bytesOf [recovHead op tag] ++ l)
theorem wordsOf_recovReq (s : State) (n : Nat) (src : Word) (op : Nat) (tag : Byte) (l : List Byte) :
    wordsOf (s.recovReq n src op tag l).payload = recovHead op tag :: wordsOf l := by
  change wordsOf (bytesOf [recovHead op tag] ++ l) = _
  rw [show bytesOf [recovHead op tag] = leBytes 4 (recovHead op tag).toNat from List.append_nil _, wordsOf_cons]

/-- A request taken is served in a state that differs in counts and links alone, and from which link `n` can send. -/
theorem State.recovIn_serves {s : State} {n : Fin 4} (h : s.linkIdle n) (hmode : s.mode = .run ∨ s.mode = .recovery) (src : Word) {op : Nat}
    (hop : op < 256) (tag : Byte) {l : List Byte} (hlen : l.length % 4 = 0 ∧ l.length ≤ 252) {p : Nat → Bool} (hp : p op = true) :
    ∃ u, linksOnly s u ∧ sameRegs s u (fun a => a = rLkRxf n) ∧ u.clear n ∧
      s.recovIn n (s.recovReq n src op tag l) p = u.recovOne n (s.recovReq n src op tag l) := by
  have hlenOk : lenOk .recov (bytesOf [recovHead op tag] ++ l).length = true := by
    have h4 : (bytesOf [recovHead op tag]).length = 4 := by
      rw [show bytesOf [recovHead op tag] = leBytes 4 (recovHead op tag).toNat from List.append_nil _, length_leBytes]
    simp only [lenOk, List.length_append, h4, decide_eq_true_eq]
    omega
  obtain ⟨hframe, hregs, hclear⟩ := State.lkFrame_recov h hmode src hlenOk
  obtain ⟨-, -, -, -, -, -, -, hq⟩ := h
  let v := s.lkFrame n .recov (s.recovReq n src op tag l)
  let u : State := { v with recovQ := [] }
  have hserve : v.recovServe = u.recovOne n (s.recovReq n src op tag l) := by
    have hvq : v.recovQ = [(n.val, s.recovReq n src op tag l)] := by rw [show v = _ from hframe]; rfl
    rw [State.recovServe, hvq]
    rfl
  have hu : linksOnly s u := by
    calc u = { ({ s with regs := v.regs, links := v.links, recovQ := [(n.val, s.recovReq n src op tag l)] } : State) with recovQ := [] } :=
          congrArg (fun x : State => { x with recovQ := [] }) hframe
      _ = { s with regs := v.regs, links := v.links, recovQ := [] } := rfl
      _ = { s with regs := u.regs, links := u.links } := by rw [← hq]
  have hrun : s.mode ≠ .halted := by rcases hmode with hm | hm <;> rw [hm] <;> decide
  refine ⟨u, hu, hregs, ⟨hclear.up, hclear.gcm, hclear.wait, hclear.seq, hclear.acked, hclear.room⟩, ?_⟩
  rw [State.recovIn, wordsOf_recovReq, List.getD_cons_zero, (fld_recovHead hop tag).1, if_pos hp, State.frameIn, State.gated_running _ _ hrun]
  exact hserve

/-- The answer with status OK. -/
theorem State.recovSay_puts {s : State} {n : Nat} (hc : s.clear n) (dst : Word) (op : Nat) (tag : Byte) (ws : List Word) :
    linksOnly s (s.recovSay n dst op tag.toNat 0 ws) ∧ (∀ a, a ≠ rLkTxf n → (s.recovSay n dst op tag.toNat 0 ws).reg a = s.reg a) ∧
    putFrame (s.recovSay n dst op tag.toNat 0 ws) n .recov (fun g => g.dst = dst ∧ g.src = s.nodeId ∧ g.payload = bytesOf (recovHead op tag :: ws)) := by
  have hhead : BitVec.ofNat 32 (op + tag.toNat * 2 ^ 8 + 0 * 2 ^ 16) = recovHead op tag := by rw [Nat.zero_mul, Nat.add_zero]; rfl
  unfold State.recovSay
  rw [hhead]
  obtain ⟨hframe, -, -, hregs, hput⟩ := State.lkEnter_puts hc (e := { ty := .recov, src := 4, f :=
    { dst := dst, src := s.nodeId, ttl := max 1 (s.rfld rLkGCfg 0 8), payload := bytesOf (recovHead op tag :: ws) } }) (show 4 < 5 by decide)
  refine ⟨hframe, hregs, hput.imp ?_⟩
  rintro g ⟨hd, hsrc, -, -, hpay⟩
  exact ⟨hd, hsrc, hpay⟩

/-- A state reached by serving a request, from which the answer goes out. -/
structure readyToSay (s v : State) (n : Nat) : Prop where
  clear : v.clear n
  node : v.nodeId = s.nodeId

section
variable {s u : State} {n : Fin 4}

theorem readyToSay.answer {v : State} (h : readyToSay s v n) (dst : Word) (op : Nat) (tag : Byte) (ws : List Word) :
    putFrame (v.recovSay n dst op tag.toNat 0 ws) n .recov (fun g => g.dst = dst ∧ g.src = s.nodeId ∧ g.payload = bytesOf (recovHead op tag :: ws)) :=
  h.node ▸ (State.recovSay_puts h.clear dst op tag ws).2.2
/-- What leaves links alone, and registers of links, leaves a link that can send so. -/
theorem State.clear.of_links {v : State} (h : u.clear n) (hlinks : v.links = u.links) (hcfg : v.reg (rLkCfg n) = u.reg (rLkCfg n)) : v.clear n := by
  have hlk := State.lk_of_links hlinks n
  obtain ⟨hup, hgcm, hwait, hseq, hacked, hroom⟩ := h
  refine ⟨by rw [hlk]; exact hup, ?_, by rw [hlk]; exact hwait, by rw [hlk]; exact hseq, by rw [hlk]; exact hacked, by rw [hlk]; exact hroom⟩
  rw [State.lkGcm, State.rbit, hlk, hcfg]
  exact hgcm
theorem readyToSay.of_links (hnode : u.nodeId = s.nodeId) (hc : u.clear n) {v : State} (hlinks : v.links = u.links)
    (hregs : ∀ a, 0x680000 ≤ a → a < 0x690000 → v.reg a = u.reg a) : readyToSay s v n :=
  ⟨hc.of_links hlinks (hregs _ (by simp only [rLkCfg, rLk]; omega) (by simp only [rLkCfg, rLk]; omega)),
    (hregs rLkNodeId (by decide) (by decide)).trans hnode⟩
theorem nodeId_of_sameRegs (hregs : sameRegs s u (fun a => a = rLkRxf n)) : u.nodeId = s.nodeId :=
  hregs _ (by simp only [rLkNodeId, rLkRxf, rLk]; omega)
end

/-- A write of the lap alarm through the recovery link (R464). -/
theorem State.busAccess_lapAlarm (s : State) (v : Word) : s.busAccess .recov true rSpLapAlarm 4 v [] = (0, 0#32, s.setReg rSpLapAlarm v) := by
  have hlim := s.spLimit_le
  have hlow : ¬ rSpLapAlarm < s.spLimit := by simp only [rSpLapAlarm, rSp]; omega
  have hfor := regFor_rSpLapAlarm s.kind .recov
  have hpass : ∀ m, s.regRefuses true true true m rSpLapAlarm = false := fun m => s.regRefuses_secure m (.inl rfl)
  obtain ⟨h4, halign, hpm, hrom⟩ : rSpLapAlarm % 4 = 0 ∧ rSpLapAlarm / 4 * 4 = rSpLapAlarm ∧ inPm rSpLapAlarm = false ∧ inRom rSpLapAlarm = false := by
    decide
  have hreg : s.regAccess .recov true rSpLapAlarm v = (0, 0#32, s.setReg rSpLapAlarm v) := by
    simp only [State.regAccess, h4, if_true, hfor, hpass, keyDenied, Bool.false_and, Bool.and_false, Bool.or_false, Bool.false_eq_true, if_false,
      s.regWrite_rSpLapAlarm (.inr rfl)]
  have hcheck : s.busCheck .recov true rSpLapAlarm 4 = 0 := by
    simp [State.busCheck, halign, h4, hfor, attrsOf, hlow, hpass, hpm, hrom, State.pmAt]
  simp only [State.busAccess, hcheck, hlow, hreg, hpm, hrom, ne_eq, not_true_eq_false, Bool.false_eq_true, if_false]

/-! ### Loads by link (R148, R464) -/

/-- Fields of a register that another field's write leaves alone, and the field written. -/
theorem State.loadBegin_fields (s : State) (l : Load) (st : Nat) : (s.loadBegin l st).links = s.links ∧ (s.loadBegin l st).boot.load = some l ∧
    (s.loadBegin l st).mem = [] ∧ (∀ a, a ≠ rBcImgStat → (s.loadBegin l st).reg a = s.reg a) ∧ (s.loadBegin l st).imgState = st % 8 := by
  refine ⟨rfl, rfl, rfl, fun a ha => ?_, ?_⟩
  · rw [State.loadBegin, State.setImgBytes, State.setImgState, State.reg_rsetFld, if_neg ha, State.reg_rsetFld, if_neg ha]
    rfl
  · rw [State.imgState, State.rfld, State.loadBegin, State.setImgBytes, State.setImgState, State.reg_rsetFld, if_pos rfl, State.reg_rsetFld, if_pos rfl,
      fld_setFld_other _ _ _ _ _ _ (by decide) (by decide), fld_setFld_same _ _ _ _ (by decide)]
    rfl

/-- Blank zones: registers of zones alone change. -/
theorem State.zonesBlank_keeps (s : State) : onlyRegs s s.zonesBlank ∧ ∀ a, 0x680000 ≤ a → s.zonesBlank.reg a = s.reg a := by
  refine List.foldlRecOn (motive := fun t => onlyRegs s t ∧ ∀ a, 0x680000 ≤ a → t.reg a = s.reg a) (List.range 8) _ ⟨.refl s, fun _ _ => rfl⟩ ?_
  intro t ⟨ht, hreg⟩ z hz
  have hlt := List.mem_range.mp hz
  split
  · exact ⟨ht, hreg⟩
  · refine ⟨((ht.setReg _ _).setReg _ _).setReg _ _, fun a ha => ?_⟩
    rw [State.zoneSet, State.reg_setReg, if_neg (by simp only [rPgZQbudget, rPgZ]; omega), State.reg_setReg,
      if_neg (by simp only [rPgZVzone, rPgZ]; omega), State.reg_setReg, if_neg (by simp only [rPgZLim, rPgZ]; omega)]
    exact hreg a ha

/-- A load by link that is given up in RECOVERY. -/
theorem State.loadFail_abort {s : State} {l : Load} (hmode : s.mode = .recovery) (hsrc : l.src = 3) (off : Nat) :
    (s.loadFail l 0x3C off false).links = s.links ∧ (s.loadFail l 0x3C off false).boot.load = none ∧
    (∀ a, 0x680000 ≤ a → (s.loadFail l 0x3C off false).reg a = s.reg a) ∧ (s.loadFail l 0x3C off false).imgState = 0 := by
  let v := (({ s.fill.zonesBlank with phase := 3 } : State).setLoad none).bootErr 0x3C l.src off
  obtain ⟨hframe, hreg⟩ := s.fill.zonesBlank_keeps
  have hfail : s.loadFail l 0x3C off false = v.setImgState 0 := by
    simp only [State.loadFail, hsrc, ne_eq, not_true_eq_false, false_and, if_false, hmode, reduceCtorEq, Bool.false_eq_true, Nat.reduceEqDiff, v]
    cases l.link <;> rfl
  rw [hfail]
  refine ⟨?_, rfl, fun a ha => ?_, ?_⟩
  · change s.fill.zonesBlank.links = _
    rw [hframe]
    rfl
  · rw [State.setImgState, State.reg_rsetFld, if_neg (by simp only [rBcImgStat]; omega)]
    exact ((State.reg_setReg _ _ _ _).trans (if_neg (by simp only [rBcBootErr]; omega))).trans (hreg a ha)
  · rw [State.imgState, State.rfld, State.setImgState, State.reg_rsetFld, if_pos rfl, fld_setFld_same _ _ _ _ (by decide)]
    rfl

/-- The image that bytes make rests on OTP alone. -/
theorem State.parse_congr {s u : State} (h : linksOnly s u) (hreg : ∀ a, 0x6C0000 ≤ a → u.reg a = s.reg a) (b : List Byte) : u.parse b = s.parse b := by
  have hmirror : ∀ w, u.reg (rOtpMirror w) = s.reg (rOtpMirror w) := fun w => hreg _ (by simp only [rOtpMirror]; omega)
  have hword : u.genWord 0 = s.genWord 0 := by
    rw [State.genWord, State.genWord, show u.gen = s.gen by rw [h]]
    split
    · exact hmirror _
    · rfl
  have hzone : u.zoneOtp = s.zoneOtp := funext fun z => by simp only [State.zoneOtp, hmirror]
  have hfloor : u.arbFloor = s.arbFloor := by
    have hfuse : u.fuse = s.fuse := funext fun w => by rw [State.fuse, State.fuse, show u.otp = s.otp by rw [h]]
    unfold State.arbFloor
    rw [hfuse]
  rw [State.parse, State.parse, hword, hzone, hfloor, show u.kind = s.kind by rw [h]]

/-- Bytes of an image that break no rule and are not yet all of it. -/
theorem State.loadTake_part {s : State} {l : Load} {b : List Byte} (hparse : s.parse b = .error none) :
    (s.loadTake l b).boot.load = some { l with bytes := b } ∧ (s.loadTake l b).imgState = s.imgState ∧
    (s.loadTake l b).rfld rBcImgStat 8 24 = min 16777215 b.length := by
  let v := (s.setLoad (some { l with bytes := b })).setImgBytes b.length
  have htake : s.loadTake l b = v.loadMem b := by
    simp only [State.loadTake, hparse]
    rfl
  have hreg : ∀ a, (v.loadMem b).reg a = v.reg a := fun a => by rw [State.loadMem_frame]; rfl
  have hstat : v.reg rBcImgStat = setFld (s.reg rBcImgStat) 8 24 (min 16777215 b.length) :=
    (State.reg_rsetFld _ _ _ _ _ _).trans (if_pos rfl)
  rw [htake]
  refine ⟨?_, ?_, ?_⟩
  · rw [State.loadMem_frame]
    rfl
  · rw [State.imgState, State.rfld, hreg, hstat, fld_setFld_other _ _ _ _ _ _ (by decide) (by decide)]
    rfl
  · rw [State.rfld, hreg, hstat, fld_setFld_same _ _ _ _ (by decide)]
    exact Nat.mod_eq_of_lt (by omega)

/-! ### O43 -/

section
variable {s : State} {n : Fin 4} (h : s.linkIdle n) (src : Word) (tag : Byte)
include h

section
variable (hrec : s.mode = .recovery)
include hrec

theorem exec_recovRead : answers (.recovRead n (s.recovReq n src 1 tag (leBytes 4 rBcId))) s fun t =>
    putFrame t n .recov (fun g => g.dst = src ∧ g.src = s.nodeId ∧ g.payload = bytesOf (recovHead 0x81 tag :: [s.kind.bcId])) ∧ dataKept s t := by
  obtain ⟨u, hu, hregs, hclear, hin⟩ := State.recovIn_serves h (.inr hrec) src (op := 1) (by decide) tag (l := leBytes 4 rBcId) (by decide)
    (p := (· == 1)) rfl
  have hready : readyToSay s u n := ⟨hclear, nodeId_of_sameRegs hregs⟩
  have hone : u.recovOne n (s.recovReq n src 1 tag (leBytes 4 rBcId)) = u.recovSay n src 0x81 tag.toNat 0 [s.kind.bcId] := by
    have hmode : u.mode = .recovery := by rw [hu]; exact hrec
    have hkind : u.kind = s.kind := by rw [hu]
    obtain ⟨hop, htag⟩ := fld_recovHead (op := 1) (by decide) tag
    have hwords : wordsOf (leBytes 4 rBcId) = [0x600000#32] := by decide
    unfold State.recovOne
    simp only [wordsOf_recovReq, hwords, List.getD_cons_zero, List.getD_cons_succ, hop, htag, hmode, Nat.reduceLeDiff, reduceCtorEq, if_false]
    rw [show (0x600000#32).toNat = 0x600000 from rfl, State.busAccess_bcId (.inr rfl), hkind]
    rfl
  refine ⟨_, congrArg Host.Outcome.next (hin.trans hone), hready.answer src 0x81 tag _, ?_⟩
  exact (hu.trans (State.recovSay_puts hclear src 0x81 tag _).1).dataKept

theorem exec_recovWrite (v : Word) : answers (.recovWrite n (s.recovReq n src 2 tag (leBytes 4 rSpLapAlarm ++ leBytes 4 v.toNat))) s fun t =>
    putFrame t n .recov (fun g => g.dst = src ∧ g.src = s.nodeId ∧ g.payload = bytesOf [recovHead 0x82 tag]) ∧ t.reg rSpLapAlarm = v := by
  obtain ⟨u, hu, hregs, hclear, hin⟩ := State.recovIn_serves h (.inr hrec) src (op := 2) (by decide) tag
    (l := leBytes 4 rSpLapAlarm ++ leBytes 4 v.toNat) (by rw [List.length_append, length_leBytes, length_leBytes]; decide) (p := (· == 2)) rfl
  have hready : readyToSay s (u.setReg rSpLapAlarm v) n := .of_links (nodeId_of_sameRegs hregs) hclear rfl fun a hlo hhi => by
    rw [State.reg_setReg, if_neg (by simp only [rSpLapAlarm, rSp]; omega)]
  have hone : u.recovOne n (s.recovReq n src 2 tag (leBytes 4 rSpLapAlarm ++ leBytes 4 v.toNat)) =
      (u.setReg rSpLapAlarm v).recovSay n src 0x82 tag.toNat 0 [] := by
    have hmode : u.mode = .recovery := by rw [hu]; exact hrec
    obtain ⟨hop, htag⟩ := fld_recovHead (op := 2) (by decide) tag
    have hwords : wordsOf (leBytes 4 rSpLapAlarm ++ leBytes 4 v.toNat) = [BitVec.ofNat 32 rSpLapAlarm, v] := by
      rw [show rSpLapAlarm = (BitVec.ofNat 32 rSpLapAlarm).toNat from rfl, wordsOf_cons, ← List.append_nil (leBytes 4 v.toNat), wordsOf_cons]
      rfl
    unfold State.recovOne
    simp only [wordsOf_recovReq, hwords, List.getD_cons_zero, List.getD_cons_succ, hop, htag, hmode, Nat.reduceLeDiff, reduceCtorEq, if_false]
    rw [show (BitVec.ofNat 32 rSpLapAlarm).toNat = rSpLapAlarm from rfl, State.busAccess_lapAlarm]
    rfl
  refine ⟨_, congrArg Host.Outcome.next (hin.trans hone), hready.answer src 0x82 tag _, ?_⟩
  rw [(State.recovSay_puts hready.clear src 0x82 tag _).2.1 _ (by simp only [rSpLapAlarm, rSp, rLkTxf, rLk]; omega), State.reg_setReg, if_pos rfl]

theorem exec_recovStream (hotp : s.boot.otp = none) (himg : s.imgState = 0) : answers (.recovStream n (s.recovReq n src 3 tag [])) s fun t =>
    putFrame t n .recov (fun g => g.dst = src ∧ g.src = s.nodeId ∧ g.payload = bytesOf [recovHead 0x83 tag]) ∧ t.imgState = 2 ∧
    t.boot.load = some { src := 3, link := some (n.val, src, tag.toNat) } ∧ t.mem = [] := by
  obtain ⟨u, hu, hregs, hclear, hin⟩ := State.recovIn_serves h (.inr hrec) src (op := 3) (by decide) tag (l := []) (by decide) (p := (· == 3)) rfl
  let l : Load := { src := 3, link := some (n.val, src, tag.toNat) }
  obtain ⟨hlinks, hload, hmem, hreg, hstat⟩ := u.loadBegin_fields l 2
  have hready : readyToSay s (u.loadBegin l 2) n := .of_links (nodeId_of_sameRegs hregs) hclear hlinks fun a hlo hhi =>
    hreg a (by simp only [rBcImgStat]; omega)
  have hone : u.recovOne n (s.recovReq n src 3 tag []) = (u.loadBegin l 2).recovSay n src 0x83 tag.toNat 0 [] := by
    have hmode : u.mode = .recovery := by rw [hu]; exact hrec
    have hotp' : u.boot.otp = none := by rw [hu]; exact hotp
    have himg' : u.imgState = 0 := by
      rw [State.imgState, State.rfld, hregs _ (by simp only [rBcImgStat, rLkRxf, rLk]; omega)]
      exact himg
    obtain ⟨hop, htag⟩ := fld_recovHead (op := 3) (by decide) tag
    unfold State.recovOne
    simp only [wordsOf_recovReq, List.getD_cons_zero, hop, htag, hmode, Nat.reduceLeDiff, reduceCtorEq, if_false, State.recovLoad, hotp', himg',
      Option.isSome_none, Bool.false_eq_true, ne_eq, not_true_eq_false]
    rfl
  obtain ⟨hframe, hsame, hput⟩ := State.recovSay_puts hready.clear src 0x83 tag []
  refine ⟨_, congrArg Host.Outcome.next (hin.trans hone), hready.answer src 0x83 tag _, ?_, ?_, ?_⟩
  · rw [State.imgState, State.rfld, hsame _ (by simp only [rBcImgStat, rLkTxf, rLk]; omega)]
    exact hstat
  · rw [hframe]
    exact hload
  · rw [hframe]
    exact hmem

theorem exec_recovImage {bytes : List Byte} {ld : Load} (hload : s.boot.load = some ld) (himg : s.imgState = 2) (halign : bytes.length % 4 = 0)
    (hlen : bytes.length ≤ 252) (hparse : s.parse (ld.bytes ++ bytes) = .error none) :
    answers (.recovImage n (s.recovReq n src 4 tag bytes)) s fun t =>
      t.boot.load = some { ld with link := some (n.val, src, tag.toNat), bytes := ld.bytes ++ bytes } ∧ t.imgState = 2 ∧
      t.rfld rBcImgStat 8 24 = min 16777215 (ld.bytes.length + bytes.length) := by
  obtain ⟨u, hu, hregs, -, hin⟩ := State.recovIn_serves h (.inr hrec) src (op := 4) (by decide) tag ⟨halign, hlen⟩ (p := (· == 4)) rfl
  have hparse' : u.parse (ld.bytes ++ bytes) = .error none := by
    rw [State.parse_congr hu fun a ha => hregs a (by simp only [rLkRxf, rLk]; omega)]
    exact hparse
  have himg' : u.imgState = 2 := by
    rw [State.imgState, State.rfld, hregs _ (by simp only [rBcImgStat, rLkRxf, rLk]; omega)]
    exact himg
  have hone : u.recovOne n (s.recovReq n src 4 tag bytes) =
      u.loadTake { ld with link := some (n.val, src, tag.toNat) } (ld.bytes ++ bytes) := by
    have hmode : u.mode = .recovery := by rw [hu]; exact hrec
    have hload' : u.boot.load = some ld := by rw [hu]; exact hload
    obtain ⟨hop, htag⟩ := fld_recovHead (op := 4) (by decide) tag
    have hdrop : (s.recovReq n src 4 tag bytes).payload.drop 4 = bytes := by
      change (bytesOf [recovHead 4 tag] ++ bytes).drop 4 = bytes
      exact List.drop_left' (by rw [show bytesOf [recovHead 4 tag] = leBytes 4 (recovHead 4 tag).toNat from List.append_nil _, length_leBytes])
    unfold State.recovOne
    simp only [wordsOf_recovReq, List.getD_cons_zero, hop, htag, hmode, Nat.reduceLeDiff, reduceCtorEq, if_false, State.recovLoad, hload', himg',
      hdrop, if_true]
    rfl
  obtain ⟨htaken, hstat, hbytes⟩ := State.loadTake_part (l := { ld with link := some (n.val, src, tag.toNat) }) hparse'
  refine ⟨_, congrArg Host.Outcome.next (hin.trans hone), htaken, hstat.trans himg', ?_⟩
  rw [hbytes, List.length_append]

theorem exec_recovAbort {ld : Load} (hload : s.boot.load = some ld) (himg : s.imgState = 2) (hsrc : ld.src = 3) :
    answers (.recovAbort n (s.recovReq n src 5 tag [])) s fun t => t.boot.load = none ∧ t.imgState = 0 ∧
      putFrame t n .recov (fun g => g.dst = src ∧ g.src = s.nodeId ∧ g.payload = bytesOf [recovHead 0x85 tag]) := by
  obtain ⟨u, hu, hregs, hclear, hin⟩ := State.recovIn_serves h (.inr hrec) src (op := 5) (by decide) tag (l := []) (by decide) (p := (· == 5)) rfl
  have hmode : u.mode = .recovery := by rw [hu]; exact hrec
  obtain ⟨hlinks, hnone, hreg, hstat⟩ := State.loadFail_abort hmode hsrc ld.bytes.length
  have hready : readyToSay s (u.loadFail ld 0x3C ld.bytes.length false) n := .of_links (nodeId_of_sameRegs hregs) hclear hlinks fun a hlo _ => hreg a hlo
  have hone : u.recovOne n (s.recovReq n src 5 tag []) = (u.loadFail ld 0x3C ld.bytes.length false).recovSay n src 0x85 tag.toNat 0 [] := by
    have hload' : u.boot.load = some ld := by rw [hu]; exact hload
    have himg' : u.imgState = 2 := by
      rw [State.imgState, State.rfld, hregs _ (by simp only [rBcImgStat, rLkRxf, rLk]; omega)]
      exact himg
    obtain ⟨hop, htag⟩ := fld_recovHead (op := 5) (by decide) tag
    unfold State.recovOne
    simp only [wordsOf_recovReq, List.getD_cons_zero, hop, htag, hmode, Nat.reduceLeDiff, reduceCtorEq, if_false, State.recovLoad, hload', himg', if_true]
    rfl
  obtain ⟨hframe, hsame, -⟩ := State.recovSay_puts hready.clear src 0x85 tag []
  refine ⟨_, congrArg Host.Outcome.next (hin.trans hone), ?_, ?_, hready.answer src 0x85 tag _⟩
  · rw [hframe]
    exact hnone
  · rw [State.imgState, State.rfld, hsame _ (by simp only [rBcImgStat, rLkTxf, rLk]; omega)]
    exact hstat
end

section
variable (hrun : s.mode = .run)
include hrun

/-- A response taken in RUN. -/
theorem State.recovIn_response (v : Word) : ∃ u, linksOnly s u ∧ (∀ a, a ≠ rLkRxf n → u.reg a = s.reg a) ∧
    s.recovIn n (s.recovReq n src 0x81 tag (leBytes 4 v.toNat)) (fun k => decide (0x81 ≤ k)) =
      u.lkResponse n (s.recovReq n src 0x81 tag (leBytes 4 v.toNat)) := by
  obtain ⟨u, hu, hregs, -, hin⟩ := State.recovIn_serves h (.inl hrun) src (op := 0x81) (by decide) tag (l := leBytes 4 v.toNat)
    (by rw [length_leBytes]; decide) (p := fun k => decide (0x81 ≤ k)) rfl
  refine ⟨u, hu, hregs, hin.trans ?_⟩
  have hmode : u.mode = .run := by rw [hu]; exact hrun
  obtain ⟨hop, -⟩ := fld_recovHead (op := 0x81) (by decide) tag
  unfold State.recovOne
  simp only [wordsOf_recovReq, List.getD_cons_zero, hop, hmode, Nat.le_refl, if_true]

theorem exec_recovResponse_empty (v : Word) (hempty : s.rbit (rLkRrxStat n) 0 = false) :
    answers (.recovResponse n (s.recovReq n src 0x81 tag (leBytes 4 v.toNat))) s fun t =>
      (t.reg (rLkRrxStat n)).getLsbD 0 = true ∧ fld (t.reg (rLkRrxStat n)) 16 9 = 8 ∧ t.reg (rLkRrxBuf n 1) = v ∧ dataKept s t := by
  obtain ⟨u, hu, hregs, hin⟩ := State.recovIn_response h src tag hrun v
  have hwords : wordsOf (s.recovReq n src 0x81 tag (leBytes 4 v.toNat)).payload = [recovHead 0x81 tag, v] := by
    rw [wordsOf_recovReq, ← List.append_nil (leBytes 4 v.toNat), wordsOf_cons]
    rfl
  have hlen : (s.recovReq n src 0x81 tag (leBytes 4 v.toNat)).payload.length = 8 := by
    change (bytesOf [recovHead 0x81 tag] ++ leBytes 4 v.toNat).length = 8
    rw [show bytesOf [recovHead 0x81 tag] = leBytes 4 (recovHead 0x81 tag).toNat from List.append_nil _, List.length_append, length_leBytes, length_leBytes]
  let word : Nat → Word := fun k => [recovHead 0x81 tag, v].getD k 0#32
  let w := (List.range 64).foldl (fun (s : State) k => s.setReg (rLkRrxBuf n k) (word k)) u
  have hw : onlyRegs u w := State.foldl_setReg_frame (List.range 64) (rLkRrxBuf n) word u
  have hbuf : w.reg (rLkRrxBuf n 1) = v :=
    State.foldl_setReg_reg List.nodup_range (rLkRrxBuf n) (fun a b hab => by simp only [rLkRrxBuf, rLk] at hab; omega) word u
      (List.mem_range.2 (by decide : 1 < 64))
  let t := (w.rset (rLkRrxStat n) 0).rsetFld (rLkRrxStat n) 16 9 8
  have hresp : u.lkResponse n (s.recovReq n src 0x81 tag (leBytes 4 v.toNat)) = t := by
    have hempty' : u.rbit (rLkRrxStat n) 0 = false := by
      rw [State.rbit, hregs _ (by simp only [rLkRrxStat, rLkRxf, rLk]; omega)]
      exact hempty
    unfold State.lkResponse
    rw [hempty', if_neg (by decide), hwords, hlen]
  have hstat : t.reg (rLkRrxStat n) = setFld (setBit (w.reg (rLkRrxStat n)) 0) 16 9 8 := by
    rw [State.reg_rsetFld, if_pos rfl, State.reg_rset, if_pos rfl]
  have hne : rLkRrxBuf n 1 ≠ rLkRrxStat n := by simp only [rLkRrxBuf, rLkRrxStat, rLk]; omega
  refine ⟨t, congrArg Host.Outcome.next (hin.trans hresp), ?_, ?_, ?_, ?_⟩
  · rw [hstat, getLsbD_setFld _ _ _ _ _ (by decide), if_neg (by decide), getLsbD_setBit _ _ _ (by decide)]
    simp
  · rw [hstat, fld_setFld_same _ _ _ _ (by decide)]
    rfl
  · rw [State.reg_rsetFld, if_neg hne, State.reg_rset, if_neg hne]
    exact hbuf
  · have hkept := hu.dataKept
    have ht : dataKept u t := by
      rw [show t = { u with regs := t.regs } from (hw.rset _ _).rsetFld _ _ _ _]
      exact ⟨rfl, rfl, rfl⟩
    exact ⟨ht.1.trans hkept.1, ht.2.1.trans hkept.2.1, ht.2.2.trans hkept.2.2⟩

theorem exec_recovResponse_full (v : Word) (hfull : s.rbit (rLkRrxStat n) 0 = true) :
    answers (.recovResponse n (s.recovReq n src 0x81 tag (leBytes 4 v.toNat))) s fun t =>
      (t.reg (rLkRrxStat n)).getLsbD 1 = true ∧ t.reg (rLkRrxBuf n 1) = s.reg (rLkRrxBuf n 1) ∧ dataKept s t := by
  obtain ⟨u, hu, hregs, hin⟩ := State.recovIn_response h src tag hrun v
  have hresp : u.lkResponse n (s.recovReq n src 0x81 tag (leBytes 4 v.toNat)) = u.rset (rLkRrxStat n) 1 := by
    have hfull' : u.rbit (rLkRrxStat n) 0 = true := by
      rw [State.rbit, hregs _ (by simp only [rLkRrxStat, rLkRxf, rLk]; omega)]
      exact hfull
    unfold State.lkResponse
    rw [hfull', if_pos rfl]
  refine ⟨_, congrArg Host.Outcome.next (hin.trans hresp), ?_, ?_, hu.dataKept⟩
  · rw [State.reg_rset, if_pos rfl, getLsbD_setBit _ _ _ (by decide)]
    simp
  · rw [State.reg_rset, if_neg (by simp only [rLkRrxBuf, rLkRrxStat, rLk]; omega), hregs _ (by simp only [rLkRrxBuf, rLkRxf, rLk]; omega)]
end
end

/-- Settles O43, clause by clause. -/
theorem recovFramesAreServed : Obligations.RecovFramesAreServed := by
  unfold Obligations.RecovFramesAreServed
  intro s n src v tag bytes ld h
  refine ⟨fun hrec => ⟨exec_recovRead h src tag hrec, ?_, exec_recovStream h src tag hrec, exec_recovImage h src tag hrec,
    exec_recovAbort h src tag hrec⟩, fun hrun => exec_recovResponse_empty h src tag hrun v, fun hrun => exec_recovResponse_full h src tag hrun v⟩
  exact exec_recovWrite h src tag hrec v

end Machine
end Sys2Proof
end
